-- ==== Sys2Proof/Word.lean ====
section
/-! DEFINITION. Word types of the Dexlyn H192 and the numbering of its units (R11, R12, R20, R24, R40). -/
namespace Sys2Proof

/-- One byte; multi-byte fields are little-endian (R9). -/
abbrev Byte := BitVec 8
/-- One 32-bit word of a memory structure or register (R9). -/
abbrev Dword := BitVec 32
/-- A 64-bit host address or register pair. -/
abbrev Qword := BitVec 64

/-- Downstream ports P000 to P191 (R11). -/
abbrev PortId := Fin 192
/-- Upstream functions U0 to U3 (R20). -/
abbrev FuncId := Fin 4
/-- Halves H0 and H1 (R11). -/
abbrev HalfId := Fin 2
/-- Port groups G00 to G23 (R12). -/
abbrev GroupId := Fin 24
/-- Host groups 0 to 3 (R24). -/
abbrev HgId := Fin 4
/-- Slice numbers 0 to 191; those at or above S do not exist (R29). -/
abbrev SliceId := Fin 192
/-- Limner cores L0 to L11 (R356). -/
abbrev CoreId := Fin 12
/-- CAN links: 0 CANA, 1 CANB (R407). -/
abbrev LinkId := Fin 2

/-- The bits [hi:lo] of a word as a number (the manual's bit-range notation). -/
def bitsOf {w : Nat} (v : BitVec w) (hi lo : Nat) : Nat := (v.toNat >>> lo) % 2 ^ (hi + 1 - lo)

/-- Bit i of a word. -/
def bitOf {w : Nat} (v : BitVec w) (i : Nat) : Bool := v.getLsbD i

/-- Little-endian bytes of a number, n of them (R9). -/
def leBytes : Nat → Nat → List Byte
  | 0, _ => []
  | n + 1, v => BitVec.ofNat 8 v :: leBytes n (v / 256)

/-- The number that little-endian bytes hold (R9). -/
def ofBytes : List Byte → Nat
  | [] => 0
  | b :: r => b.toNat + 256 * ofBytes r

/-- The little-endian bytes of a run of words. -/
def dwBytes (ws : List Dword) : List Byte := ws.flatMap (fun w => leBytes 4 w.toNat)

/-- The words that a run of bytes holds, four bytes each, a short last group read with zeros above. -/
def bytesDw (bs : List Byte) : List Dword :=
  (List.range ((bs.length + 3) / 4)).map (fun i => BitVec.ofNat 32 (ofBytes ((bs.drop (4 * i)).take 4)))

/-- Word i of a structure; words beyond its end read 0. -/
def dwAt (ws : List Dword) (i : Nat) : Dword := ws.getD i 0

/-- Words i and i+1 of a structure as one 64-bit field. -/
def qwAt (ws : List Dword) (i : Nat) : Qword := (dwAt ws (i + 1)) ++ (dwAt ws i)

/-- 1 for true, 0 for false. -/
def b2n (b : Bool) : Nat := if b then 1 else 0

/-- Ceiling division. -/
def cdiv (a b : Nat) : Nat := (a + b - 1) / b

/-- The half of a port, an upstream function and a core (R11). -/
def portHalf (p : PortId) : HalfId := if p.val < 96 then 0 else 1
def funcHalf (f : FuncId) : HalfId := if f.val < 2 then 0 else 1
def coreHalf (c : CoreId) : HalfId := if c.val < 6 then 0 else 1
/-- The port group of a port (R12). -/
def portGroup (p : PortId) : GroupId := ⟨p.val / 8, by omega⟩
/-- The half of a port group (R11). -/
def groupHalf (g : GroupId) : HalfId := if g.val < 12 then 0 else 1
/-- The eight ports of a port group (R12). -/
def groupPorts (g : GroupId) : List PortId :=
  (List.finRange 8).map (fun k => ⟨8 * g.val + k.val, by omega⟩)
/-- Stage address of a port within its group (R334). -/
def stageOf (p : PortId) : Fin 8 := ⟨p.val % 8, by omega⟩
/-- The port of stage k of group g (R334). -/
def stagePort (g : GroupId) (k : Fin 8) : PortId := ⟨8 * g.val + k.val, by omega⟩

end Sys2Proof
end

