-- ==== Sys2Proof/Syntax.lean ====
section
/-! DEFINITION. The commands of the H192: one constructor of Instr per row of spec/opcode_table.json, with the operands
that the outside world (or the part's own timers and engines, as events) supplies. -/
namespace Sys2Proof

/-- The path by which a dictionary request arrives (R405, R411): CANA, CANB or the admin window. -/
inductive Path where
  | can (l : LinkId)
  | admin
deriving DecidableEq, Repr

/-- The two buses of a port (R153). -/
inductive Bus where
  | usb2
  | ss
deriving DecidableEq, Repr

/-- A read that the device has outstanding for a slice (R481). -/
inductive ReadRef where
  | pi (wq : Nat)
  | work (wq : Nat)
  | transferEntry (h ep stream : Nat)
  | fragment (h ep stream : Nat)
  | streamCtx (h ep stream : Nat)
  | context (h ep : Nat)
  | data (h ep stream : Nat)
  | struct (wq : Nat) (index : Dword)
  | result (wq : Nat) (index : Dword)
  | confirm (f : FuncId)
  | flush (cq : Nat)
deriving DecidableEq, Repr

/-- How a host read ends when it does not succeed (R228). -/
inductive ReadFail where
  | unsupported
  | abort
  | poisoned
deriving DecidableEq, Repr

/-- The PID of a USB 2.0 data packet (R161, R167). -/
inductive DPid where
  | data0
  | data1
  | data2
  | mdata
deriving DecidableEq, Repr

/-- The partner's answer to a control or bulk transaction (R165, R172, R169, R174). seqOk: the toggle or sequence number is the one
expected; granted: packets that a SuperSpeed partner takes next (R173). sealBad counts the seal checks of the chunk that mismatched
(R217). -/
inductive NpResp where
  | data (seqOk : Bool) (bytes : List Byte)
  | ack (granted : Nat)
  | nak
  | nyet
  | stall
  | crcError
deriving DecidableEq, Repr

/-- The partner's answer to a periodic transaction (R159); pid is read on high-bandwidth isochronous endpoints (R161). -/
inductive PerResp where
  | data (seqOk : Bool) (pid : DPid) (bytes : List Byte)
  | ack
  | nyet
  | nak
  | stall
  | busError
  | sent
deriving DecidableEq, Repr

/-- A hub TT's answer to a split (R178, R179); sealBad counts the seal checks of the data's chunk that mismatched (R217). -/
inductive SplitResp where
  | ack
  | nak
  | nyet
  | mdata (bytes : List Byte) (sealBad : Nat)
  | data (seqOk : Bool) (bytes : List Byte) (sealBad : Nat)
  | stall
  | err
  | crcError
deriving DecidableEq, Repr

/-- The partner's answer to the LPM token (R199). -/
inductive LpmAns where
  | ack
  | nyet
  | stall
  | none
deriving DecidableEq, Repr

/-- Why Sinopia went down (R245). -/
inductive SinopiaLoss where
  | noFlit
  | replays
  | ninthLane
deriving DecidableEq, Repr

/-- A CTRL message between the halves (R231, R258). -/
inductive CtrlMsg where
  | mirror (n : SliceId)
  | creditRequest (n : SliceId) (res : Nat)
  | completion (n : SliceId) (cq : Nat) (dws : List Dword) (irq : Bool)
  | admission (p : PortId)
  | hgReturn (f : FuncId) (lower upper : Dword)
deriving DecidableEq, Repr

/-- A DATA message (R226, R242): for an upstream link, transfer data or a completion or CI write, or for a pool of the other
half. -/
inductive DataMsg where
  | upstream (f : FuncId) (n : SliceId) (addr : Qword) (bytes : List Byte) (data : Bool)
  | pool (p : PortId) (h ep : Nat) (bytes : List Byte)
deriving DecidableEq, Repr

/-- The arbiters of R262. -/
inductive Arbiter where
  | engine (h : HalfId)
  | dma (h : HalfId)
  | ppeCanvas (p : PortId)
  | easel (h : HalfId)
  | upWrite (f : FuncId)
  | upRead (f : FuncId)
  | sinopia (h : HalfId)
deriving DecidableEq, Repr

/-- A request pending at an arbiter in a turn: the slice (none: the device reserve), its charge, and whether it is
periodic (R262, R263). -/
structure ArbReq where
  who : Option SliceId
  charge : Nat
  periodic : Bool
deriving DecidableEq, Repr

/-- The fields of a manager operation block (R413). -/
structure OpBlock where
  slice : Nat := 0
  all : Bool := false
  hostGroup : Nat := 0
  pasid : Dword := 0
  port : Nat := 0
  target : Nat := 0
  imageAddr : Qword := 0
  length : Nat := 0
  imagePasid : Dword := 0
  tag : Dword := 0
deriving DecidableEq, Repr

/-- What one CC line shows (R302). -/
inductive CcTerm where
  | opened
  | rpDefault
  | rp15
  | rp30
  | rd
  | ra
deriving DecidableEq, Repr

/-- SOP, SOP′ and SOP″ (R308). -/
inductive Sop where
  | sop
  | sop1
  | sop2
deriving DecidableEq, Repr

/-- A power data object as R317, R318 and R320 speak of it (the bit layout is the PD standard's). -/
inductive Pdo where
  | fixed (mv ma : Nat)
  /-- the fixed 5 V object of a source: Dual-Role Power, Dual-Role Data, USB Communications Capable, EPR Mode Capable (R317) -/
  | fixed5 (ma : Nat) (dualPower dualData usbComm eprCapable : Bool)
  | pps (maxMv ma : Nat) (limited : Bool)
  | avs (pdpMw : Nat)
  | none
deriving DecidableEq, Repr

/-- A request data object: its raw word, the object position, and the voltage and current it asks for (R312, R331). -/
structure Rdo where
  raw : Dword
  pos : Nat
  mv : Nat
  ma : Nat
  mismatch : Bool := false
  programmable : Bool := false
deriving DecidableEq, Repr

/-- The messages of R315, by name, with the fields that the manual's rules read. -/
inductive PdMsg where
  | sourceCaps (pdos : List Pdo)
  | eprSourceCaps (pdos : List Pdo)
  | request (r : Rdo)
  | eprRequest (r : Rdo)
  | sinkCaps (pdos : List Pdo)
  | eprSinkCaps (pdos : List Pdo)
  | getSourceCap
  | getSinkCap
  | eprGetSourceCap
  | accept
  | reject
  | wait
  | psRdy
  | notSupported
  | prSwap
  | vconnSwap
  | drSwap
  | softReset
  | eprModeEnter
  | eprModeExit
  | eprModeAck
  | eprModeSucceeded
  | eprModeFailed
  | eprKeepAlive
  | eprKeepAliveAck
  | getStatus
  | status
  | alert
  | getPpsStatus
  | ppsStatus (mv : Nat)
  | getSourceCapExt
  | getRevision
  | getSourceInfo
  | sourceCapExt
  | revision
  | sourceInfo
  | discoverIdentity
  | identityAckDfpHost
  | identityAckCable (fiveAmp : Bool) (fiftyVolt eprMode active : Bool)
  | discoverSvids
  | svidsAckEmpty
  | otherVdm
  | vdmNak
  | bist (carrier : Bool)
  | chunk (last : Bool)
  | unlisted (answerNeeded : Bool)
deriving DecidableEq, Repr

/-- The checked units of R379. -/
inductive ResUnit where
  | generator (h : HalfId) (i : Fin 16)
  | walker (h : HalfId) (i : Fin 16)
  | entryArith (h : HalfId)
  | fresco (h : HalfId)
  | palette (h : HalfId) (n : SliceId) (res : Nat)
  | easelDelay (h : HalfId) (slot : Nat)
  | mfCounter (h : HalfId)
  | pipeline (c : CoreId)
deriving DecidableEq, Repr

/-- What the failing operation of a unit served (R379). -/
inductive ResVictim where
  | none
  | transfer (n : SliceId) (h ep stream : Nat)
  | work (n : SliceId) (wq : Nat) (index : Dword)
deriving DecidableEq, Repr

/-- Where an SRAM word lies (R381). -/
inductive SramLoc where
  | canvas (n : SliceId) (h ep stream : Nat)
  | ctxClean (n : SliceId) (h ep : Nat)
  | ctxDirty (n : SliceId) (h ep : Nat)
  | header (n : SliceId) (h : Nat) (bothBad : Bool)
  | plan (p : PortId) (bothBad : Bool)
  | elastic (p : PortId) (h ep : Nat) (periodic : Bool)
  | coreImem (c : CoreId)
  | coreDmem (c : CoreId)
  | calibration
  | faultRecord (slot : Fin 63)
deriving DecidableEq, Repr

/-- A Herob frame's fields after CMD (R408). -/
structure HFrame where
  txn : Byte
  index : BitVec 16
  sub : Byte
  seq : Nat := 0
  data : List Byte := []
deriving DecidableEq, Repr

/-- The commands. Comments name the rule that governs each row of the table. -/
inductive Instr where
  -- register and dictionary accesses (R7, R401, R400, R21), host groups and functions (R26, R22, R41, R27, R445)
  | registerWrite (f : FuncId) (bar off size : Nat) (v : Qword)
  | objectWrite (p : Path) (index : BitVec 16) (sub : Byte) (value : List Byte) (image : List Dword)
  | objectRead (p : Path) (index : BitVec 16) (sub : Byte)
  | badRegisterAccess (f : FuncId) (bar off size : Nat) (write : Bool)
  | microframeBoundary
  | hgReturn (f : FuncId) (upper : Dword)
  | hsTimeoutExpiry (g : HgId)
  | evtCauseClear (f : FuncId) (causes : Dword) (slices : BitVec 192)
  | vectorUnmask (f : FuncId) (n : SliceId) (vec : Nat)
  | msixEnableChange (f : FuncId) (enable mask : Bool)
  | upstreamLinkDown (f : FuncId)
  | upstreamLinkUp (f : FuncId)
  | upstreamPerst (f : FuncId) (fundamental : Bool)
  -- doorbells, pushes and queues (R65, R110, R77, R69, R70, R61, R58, R81, R72)
  | wqDoorbell (f : FuncId) (n : SliceId) (v : Dword)
  | epDoorbell (f : FuncId) (n : SliceId) (v : Qword)
  | cqDoorbell (f : FuncId) (n : SliceId) (v : Qword)
  | wqPush (f : FuncId) (n : SliceId) (q : Fin 8) (k : Fin 4) (e : List Dword)
  | epPush (f : FuncId) (n : SliceId) (e : List Dword)
  | qSelect (f : FuncId) (n : SliceId) (v : Dword)
  | piReadComplete (n : SliceId) (wq : Nat) (pi : Dword)
  | workEntryReadComplete (n : SliceId) (wq : Nat) (data : List Dword)
  | wqArbitrationTurn (n : SliceId)
  -- the opcodes, each acting on a started entry of a work queue (R84)
  | nop (n : SliceId) (wq : Nat) (i : Dword)
  | openDevice (n : SliceId) (wq : Nat) (i : Dword)
  | assignAddress (n : SliceId) (wq : Nat) (i : Dword)
  | assignAddressRecoveryEnd (n : SliceId) (wq : Nat) (i : Dword)
  | updateDevice (n : SliceId) (wq : Nat) (i : Dword)
  | closeDevice (n : SliceId) (wq : Nat) (i : Dword)
  | admitEndpoints (n : SliceId) (wq : Nat) (i : Dword)
  | retireEndpoints (n : SliceId) (wq : Nat) (i : Dword)
  | stopEndpoint (n : SliceId) (wq : Nat) (i : Dword)
  | clearHalt (n : SliceId) (wq : Nat) (i : Dword)
  | moveDequeue (n : SliceId) (wq : Nat) (i : Dword)
  | portReset (n : SliceId) (wq : Nat) (i : Dword)
  | portSuspend (n : SliceId) (wq : Nat) (i : Dword)
  | portResume (n : SliceId) (wq : Nat) (i : Dword)
  | portPowerCycle (n : SliceId) (wq : Nat) (i : Dword)
  | pdRequest (n : SliceId) (wq : Nat) (i : Dword)
  | carvePool (n : SliceId) (wq : Nat) (i : Dword)
  | releasePool (n : SliceId) (wq : Nat) (i : Dword)
  | queryPlan (n : SliceId) (wq : Nat) (i : Dword)
  | queryBudget (n : SliceId) (wq : Nat) (i : Dword)
  | hostStructureReadComplete (n : SliceId) (wq : Nat) (i : Dword) (data : List Dword)
  | modTimeExpiry (n : SliceId) (cq : Nat)
  | ciWriteDeadline (n : SliceId) (wq : Nat)
  -- rings, contexts and host reads (R109, R112, R115, R92, R219, R228, R239, R240, R225, R220, R230, R209)
  | transferEntryReadComplete (n : SliceId) (h ep stream : Nat) (data : List Dword)
  | fragmentTableReadComplete (n : SliceId) (h ep stream : Nat) (data : List Dword)
  | streamContextReadComplete (n : SliceId) (h ep stream : Nat) (data : List Dword)
  | contextLoadComplete (n : SliceId) (h ep : Nat) (data : List Dword)
  | dataReadComplete (n : SliceId) (h ep stream : Nat) (off : Nat) (bytes : List Byte) (sealBad : Nat)
  | hostReadFailure (n : SliceId) (r : ReadRef) (k : ReadFail)
  | completionTimeout (n : SliceId) (r : ReadRef)
  | confirmReadIssue (n : SliceId) (f : FuncId)
  | confirmReadComplete (n : SliceId) (f : FuncId)
  | flushReadIssue (n : SliceId) (cq : Nat)
  | funnelHoldExpiry (n : SliceId) (h ep stream : Nat)
  | washEnd (h : HalfId)
  | bankPowerUpDone (h : HalfId) (b : Fin 16)
  -- the buses (R165, R159, R179, R168, R162, R171, R170, R174, R202)
  | usb2TransactionResponse (p : PortId) (h ep : Nat) (r : NpResp) (sealBad : Nat)
  | periodicTransactionResponse (p : PortId) (h ep : Nat) (r : PerResp) (sealBad : Nat)
  | splitResponse (p : PortId) (h ep : Nat) (r : SplitResp)
  | transactionTimeout (p : PortId) (h ep : Nat)
  | nonperiodicTurn (p : PortId) (b : Bus)
  | repollIntervalExpiry (p : PortId) (h ep : Nat)
  | portBabble (p : PortId) (h ep : Nat)
  | nrdyReceived (p : PortId) (h ep stream : Nat)
  | erdyReceived (p : PortId) (h ep stream : Nat)
  | functionWakeReceived (p : PortId) (intf : Byte)
  -- bus states (R186, R187, R188, R189, R190, R199, R200, R201, R202, R204)
  | pullupSeen (p : PortId) (lowSpeed : Bool)
  | connectDebounceEnd (p : PortId)
  | usb2Disconnect (p : PortId)
  | resetDriveEnd (p : PortId) (chirped : Bool)
  | recoveryEnd (p : PortId) (b : Bus)
  | resumeDriveEnd (p : PortId)
  | suspendReached (p : PortId)
  | partnerKDetected (p : PortId) (within1ms : Bool)
  | lpmAnswer (p : PortId) (a : LpmAns)
  | ssTerminationsDetected (p : PortId)
  | rxDetectProbe (p : PortId)
  | ssTrainingComplete (p : PortId) (gen2 : Bool)
  | pollingTimeout (p : PortId)
  | u1U2InactivityTimeout (p : PortId) (u2 : Bool)
  | partnerLgo (p : PortId) (u2 : Bool)
  | partnerU1U2Exit (p : PortId)
  | lauReceived (p : PortId)
  | u3EntryTimeout (p : PortId)
  | u3ExitLfps (p : PortId) (partner : Bool)
  | ssRecoveryFailed (p : PortId)
  | ssTerminationsLost (p : PortId)
  | ssResetEnd (p : PortId) (gen2 : Bool)
  | powerCycleOffEnd (p : PortId)
  -- Sinopia and Palette (R245, R246, R244, R231, R226, R13, R243, R263)
  | sinopiaDown (w : SinopiaLoss)
  | sinopiaRetrainAttempt
  | sinopiaLinkUp
  | sinopiaHoldExpiry
  | sinopiaSyncReceived (offsetNs : BitVec 16)
  | sinopiaCtrlMessage (dst : HalfId) (m : CtrlMsg)
  | sinopiaDataMessage (dst : HalfId) (m : DataMsg)
  | sinopiaFenceMessage (dst : HalfId) (n : SliceId)
  | sinopiaFlitCrcError (src : HalfId)
  | sinopiaLaneRetire (src : HalfId)
  | arbiterTurn (a : Arbiter) (reqs : List ArbReq)
  -- manager operations on slices (R268 to R294, R45)
  | sliceCreate (p : Path) (b : OpBlock)
  | sliceQuiesce (p : Path) (b : OpBlock)
  | quiesceDrainEnd (n : SliceId)
  | quiesceTimeoutExpiry (n : SliceId) (enginesBusy : Bool)
  | sliceFence (p : Path) (b : OpBlock)
  | fenceBusResetTimeout (p : PortId)
  | fenceReq (f : FuncId) (v : Dword)
  | fenceReqAll (f : FuncId) (v : Dword)
  | sliceFreeze (p : Path) (b : OpBlock)
  | sliceRehome (p : Path) (b : OpBlock)
  | sliceThaw (p : Path) (b : OpBlock)
  | sliceExport (p : Path) (b : OpBlock)
  | sliceImport (p : Path) (b : OpBlock) (image : List Dword)
  | sliceReset (p : Path) (b : OpBlock)
  | sliceRemove (p : Path) (b : OpBlock)
  | portAssign (p : Path) (b : OpBlock)
  -- power domains (R432, R433, R295, R296, R209)
  | pgOn (p : Path) (g : GroupId)
  | pgSleep (p : Path) (g : GroupId)
  | pgOff (p : Path) (g : GroupId)
  | pgDrainEnd (g : GroupId)
  | portSleepWake (g : GroupId)
  | upOn (p : Path) (u : FuncId)
  | upOff (p : Path) (u : FuncId)
  | upDrainDeadlineExpiry (u : FuncId)
  | bankOffReq (p : Path) (h : HalfId) (mask : BitVec 16)
  -- Type-C (R302, R313, R462, R305)
  | ccChange (p : PortId) (cc1 cc2 : CcTerm)
  | tdrpToggle (p : PortId)
  | tccdebounceExpiry (p : PortId)
  | tpddebounceExpiry (p : PortId)
  | ttryccdebounceExpiry (p : PortId)
  | tdrptryExpiry (p : PortId)
  | ttrytimeoutExpiry (p : PortId)
  | terrorrecoveryExpiry (p : PortId)
  | vsnsSample (p : PortId) (code : BitVec 12)
  | vddCcRise (p : PortId)
  -- Power Delivery (R308 to R331)
  | pdMessageReceived (p : PortId) (so : Sop) (rev3 : Bool) (id : Fin 8) (m : PdMsg)
  | pdGoodcrcReceived (p : PortId) (so : Sop) (id : Fin 8)
  | treceiveExpiry (p : PortId) (so : Sop)
  | hardResetReceived (p : PortId)
  | cableResetReceived (p : PortId)
  | tsinktxExpiry (p : PortId)
  | ppeAutoAnswer (p : PortId)
  | tsenderresponseExpiry (p : PortId)
  | tsrctransitionExpiry (p : PortId)
  | tpssourceoffExpiry (p : PortId)
  | tpssourceonExpiry (p : PortId)
  | tswapsourcestartExpiry (p : PortId)
  | ttypecsendsourcecapExpiry (p : PortId)
  | tfirstsourcecapExpiry (p : PortId)
  | tdiscoveridentityExpiry (p : PortId)
  | tvconnsourceonExpiry (p : PortId)
  | tsinkrequestExpiry (p : PortId)
  | tnoresponseExpiry (p : PortId)
  | tpshardresetExpiry (p : PortId)
  | tsrcrecoverExpiry (p : PortId)
  | thardresetcompleteExpiry (p : PortId)
  | tchunksenderresponseExpiry (p : PortId)
  | tppstimeoutExpiry (p : PortId)
  | tsourceeprkeepaliveExpiry (p : PortId)
  | tvbusonExpiry (p : PortId)
  | ppeRestart (p : PortId)
  -- stages and power allocation (R339 to R353)
  | pslResponse (g : GroupId) (k : Fin 8) (frame : Option Dword)
  | pslWatchPoll (g : GroupId)
  | pslAlert (g : GroupId)
  | faultRetryExpiry (p : PortId)
  | stop (p : Path) (g : GroupId) (v : Byte)
  | forceSafeNFall
  | forceSafeNRise
  | ilimitClipTimer (p : PortId)
  | supplyAlertFall
  | supplyAlertRise
  | alertHoldExpiry
  | allocationRun
  -- Easel, cores and the builder (R361 to R375)
  | taskTake (c : CoreId)
  | taskEnd (c : CoreId) (cycles : Nat)
  | taskPost (c : CoreId) (d : List Dword)
  | taskYield (c : CoreId) (cycles : Nat) (d : List Dword)
  | taskCancel (c : CoreId) (handle : Dword)
  | easelTick (h : HalfId)
  | coreWedge (c : CoreId)
  | coreRestartDone (c : CoreId)
  | updateCmdCore (p : Path) (c : CoreId)
  | updateCmdAll (p : Path)
  | coreUpdateLoadDone (c : CoreId) (hashOk : Bool)
  | dictReq (c : CoreId) (index : BitVec 16) (sub : Byte) (write : Bool) (value : List Byte)
  | dictWait (c : CoreId)
  | eventRaise (c : CoreId) (v : Dword)
  | objAnswer (c : CoreId) (code : Byte)
  | objAnswerTimeout
  | builderReload (p : Path) (v : Byte) (imageOk : Bool) (version : Dword)
  -- integrity (R379 to R385)
  | residueMismatch (u : ResUnit) (v : ResVictim) (second : Bool)
  | unitReturn (u : ResUnit)
  | sramError (arr : Fin 8) (loc : SramLoc) (uncorrectable : Bool)
  | patrolScrubRead (arr : Fin 8) (loc : SramLoc) (word : Nat) (badBit : Option Nat) (uncorrectable : Bool)
  | gessoVote
  -- Herob, the minimal responder and the admin window (R404 to R423)
  | read (l : LinkId) (fr : HFrame)
  | segGet (l : LinkId) (fr : HFrame)
  | write (l : LinkId) (fr : HFrame)
  | writeSegStart (l : LinkId) (fr : HFrame)
  | segPut (l : LinkId) (fr : HFrame) (image : List Dword)
  | abort (l : LinkId) (fr : HFrame)
  | segTimeoutExpiry (l : LinkId)
  | minimalResponderRequest (l : LinkId) (cmd : Byte) (fr : HFrame)
  | heartbeat
  | canBusOff (l : LinkId)
  | eventFrameQueueDrain (l : LinkId)
  | adminRead (f : FuncId)
  | adminWrite (f : FuncId)
  | adminManagerOperation (f : FuncId) (image : List Dword)
  | save (p : Path) (v : Byte)
  | restore (p : Path) (v : Byte)
  | stopMask (p : Path) (mask : Dword)
  | fenceSlice (p : Path) (n : Byte)
  | fenceAll (p : Path) (v : Byte)
  | lockClear (p : Path) (v : Byte)
  | deviceReset (p : Path) (v : Byte)
  | eventAck (p : Path) (v : BitVec 16)
  -- supplies, clocks and starts (R425 to R467, R478)
  | railFail
  | railsGood
  | gessoClockStart
  | gessoClockStop
  | resetNFall
  | resetNRise
  | refclkLoss (h : HalfId)
  | refclkReturn
  | startCmdWarm (p : Path)
  | startCmdCold (p : Path)
  | portsReady (okA okB : Bool) (calOk : Bool) (idents : List (PortId × BitVec 16)) (us : Dword)
  | startFailure (okA okB : Bool) (us : Dword)
  | failedStartRetry
  | failedStartWindowExpiry
  | levelReqAttachWatch (p : Path)
  | levelReqDeepStandby (p : Path)
  | watchPeriod
  | wakeNLow
  | canWakePattern (l : LinkId) (id : BitVec 11) (data : List Byte)
  | canDominantEdge (l : LinkId)
  | gessoLoopIdleStop
  | vsrvRise
  | attachWake (p : PortId)
  | perstWake (f : FuncId)
  | usb2BusWake (p : PortId)
  | wakeRailsGood
  | stageData (p : Path) (data : List Byte)
  | stageCmdErase (p : Path)
  | stageCmdVerify (p : Path)
  | stageCmdDone (ok : Bool) (version minVersion : Dword)
  | thermalTrip (h : HalfId) (tenths : BitVec 16)
  | thermalClearStart
  | ppeRestartEnd (p : PortId) (ok : Bool)
  | gessoSupplyGood (vsrv : Bool) (straps : BitVec 7)
  | gessoSupplyLoss
  | canBusOffRecovery (l : LinkId)
  | saveDone (ok : Bool)
deriving DecidableEq, Repr

end Sys2Proof
end

