-- ==== Sys2Proof/Config.lean ====
section
/-! DEFINITION. What one implementation of the H192 fixes, and the free values: constants without a body for what the
manual leaves open. -/
namespace Sys2Proof.Config

/-- FREE VALUE. The k-th draw of the random generator that R26 names for handshake nonces. -/
opaque rawNonce : Nat → BitVec 64
/-- FREE VALUE. ENGINE_STATE DW10-DW15 of a context that the device writes back: R91 gives its content, no layout. -/
opaque engineState : Nat → Nat → BitVec 32
/-- FREE VALUE. Bytes of SERIAL (0x1000:06), fused per part (R403). -/
opaque serialByte : Nat → BitVec 8
/-- FREE VALUE. DICT_VERSION of the firmware (R403, R424). -/
opaque dictVersion : BitVec 32
/-- FREE VALUE. The builder public key hash in OTP is not all zero (R370). -/
opaque builderKeyFused : Bool
/-- FREE VALUE. An OTP override of the node ID, 0 for none (R453). -/
opaque otpNodeId : BitVec 7
/-- FREE VALUE. Unit-specific DETAIL words of fault record k (R395 gives no layout). -/
opaque faultDetail : Nat → Nat → BitVec 32
/-- FREE VALUE. The answer contents the manual names but does not spell out (R315: Status, Revision, Source_Info ...). -/
opaque pdAnswerWord : Nat → BitVec 32

/-- FREE VALUE. The k-th time that the builder image of firmware partition p is read: it passes the checks of R370; its version. -/
opaque builderOk : Nat → Nat → Bool
opaque builderVersion : Nat → Nat → BitVec 32
/-- FREE VALUE. The object table of a builder image: size, access (0 RO, 1 RW, 2 WO, 3 CONST), class (0 none, 1 L, 2 Q, 3 B), default,
least and greatest value of a builder object (R374). -/
opaque builderObj : BitVec 32 → Nat → Option (Nat × Nat × Nat × Nat × Nat × Nat)
/-- FREE VALUE. FUNC of a task that hardware posts, by the code of its source: an entry of the firmware's function table (R357). -/
opaque taskFunc : Nat → BitVec 16
/-- FREE VALUE. Words 4 to 7 of such a task, ARG, on each use (R357). -/
opaque taskArg : Nat → Nat → BitVec 32
/-- FREE VALUE. Code and REASON with which a SAVE or RESTORE that fails is answered (R406 gives none). -/
opaque saveFailCode : BitVec 8
opaque saveFailReason : BitVec 8
/-- FREE VALUE. CAUSE and SEVERITY of the fault record that R430 asks for. -/
opaque refclkCause : BitVec 8
opaque refclkSeverity : BitVec 2

/-- FREE VALUE. The delay from the boundary to the timestamp packet that port p sends in microframe t (R158), in nanoseconds: R182
bounds it by 50. -/
opaque rawItpDelay : Nat → Nat → Nat
def itpDelay (p t : Nat) : Nat := rawItpDelay p t % 51

/-- A nonce is 64 bits and not zero (R26). -/
def nonce (k : Nat) : BitVec 64 := if rawNonce k = 0 then 1 else rawNonce k

/-- Allowed slice counts (R29). -/
def sliceCounts : List Nat := [1, 2, 4, 6, 8, 12, 16, 24, 32, 48, 64, 96, 192]

/-- Per-slice shares of R31 at slice count S. -/
def sharePages (S : Nat) : Nat := 9216 / S
def shareHandles (S : Nat) : Nat := 6144 / S
def shareQueues (S : Nat) : Nat := 3072 / S
def shareVectors (S : Nat) : Nat := 12288 / S
def shareContexts (S : Nat) : Nat := 12288 / S

/-- The Canvas of a half (R207): pages, pages of a bank, and bytes of a page, a chunk and a line. -/
def halfPages : Nat := 4608
def bankPages : Nat := 288
def pageBytes : Nat := 4096
def chunkBytes : Nat := 512
def lineBytes : Nat := 32

/-- Stride of the vector regions in 4 KiB units (R31, R40): the table rounded up, and one page of pending bits. -/
def vecStride (S : Nat) : Nat := cdiv (16 * shareVectors S) 4096 + 1

/-- Capacity per period of resource r (R250), per link or per half. -/
def capacity : Nat → Nat
  | 1 => 7375000 | 2 => 7375000 | 3 => 32000000 | 4 => 16000000
  | 5 => 2400000 | 6 => 37500 | 7 => 1000000 | _ => 0

/-- Device-wide capacity of resource r after the 4 % reserve (R251), so that dividing by S gives the table. -/
def deviceBudget : Nat → Nat
  | 1 => 28320000 | 2 => 28320000 | 3 => 61440000 | 4 => 15360000
  | 5 => 4608000 | 6 => 72000 | 7 => 1920000 | _ => 0

/-- B of R251: the per-slice budget of resource r at slice count S. -/
def budget (S r : Nat) : Nat := deviceBudget r / S

/-- The unit code of a budget record (R265). -/
def budgetUnit : Nat → Nat
  | 5 => 1 | 6 => 2 | 7 => 3 | _ => 0

/-- Severity of event cause c (R421); causes not listed and builder causes count as 0. -/
def causeSeverity : Nat → Nat
  | 3 => 2 | 4 => 3 | 6 => 1 | 7 => 1 | 16 => 1 | 17 => 1 | 33 => 1 | 34 => 2 | 35 => 1 | 37 => 1 | 38 => 2
  | 40 => 1 | 41 => 1 | 42 => 2 | 43 => 1 | 65 => 2 | 67 => 1 | 69 => 1 | 96 => 2 | 97 => 1 | 128 => 1 | 129 => 1
  | 130 => 2 | 131 => 2 | 160 => 1 | 161 => 2 | 162 => 1 | 163 => 2 | 194 => 1 | 196 => 2 | 197 => 2 | _ => 0

/-- Default ROUTE of a severity (R420). -/
def routeDefault : Nat → Nat
  | 0 => 0 | 1 => 1 | _ => 3

/-- K drive of an L1 exit for BESL 0 to 15, in microseconds (R199). -/
def beslUs (b : Nat) : Nat :=
  [125, 150, 200, 300, 400, 500, 1000, 2000, 3000, 4000, 5000, 6000, 7000, 8000, 9000, 10000].getD b 0

/-- FABRIC cycles per microframe (R428). -/
def fabricPerMf : Nat := 150000
/-- Cycles of the Gesso crystal in one second (R429). -/
def gessoHz : Nat := 32768
/-- Task wedge limit and yield bound in CORE cycles (R366, R260). -/
def wedgeCycles : Nat := 16000
def yieldCycles : Nat := 8000

end Sys2Proof.Config
end

