-- ==== Sys2Proof/Machine/Objects.lean ====
section
/-! DEFINITION. The object table of the dictionary (R398 to R406, R420, and the object tables of every chapter): size,
access, class, default and range of each object. Values are in Flags and Ops. -/
namespace Sys2Proof.Machine

/-- Access of an object (R400). -/
inductive Acc where
  | ro | rw | wo | const
deriving DecidableEq, Repr

/-- Field class (R5 to R8); `act` takes effect when the write arrives. -/
inductive Cls where
  | none | l | q | b | act
deriving DecidableEq, Repr

/-- One row of an object table; size 0 is a string, whose length varies. -/
structure Obj where
  size : Nat
  acc : Acc
  cls : Cls := .none
  dflt : Nat := 0
  lo : Nat := 0
  hi : Nat := 0xFFFFFFFFFFFFFFFF
deriving DecidableEq, Repr

def Obj.ofRo (size : Nat) : Obj := ⟨size, .ro, .none, 0, 0, 0⟩
def Obj.ofConst (size v : Nat) : Obj := ⟨size, .const, .none, v, 0, 0⟩
def Obj.ofRw (size : Nat) (c : Cls) (dflt lo hi : Nat) : Obj := ⟨size, .rw, c, dflt, lo, hi⟩
def Obj.ofWo (size : Nat) (c : Cls) (lo hi : Nat) : Obj := ⟨size, .wo, c, 0, lo, hi⟩

/-- Key of an object in the dictionary stores. -/
def okey (idx sub : Nat) : Nat := idx * 256 + sub

/-- Rows of the tables below, keyed by subindex, or by okey. -/
def rowRo (k size : Nat) : Nat × Obj := (k, .ofRo size)
def rowConst (k size v : Nat) : Nat × Obj := (k, .ofConst size v)
def rowRw (k size : Nat) (c : Cls) (dflt lo hi : Nat) : Nat × Obj := (k, .ofRw size c dflt lo hi)
def rowWo (k size : Nat) (c : Cls) (lo hi : Nat) : Nat × Obj := (k, .ofWo size c lo hi)

/-- Look a row up. -/
def objIn (t : List (Nat × Obj)) (k : Nat) : Option Obj := (t.find? (fun x => x.1 == k)).map (fun x => x.2)

/-- The listed causes and their names (R421). -/
def causeNames : List (Nat × String) :=
  [(1, "Cold start"), (2, "Warm start"), (3, "Failed start"), (4, "Safe hold"), (5, "Lock cleared"),
   (6, "Default substituted"), (7, "Node ID invalid"), (16, "Bad register access"), (17, "Timebase corrected"),
   (32, "Residue retried"), (33, "Unit fenced"), (34, "Unit held out"), (35, "Seal mismatch"), (36, "SRAM corrected"),
   (37, "SRAM uncorrectable"), (38, "Corrected-error threshold"), (39, "Row repaired"), (40, "Core restarted")] ++
  [(41, "PPE restarted"), (42, "PPE held"), (43, "Half warm restart"), (44, "Gesso vote"),
   (64, "Sinopia lane repaired"), (65, "Sinopia down"), (66, "Sinopia up"), (67, "Upstream link down"),
   (68, "Host group state"), (69, "Confirm read failed"), (96, "Quiesce stalled"), (97, "Slice fenced"),
   (98, "Slice state"), (128, "Transition detach"), (129, "Stage fault"), (130, "Stage lost")] ++
  [(131, "Port held after faults"), (132, "PD Hard_Reset"), (133, "PD Alert"), (160, "Supply alert"),
   (161, "Floors over budget"), (162, "STOP asserted"), (163, "FORCE_SAFE_N"), (192, "Owner changed"),
   (193, "Herob protocol error"), (194, "CAN bus-off"), (195, "Live update ended"), (196, "Builder image refused"),
   (197, "Builder core held")]

/-- Whether cause c exists: listed, or the builder's (R421). -/
def causeExists (c : Nat) : Bool := causeNames.any (fun x => x.1 == c) || (240 ≤ c && c ≤ 255)

/-- NAME of a cause; the builder's causes have no name in the manual and read empty. -/
def causeName (c : Nat) : String := (causeNames.find? (fun x => x.1 == c)).elim "" (fun x => x.2)

/-- Identity and communication (R403, R404), start and partitions (R446, R451), Gesso commands (R417). -/
def objLowA : List (Nat × Obj) :=
  [rowConst (okey 0x1000 1) 4 0x0B17, rowConst (okey 0x1000 2) 4 0x192, rowConst (okey 0x1000 3) 1 0xA0,
   rowRo (okey 0x1000 4) 4, rowRo (okey 0x1000 5) 1, rowConst (okey 0x1000 6) 0 0, rowRo (okey 0x1000 7) 4,
   rowRo (okey 0x1100 1) 1, rowRo (okey 0x1100 2) 1, rowRw (okey 0x1100 3) 2 .b 500 125 1000,
   rowRw (okey 0x1100 4) 2 .b 2000 0 8000, rowRw (okey 0x1100 5) 2 .l 100 0 10000,
   rowRw (okey 0x1100 6) 1 .b 1 0 1, rowRw (okey 0x1100 7) 1 .b 1 0 1,
   rowRw (okey 0x1100 8) 2 .l 500 100 5000, rowRo (okey 0x1100 9) 4]
def objLowB : List (Nat × Obj) :=
  [rowRo (okey 0x1100 10) 4, rowRo (okey 0x1100 11) 4, rowWo (okey 0x1200 1) 1 .act 1 2,
   rowRo (okey 0x1200 2) 1, rowRo (okey 0x1200 3) 1, rowRo (okey 0x1201 1) 256,
   rowRw (okey 0x1210 1) 1 .b 0 0 1, rowRo (okey 0x1210 2) 1, rowRo (okey 0x1210 3) 1,
   rowRo (okey 0x1210 4) 4, rowRo (okey 0x1210 5) 4, rowRw (okey 0x1210 6) 4 .l 0 0 0xFFFFF000,
   rowWo (okey 0x1210 7) 4096 .act 0 0, rowWo (okey 0x1210 8) 1 .act 1 2, rowRo (okey 0x1210 9) 1,
   rowRw (okey 0x1220 1) 4 .act 0 0 0xFFFFFF]
def objLowC : List (Nat × Obj) :=
  [rowWo (okey 0x1220 2) 1 .act 0 191, rowWo (okey 0x1220 3) 1 .act 0 1,
   rowWo (okey 0x1220 4) 1 .act 0xA5 0xA5, rowWo (okey 0x1220 5) 1 .act 0xA5 0xA5, rowRo (okey 0x1220 6) 1]
def objLow : List (Nat × Obj) := objLowA ++ objLowB ++ objLowC

/-- Slice count, groups, owner, operations, clocks, domains, Palette, Mordant, Sinopia. -/
def objMidA : List (Nat × Obj) :=
  [rowRw (okey 0x2001 1) 2 .b 1 0 0xFFFF, rowRw (okey 0x2002 1) 1 .b 0 0 3, rowRw (okey 0x2003 1) 1 .b 0 0 1,
   rowRw (okey 0x2004 1) 1 .l 1 0 1, rowRo (okey 0x2004 2) 4, rowWo (okey 0x2005 1) 1 .act 0xA5 0xA5,
   rowWo (okey 0x2005 2) 1 .act 0xA5 0xA5, rowRo (okey 0x2005 3) 1, rowRw (okey 0x2020 1) 2 .l 50 10 10000,
   rowWo (okey 0x2030 1) 64 .act 0 0, rowRo (okey 0x2030 2) 32, rowWo (okey 0x2101 1) 1 .act 2 3,
   rowRo (okey 0x2101 2) 1, rowRw (okey 0x2101 3) 1 .l 0x3F 0 0x3F, rowRo (okey 0x2101 4) 1,
   rowRw (okey 0x2101 5) 2 .l 100 20 1000]
def objMidB : List (Nat × Obj) :=
  [rowRw (okey 0x2110 1) 2 .l 100 1 10000, rowRw (okey 0x2110 2) 2 .l 100 1 10000,
   rowRo (okey 0x2160 1) 2, rowRo (okey 0x2160 2) 2, rowRo (okey 0x2160 3) 2, rowConst (okey 0x2200 1) 1 4, rowRo (okey 0x2200 2) 1, rowRo (okey 0x2200 3) 4,
   rowRw (okey 0x2240 1) 1 .b 75 10 90, rowRw (okey 0x2300 1) 2 .b 1000 100 10000, rowRo (okey 0x2300 2) 4,
   rowRo (okey 0x2300 3) 4, rowRo (okey 0x2300 4) 4, rowRo (okey 0x2310 1) 1, rowRo (okey 0x2310 2) 1,
   rowRo (okey 0x2310 3) 1, rowRo (okey 0x2310 4) 4, rowRo (okey 0x2310 5) 4, rowRo (okey 0x2310 6) 4]
def objMidC : List (Nat × Obj) :=
  [rowRo (okey 0x2310 7) 2, rowRw (okey 0x5000 1) 2 .l 0 0 0xFFFF, rowRw (okey 0x5000 2) 1 .l 0 0 50,
   rowRw (okey 0x5000 3) 1 .l 50 10 100, rowRw (okey 0x5000 4) 2 .l 1000 0 60000, rowRo (okey 0x5000 0x10) 4,
   rowRo (okey 0x5000 0x11) 4, rowRo (okey 0x5000 0x12) 4, rowRo (okey 0x5000 0x13) 4,
   rowRo (okey 0x5000 0x14) 1, rowRo (okey 0x6000 1) 32, rowWo (okey 0x6000 2) 2 .act 0 0x100,
   rowRo (okey 0x6000 3) 4, rowRo (okey 0x6001 1) 4096, rowWo (okey 0x6001 2) 1 .l 0 1,
   rowRw (okey 0x7020 1) 4 .l 1000 10 1000000]
def objMidD : List (Nat × Obj) :=
  [rowRo (okey 0x7020 2) 4, rowWo (okey 0x7120 1) 1 .act 0 0xFF, rowRo (okey 0x7120 2) 1,
   rowRo (okey 0x7120 3) 1, rowRo (okey 0x7120 4) 1, rowRw (okey 0x7130 1) 1 .b 0 0 1,
   rowRw (okey 0x7130 2) 1 .l 0 0 0x0F, rowRo (okey 0x7130 3) 1, rowWo (okey 0x7130 4) 1 .act 0 1,
   rowRo (okey 0x7130 5) 4]
def objMid : List (Nat × Obj) := objMidA ++ objMidB ++ objMidC ++ objMidD

/-- Per-port objects 0x3000 + p (R43, R184, R194, R332, R392) and 0x3100 + p (R333, R349). -/
def objPortA : List (Nat × Obj) :=
  [rowRo 0x01 1, rowRo 0x02 1, rowRo 0x03 1, rowRo 0x04 1, rowRo 0x05 1,
   rowRw 0x10 1 .l 0 0 127, rowRw 0x11 1 .l 0 0 254, rowRw 0x12 1 .l 1 0 1, rowRo 0x20 4,
   rowRo 0x21 4, rowRo 0x22 4, rowRo 0x23 4, rowRo 0x24 4, rowRo 0x25 4, rowWo 0x26 1 .l 0 1,
   rowRo 0x30 1]
def objPortB : List (Nat × Obj) :=
  [rowRo 0x31 1, rowRo 0x32 1, rowRo 0x33 1, rowRo 0x34 1, rowRo 0x35 4, rowRo 0x36 2,
   rowRo 0x37 2, rowRo 0x38 1, rowRo 0x39 4, rowRo 0x3A 4, rowRo 0x3B 4, rowRo 0x3C 4,
   rowRo 0x3D 44, rowRo 0x40 4, rowRo 0x41 4, rowWo 0x42 1 .l 0 1]
def objPort : List (Nat × Obj) := objPortA ++ objPortB

def objPolicyA : List (Nat × Obj) :=
  [rowRw 0x01 1 .q 0 0 1, rowRw 0x02 1 .l 2 0 2, rowRw 0x03 1 .q 1 0 1, rowRw 0x04 1 .l 0x0F 0 0x0F,
   rowRw 0x05 1 .l 3 0 3, rowRw 0x06 1 .l 0 0 0x0F, rowRw 0x07 1 .l 1 0 3, rowRw 0x08 1 .l 1 0 1,
   rowRw 0x09 2 .l 5000 5000 20000, rowRw 0x0A 2 .l 3000 100 5000, rowRw 0x0B 1 .l 0x1F 0 0x1F,
   rowWo 0x0C 1 .l 1 2, rowRw 0x20 4 .l 100000 2500 240000, rowRw 0x21 4 .l 2500 2500 240000,
   rowRw 0x22 1 .l 4 0 7, rowRo 0x23 4]
def objPolicyB : List (Nat × Obj) :=
  [rowRo 0x24 4, rowRo 0x25 4, rowRo 0x26 2]
def objPolicy : List (Nat × Obj) := objPolicyA ++ objPolicyB

/-- Port groups 0x3200 + g (R347), slices 0x4000 + n (R37, R238, R265, R298), causes 0x6100 + c (R420). -/
def objPgroup : List (Nat × Obj) :=
  [rowRo 1 1, rowRw 2 1 .act 0 0 1, rowRo 3 1, rowRo 4 4, rowRo 5 1, rowRo 6 4,
   rowRw 7 2 .l 2000 500 60000, rowWo 8 1 .l 0 0xFF]

def objSlice : List (Nat × Obj) :=
  [rowRo 0x01 1, rowRo 0x02 4, rowRo 0x03 1, rowRo 0x04 1, rowRw 0x10 1 .q 0 0 2,
   rowRw 0x11 1 .l 0xFF 0 0xFF, rowRo 0x12 1, rowRo 0x13 1, rowRo 0x14 1, rowRo 0x20 256,
   rowRo 0x30 1, rowRo 0x31 1, rowRo 0x32 2]

def objCause (c sub : Nat) : Option Obj :=
  if causeExists c then
    match sub with
    | 1 => some (.ofConst 0 0)
    | 2 => some (.ofConst 1 (Config.causeSeverity c))
    | 3 => some (.ofRw 1 .l (Config.routeDefault (Config.causeSeverity c)) 0 3)
    | 4 => some (.ofRo 4)
    | 5 => some (.ofRo 4)
    | 6 => some (.ofRo 2)
    | _ => none
  else none

/-- Host groups 0x2010 + g (R24). -/
def objGroup (g sub : Nat) : Option Obj :=
  match sub with
  | 1 => some (.ofRw 1 .q g 0 0xFF)
  | 2 => some (.ofRw 1 .q 0xFF 0 0xFF)
  | 3 => some (.ofRo 1)
  | 4 => some (.ofRw 2 .l 1000 10 60000)
  | _ => none

/-- Domains (R432), integrity (R397), cores (R376). -/
def objUnit (idx sub : Nat) : Option Obj :=
  if 0x2120 ≤ idx && idx < 0x2138 then
    (match sub with | 1 => some (.ofRw 1 .act 0 0 2) | 2 => some (.ofRo 1) | _ => none)
  else if 0x2140 ≤ idx && idx < 0x2144 then
    (match sub with | 1 => some (.ofRw 1 .act 0 0 2) | 2 => some (.ofRo 1) | _ => none)
  else if 0x2150 ≤ idx && idx < 0x2152 then
    (match sub with | 1 => some (.ofRw 2 .act 0 0 0xFFFF) | 2 => some (.ofRo 2) | _ => none)
  else if 0x7000 ≤ idx && idx < 0x7002 then
    (if 1 ≤ sub && sub ≤ 5 then some (.ofRo 4) else none)
  else if 0x7010 ≤ idx && idx < 0x7018 then
    (match sub with | 1 => some (.ofRo 4) | 2 => some (.ofRo 4) | 3 => some (.ofRo 2) | 4 => some (.ofRo 4) | _ => none)
  else if 0x7100 ≤ idx && idx < 0x7102 then
    (match sub with | 1 => some (.ofRo 2) | 2 => some (.ofRo 2) | 3 => some (.ofRo 4) | _ => none)
  else if 0x7110 ≤ idx && idx < 0x711C then
    (match sub with | 1 => some (.ofRo 1) | 2 => some (.ofRo 4) | 3 => some (.ofRo 4) | 4 => some (.ofRo 4) | _ => none)
  else if (idx = 0x2201 || idx = 0x2202) && 1 ≤ sub && sub ≤ 7 then
    (if idx = 0x2201 then some (.ofConst 4 (Config.capacity sub)) else some (.ofRo 4))
  else none

/-- Highest subindex of an index, 0 where the index does not exist (R398); S is the slice count in effect. -/
def hiSub (S idx : Nat) : Nat :=
  if idx = 0x1000 then 7 else if idx = 0x1100 then 0x0B else if idx = 0x1200 then 3 else if idx = 0x1201 then 1
  else if idx = 0x1210 then 9 else if idx = 0x1220 then 6 else if 0x2001 ≤ idx && idx ≤ 0x2003 then 1
  else if idx = 0x2004 then 2 else if idx = 0x2005 then 3 else if 0x2010 ≤ idx && idx ≤ 0x2013 then 4
  else if idx = 0x2020 then 1 else if idx = 0x2030 then 2 else if idx = 0x2101 then 5 else if idx = 0x2110 then 2
  else if 0x2120 ≤ idx && idx < 0x2138 then 2 else if 0x2140 ≤ idx && idx < 0x2144 then 2
  else if 0x2150 ≤ idx && idx < 0x2152 then 2 else if idx = 0x2160 then 3 else if idx = 0x2200 then 3 else if idx = 0x2201 || idx = 0x2202 then 7
  else if idx = 0x2240 then 1 else if idx = 0x2300 then 4 else if idx = 0x2310 then 7
  else if 0x3000 ≤ idx && idx < 0x30C0 then 0x42 else if 0x3100 ≤ idx && idx < 0x31C0 then 0x26
  else if 0x3200 ≤ idx && idx < 0x3218 then 8 else if 0x4000 ≤ idx && idx < 0x4000 + S then 0x32
  else if idx = 0x5000 then 0x14 else if idx = 0x6000 then 3 else if idx = 0x6001 then 2
  else if 0x6100 ≤ idx && idx < 0x6200 then (if causeExists (idx - 0x6100) then 6 else 0)
  else if 0x7000 ≤ idx && idx < 0x7002 then 5 else if 0x7010 ≤ idx && idx < 0x7018 then 4 else if idx = 0x7020 then 2
  else if 0x7100 ≤ idx && idx < 0x7102 then 3 else if 0x7110 ≤ idx && idx < 0x711C then 4
  else if idx = 0x7120 then 4 else if idx = 0x7130 then 5 else 0

/-- The row of an object of the device; those of the builder are the image's (Config.builderObj, R374). -/
def objInfo (S idx sub : Nat) : Option Obj :=
  if sub = 0 then (if hiSub S idx = 0 then none else some (.ofConst 1 (hiSub S idx)))
  else if 0x3000 ≤ idx && idx < 0x30C0 then objIn objPort sub
  else if 0x3100 ≤ idx && idx < 0x31C0 then objIn objPolicy sub
  else if 0x3200 ≤ idx && idx < 0x3218 then objIn objPgroup sub
  else if 0x4000 ≤ idx && idx < 0x4000 + S then objIn objSlice sub
  else if 0x6100 ≤ idx && idx < 0x6200 then objCause (idx - 0x6100) sub
  else if 0x2010 ≤ idx && idx ≤ 0x2013 then objGroup (idx - 0x2010) sub
  else match objIn objLow (okey idx sub) with
    | some o => some o
    | none => match objIn objMid (okey idx sub) with
      | some o => some o
      | none => objUnit idx sub

/-- Default of an object's value. -/
def objDflt (idx sub : Nat) : Nat := (objInfo 192 idx sub).elim 0 (fun o => o.dflt)

/-- Check 5 of R401: the value lies in the object's stated range or set; cur answers the values of other objects. -/
def objRange (o : Obj) (idx sub v : Nat) (cur : Nat → Nat → Nat) : Bool :=
  o.lo ≤ v && v ≤ o.hi &&
  if idx = 0x1100 && sub = 3 then [125, 250, 500, 1000].contains v && (cur 0x1100 4 == 0 || v ≤ cur 0x1100 4)
  else if idx = 0x1100 && sub = 4 then v == 0 || ([1000, 2000, 4000, 5000, 8000].contains v && cur 0x1100 3 ≤ v)
  else if idx = 0x1100 && sub = 5 then v == 0 || 10 ≤ v
  else if idx = 0x1210 && sub = 6 then v % 4096 == 0
  else if idx = 0x2001 then Config.sliceCounts.contains v
  else if idx = 0x7120 && sub = 1 then v ≤ 11 || v == 0x80
  else if 0x2010 ≤ idx && idx ≤ 0x2013 && (sub = 1 || sub = 2) then v ≤ 3 || v == 0xFF
  else if 0x4000 ≤ idx && idx < 0x40C0 && sub = 0x11 then v ≤ 3 || v == 0xFF
  else if 0x2140 ≤ idx && idx < 0x2144 && sub = 1 then v != 1
  else if 0x3100 ≤ idx && idx < 0x31C0 && sub = 0x21 then v ≤ cur idx 0x20
  else true

end Sys2Proof.Machine
end

