-- ==== Sys2Proof/Machine/State.lean ====
section
/-! DEFINITION. The state of the H192: every register, queue, buffer, counter, mode and pin that the manual gives the
part, as plain data, and State.reset, the part while its power-on cold start is completing (R443). -/
namespace Sys2Proof.Machine

/-- A table keyed by number, keys rising; a key that is not listed holds the default its reader names. -/
abbrev Tab (α : Type) := List (Nat × α)

/-- Byte memory: mailbox buffers and flash partitions (R415, R446). Canonical form: Memory.wf in Ops. -/
abbrev Mem := List Host.Cell

/-! ### What leaves the part -/

/-- Tokens and packets of the buses (R154 to R181). -/
inductive Tok where
  | sof (frame : Nat) | keepAlive | itp (counter delay : Nat)
  | setup (bytes : List Byte) | inTok (len : Nat) | outTok (pid : DPid) (bytes : List Byte) | ack | ping | lpm (besl : Nat)
  | ssplit (pid : DPid) (bytes : List Byte) | csplit | grant (packets seq : Nat) (retry : Bool) | ssOut (seq : Nat) (bytes : List Byte)
  | setAddress (addr : Nat)
deriving DecidableEq, Repr

/-- Signalling of a bus (R186, R187, R196 to R202). -/
inductive Sig where
  | se0 | kDrive | eop | hotReset | warmReset | lgoU1 | lgoU2 | lgoU3 | lau | lxu | exitLfps | probe
deriving DecidableEq, Repr

/-- Everything the part puts on its links and pins, as one log. -/
inductive Output where
  | memWrite (f : FuncId) (pasid : Dword) (addr : Nat) (bytes : List Byte) (relaxed : Bool)
  | memRead (f : FuncId) (pasid : Dword) (addr len : Nat) (r : ReadRef)
  | token (p : PortId) (b : Bus) (h ep : Nat) (t : Tok)
  | signal (p : PortId) (b : Bus) (g : Sig)
  | pd (p : PortId) (so : Sop) (id : Nat) (m : PdMsg)
  | goodCrc (p : PortId) (so : Sop) (id : Nat)
  | hardReset (p : PortId)
  /-- the PPE enters BIST Carrier Mode, or BIST Test Data (R308) -/
  | bist (p : PortId) (carrier : Bool)
  | psl (g : GroupId) (frame : Dword)
  | stopN (g : GroupId) (low : Bool)
  | can (l : LinkId) (func : Nat) (bytes : List Byte)
  | answer (p : Path) (code reason : Nat) (data : List Byte)
  | regRead (f : FuncId) (v : Qword)
  | sinopiaCtrl (src : HalfId) (m : CtrlMsg)
  | sinopiaSync (src : HalfId) (mf : BitVec 64)
  | sinopiaFence (src : HalfId) (n : Nat)
  | sinopiaData (src : HalfId) (f : FuncId) (addr : Nat) (bytes : List Byte)
  | sinopiaTrain (src : HalfId)
  | wakeN (low : Bool)
  | flashWrite (part offset : Nat) (bytes : List Byte)
  | linkPower (u : FuncId) (on : Bool)
  | task (c : CoreId) (window : List Dword)
  | csr (c : CoreId) (v : Dword)
  | sram (c : CoreId) (bytes : List Byte)
  | replay (src : HalfId)
  | watchRp (p : PortId)
deriving DecidableEq, Repr

/-! ### Completions and queues (03) -/

/-- A completion entry before its PHASE is known (R80, R60). -/
structure Comp where
  dws : List Dword
  irq : Bool := false
  /-- the link of its transfer or result, for a completion that carries data (R224) -/
  link : Option Nat := none
  /-- the order in which completions of a slice became due (R275, R292) -/
  seq : Nat := 0
  /-- of a deferred operation: held until thaw (R274) -/
  defer : Bool := false
  /-- of a port operation: the port whose event is written first (R192) -/
  port : Option Nat := none
  /-- the half whose engines made it due: it crosses Sinopia to a queue of the other half (R233) -/
  src : Option Nat := none
  /-- of STOP_ENDPOINT: the handle and endpoint that it stopped, which takes no doorbell before it is written (R100) -/
  stops : Option (Nat × Nat) := none
deriving DecidableEq, Repr

/-- R63, Q_STATUS.STATE. -/
inductive QSt where
  | disabled | active | draining | error | stopped
deriving DecidableEq, Repr

/-- A work entry on chip (R66, R67): its index, its words, and while it executes, where it stands. -/
structure WEnt where
  idx : Dword
  dws : List Dword
  pushed : Bool := false
  /-- tag of its result writes (R240) -/
  uid : Nat := 0
  /-- what an executing entry waits for: 0 nothing yet, 1 a host structure, 2 the bus, 3 its completion or commit -/
  phase : Nat := 0
  /-- what the opcode keeps while it executes (an address, a mask, flags) -/
  aux : Nat := 0
  /-- the link that carries its result area (R86, R224) -/
  link : Option Nat := none
deriving DecidableEq, Repr

/-- The class L fields of a work queue (R61). -/
structure WqL where
  enable : Bool := false
  pushEn : Bool := false
  weight : BitVec 4 := 0
  burst : BitVec 6 := 0
deriving DecidableEq, Repr

/-- An error that stops a work queue once its earlier entries have completed (R82, R483): the index it stops at, the
latched code, reason and index, and TAG, INDEX and RESULT0 of its completion. -/
structure QErr where
  at_ : Dword
  code : Nat
  reason : Nat
  errIndex : Dword
  tag : Dword
  index : Dword
  r0 : Dword
deriving DecidableEq, Repr

/-- A work queue (R61 to R73). -/
structure WQ where
  base : Qword := 0
  sh : WqL := {}
  lc : WqL := {}
  resume : Bool := false
  dirty : Bool := false
  sizeLog : Nat := 4
  target : BitVec 12 := 0
  start : Dword := 0
  st : QSt := .disabled
  prev : QSt := .disabled
  cfgRefused : Bool := false
  errCode : Byte := 0
  reason : Byte := 0
  errIndex : Dword := 0
  ci : Dword := 0
  f : Dword := 0
  /-- index of the next entry to start (R67) -/
  s : Dword := 0
  errPend : Option QErr := none
  lastPi : Dword := 0
  lim : Dword := 0
  piOut : Bool := false
  piAgain : Bool := false
  /-- entry reads outstanding: first index and count -/
  rds : List (Dword × Nat) := []
  held : List WEnt := []
  exec : List WEnt := []
  ciDirty : Bool := false
  /-- the link that carried the last CI write (R53) -/
  ciF : Option Nat := none
  turns : Nat := 0
deriving DecidableEq, Repr

/-- The class L fields of a completion queue (R61). -/
structure CqL where
  enable : Bool := false
  vector : BitVec 14 := 0
  modCount : Byte := 0
  modTime : Byte := 0
deriving DecidableEq, Repr

/-- A completion queue (R59 to R63, R74 to R78, R225, R235). -/
structure CQ where
  base : Qword := 0
  sh : CqL := {}
  lc : CqL := {}
  resume : Bool := false
  dirty : Bool := false
  sizeLog : Nat := 4
  start : Dword := 0
  st : QSt := .disabled
  prev : QSt := .disabled
  cfgRefused : Bool := false
  errCode : Byte := 0
  errIndex : Dword := 0
  pi : Dword := 0
  ci : Dword := 0
  armed : Bool := false
  armPend : Bool := false
  cnt : Nat := 0
  modRun : Bool := false
  held : List Comp := []
  lastF : Option Nat := none
  lastAddr : Nat := 0
  /-- 0 no flush read due, 1 due, 2 issued, 3 done: the next write may change link (R225) -/
  flush : Nat := 0
deriving DecidableEq, Repr

/-- A vector table entry and its pending bit (R41). -/
structure Vec where
  addr : Qword := 0
  data : Dword := 0
  mask : Bool := true
  pend : Bool := false
  /-- the completion queues whose message the pending bit stands for -/
  qs : List Nat := []
deriving DecidableEq, Repr

/-! ### Devices, endpoints and rings (04, 05, 06, 08) -/

/-- R88. -/
inductive DevSt where
  | closed | default | addressed | detached
deriving DecidableEq, Repr

/-- R98, EP_STATE. -/
inductive EpSt where
  | disabled | running | halted | stopped | haltedMalformed
deriving DecidableEq, Repr

/-- R91, TYPE. -/
inductive EpType where
  | control | iso | bulk | interrupt
deriving DecidableEq, Repr

/-- The driver-written fields of an endpoint context (R91). -/
structure EpCfg where
  type : EpType := .control
  interval : Nat := 0
  maxBurst : Nat := 0
  mult : Nat := 0
  maxPacket : Nat := 0
  weight : Nat := 0
  burstPkts : Nat := 0
  streams : Bool := false
  esit : Nat := 0
  numStreamsM1 : Nat := 0
  targetCq : Nat := 0
deriving DecidableEq, Repr

/-- A transfer entry that the device holds (R103, R109), with the microframe in which it was held and the Links before it
(R149). -/
structure TEnt where
  addr : Nat
  dws : List Dword
  mf : Nat := 0
  links : Nat := 0
  /-- its read took longer than R147 allows (R149) -/
  slow : Bool := false
deriving DecidableEq, Repr

/-- STREAM_STATE (R176). -/
inductive StrSt where
  | idle | pending | active
deriving DecidableEq, Repr

/-- A ring: DEQUEUE with its cycle, the fetch point with the cycle there, and the window (R106 to R110). -/
structure Ring where
  deq : Nat := 0
  cyc : Bool := false
  fetch : Nat := 0
  fcyc : Bool := false
  /-- the slot after the last entry used, with the cycle there -/
  pos : Nat := 0
  pcyc : Bool := false
  held : List TEnt := []
  rdOut : Bool := false
  rdAgain : Bool := false
  /-- the last read stopped because 8 entries were held (R110) -/
  full : Bool := false
  /-- where validation stands in the transfer being read (R117): at its first entry, what is due, the Setup entry, LENGTH
  so far, Links in a row, and TAG of its first entry -/
  cFirst : Bool := true
  cDue : Nat := 0
  cSetup : List Dword := []
  cSum : Nat := 0
  cLinks : Nat := 0
  cTag : Dword := 0
  /-- a malformed entry ends the ring here: address, REASON, TAG (R118) -/
  bad : Option (Nat × Nat × Dword) := none
  /-- a failed entry read ends the ring here: the address it began at (R485) -/
  failed : Option Nat := none
  /-- the stream's context is on chip (R115) -/
  loaded : Bool := true
  sst : StrSt := .idle
deriving DecidableEq, Repr

/-- A transfer taken from a ring (R109, R118, R119, R215, R217, R220). -/
structure Xfer where
  first : Nat
  cyc0 : Bool := false
  last : Nat
  nextDeq : Nat := 0
  nextCyc : Bool := false
  stream : Nat := 0
  tag : Dword := 0
  suppress : Bool := false
  irq : Bool := false
  started : Bool := true
  isIn : Bool := false
  control : Bool := false
  /-- the SET_ADDRESS transfer of an ASSIGN_ADDRESS (R95): its queue, entry and address -/
  assign : Option (Nat × Dword × Nat) := none
  length : Nat := 0
  /-- more entries of the transfer are to be used (CHAIN; Data or Status of a control transfer) -/
  more : Bool := false
  frags : List (Nat × Nat) := []
  /-- fragment tables of the entry in use (R111), and whether a fragment walker serves the transfer (R486) -/
  tables : Nat := 0
  walks : Bool := false
  /-- prepared ahead: a read for it failed, 0 of its first table and 2 of its data, or its first table breaks R111: 1 -/
  preBad : Option Nat := none
  /-- the code and REASON with which it ends once its later entries are read and passed over (R99, R114, R150, R166) -/
  ending : Option (Nat × Nat) := none
  fragSum : Nat := 0
  fragLen : Nat := 0
  fragDue : Bool := false
  links : Nat := 0
  stage : Nat := 0
  trt : Nat := 0
  setup : List Byte := []
  moved : Nat := 0
  issued : Nat := 0
  /-- IN: received bytes not yet written to the host -/
  buf : List Byte := []
  /-- OUT: bytes read from the host, by stream offset -/
  segs : Tab (List Byte) := []
  /-- OUT: chunks, by stream offset, whose seal mismatched once, and the first one that mismatched twice (R217) -/
  sealBad : List Nat := []
  sealDead : Option Nat := none
  /-- the seal held beside each of its chunks on chip (R216): the CRC so far of an IN chunk, the CRC of an OUT chunk -/
  seals : Tab Dword := []
  short : Bool := false
  swap : Nat := 0
  link : Option Nat := none
  half : Nat := 0
  uid : Nat := 0
  gen : Nat := 0
  walker : Nat := 0
  heldMf : Nat := 0
  late : Bool := false
  serviceMf : Nat := 0
  svcBytes : Nat := 0
  svcTxn : Nat := 0
  /-- PID of the last data packet of a high-bandwidth service: 2, 1 or 0 (R161) -/
  svcPid : Option Nat := none
deriving DecidableEq, Repr

/-- What the PPE keeps per endpoint (R162, R168, R171, R172, R174, R176 to R178). -/
structure EpBus where
  toggle : Bool := false
  seq : Nat := 0
  errors : Nat := 0
  level : Nat := 0
  naks : Nat := 0
  waiting : Bool := false
  ping : Bool := false
  pinging : Bool := false
  parked : Bool := false
  erdySeen : Bool := false
  turns : Nat := 0
  /-- it joined the round in progress: turns 0 means used or forfeited (R162) -/
  inRound : Bool := false
  pkts : Nat := 0
  /-- the packet on the bus is requested with the retry flag (R175) -/
  retry : Bool := false
  /-- OUT packets that the SuperSpeed partner takes next (R173); 1 until it has granted any (DESIGN CHOICE, log entry 68) -/
  granted : Nat := 1
  inFlight : Nat := 0
  csplit : Bool := false
  csLeft : Nat := 0
  ssLeft : Nat := 0
  curStream : Nat := 0
  /-- a transfer of the active stream has ended since it was selected (R177) -/
  strDone : Bool := false
  lastStream : Nat := 0
  erdyQ : List Nat := []
deriving DecidableEq, Repr

/-- An endpoint under a handle (R91, R98, R115, R210, R211). -/
structure Ep where
  st : EpSt := .disabled
  cfg : EpCfg := {}
  errAddr : Nat := 0
  haltCode : Byte := 0
  haltReason : Byte := 0
  /-- with streams: the address of the stream context array (R115) -/
  base : Nat := 0
  /-- device page numbers of the base, lead and added pages (R207, R210) -/
  basePg : List Nat := []
  leadPg : List Nat := []
  addedPg : List Nat := []
  swap : Nat := 0
  rings : Tab Ring := []
  xfer : Option Xfer := none
  /-- transfers of streams left while started (R177) -/
  parkedX : List Xfer := []
  /-- held transfers prepared ahead: OUT data and first fragment tables (R146, R147, R215) -/
  pre : List Xfer := []
  /-- ended IN transfers whose bytes may still lie in the pool until their writes are confirmed (R240): tag and bytes -/
  olds : List (Nat × Nat) := []
  bus : EpBus := {}
  /-- STOP_ENDPOINT, RETIRE_ENDPOINTS or CLOSE_DEVICE acts on it (R98) -/
  stopping : Bool := false
  admitted : Bool := false
  /-- a run of opportunities with no transfer (R121), and opportunities skipped (R78, R247) -/
  runLen : Nat := 0
  runMf : Nat := 0
  /-- an IN opportunity of the run is on the bus: the partner's data is discarded (R121) -/
  runIn : Bool := false
  skipped : Nat := 0
  skipMf : Nat := 0
  skipReason : Nat := 0
  /-- its context is being read again (R92) -/
  reload : Bool := false
  /-- its modified context was lost: the one in host memory counts (R381) -/
  lost : Bool := false
  /-- microframe of the commit that admitted it (R129) -/
  since : Nat := 0
  /-- a service is on the bus -/
  service : Bool := false
deriving DecidableEq, Repr

/-- A device handle: the header of R90 with its state (R88); port is the physical port. -/
structure Handle where
  st : DevSt := .closed
  speed : Nat := 0
  addr : Nat := 0
  route : Nat := 0
  port : Nat := 0
  hub : Nat := 0
  ttPort : Nat := 0
  multiTt : Bool := false
  isHub : Bool := false
  hubMultiTt : Bool := false
  ttThink : Nat := 0
  hubPorts : Nat := 0
  besl : Nat := 0
  beslValid : Bool := false
  ep0Mps : Nat := 0
  ctxAddr : Nat := 0
  eps : Tab Ep := []
deriving DecidableEq, Repr

/-- A record of the plan of a port (R128, R152); ssMask and csMask as there, frame-relative. -/
structure PlanRec where
  h : Nat
  ep : Nat
  ss : Bool := false
  iso : Bool := false
  isIn : Bool := false
  split : Bool := false
  interval : Nat := 0
  speed : Nat := 0
  offset : Nat := 0
  txnM1 : Nat := 0
  ssMask : Nat := 0
  csMask : Nat := 0
  cost : Nat := 0
  /-- SuperSpeed: cost in the other direction (R131) -/
  back : Nat := 0
  ttStart : Nat := 0
  ttEnd : Nat := 0
  ttCost : Nat := 0
  esit : Nat := 0
  mps : Nat := 0
  lead : Nat := 0
  ttHub : Nat := 0
  ttIndex : Nat := 0
  multiTt : Bool := false
  crossing : Bool := false
  contingent : Bool := false
deriving DecidableEq, Repr

/-- One thing that the plan has a port's bus do in microframe t: a complete-split of record r, or its service or start-split. -/
structure PerItem where
  t : Nat
  r : PlanRec
  cs : Bool := false
deriving DecidableEq, Repr

/-- A Fresco command that waits for its plan commit (R129, R145): entry, handle, port, records and contexts to add,
endpoints to remove, pages reserved. -/
structure Commit where
  wq : Nat
  idx : Dword
  h : Nat
  port : Nat
  mask : Nat := 0
  add : List PlanRec := []
  ctx : List (Nat × List Dword) := []
  del : List Nat := []
  pages : Nat := 0
  /-- lead pages taken so far, while the rest waits for a bank (R209) -/
  got : List Nat := []
  close : Bool := false
  /-- Fresco has evaluated it: it waits for the next microframe boundary -/
  ready : Bool := false
deriving DecidableEq, Repr

/-- A carve that waits for a Wash or a bank (R209, R213): entry, endpoint, pages; base: the page of OPEN_DEVICE. -/
structure CarveWait where
  wq : Nat
  idx : Dword
  h : Nat
  ep : Nat
  pages : Nat
  opening : Bool
  /-- pages taken so far, while the rest waits for a bank (R209) -/
  got : List Nat := []
deriving DecidableEq, Repr

/-! ### Slices (02, 09, 10, 11) -/

/-- R267. -/
inductive SliceSt where
  | free | active | quiescing | quiesceStalled | quiesced | frozen | fencing | quiescedFenced | resetting | removing
deriving DecidableEq, Repr

/-- A write that the device keeps until it is confirmed (R239, R240). -/
structure HWrite where
  id : Nat
  f : Nat
  addr : Nat
  bytes : List Byte
  /-- the half whose engine issued it; it crossed Sinopia when the function lies on the other -/
  half : Nat := 0
  /-- the transfer or work entry that it belongs to, 0 for completions, CI writes and messages -/
  tag : Nat := 0
  data : Bool := false
  /-- its link is lost and it waits for the new path (R246) -/
  wait : Bool := false
deriving DecidableEq, Repr

/-- A read that the slice has outstanding (R481); mark: the writes before it that its return confirms (R239). -/
structure HRead where
  r : ReadRef
  f : Nat
  addr : Nat
  len : Nat
  mark : Nat
  half : Nat := 0
  /-- stream offset of a data read (R219); index of the first entry of a work entry read (R66) -/
  off : Nat := 0
  /-- the transfer of a data read (R224) -/
  tag : Nat := 0
  /-- what it was read for has ended: its return confirms writes and has no other effect -/
  dead : Bool := false
  /-- microframe counter of the half at its issue (R147) -/
  mf : Nat := 0
deriving DecidableEq, Repr

/-- A completion that waits for its data writes to be confirmed (R240). -/
structure Due where
  cq : Nat
  comp : Comp
  tag : Nat
  /-- periodic: past this microframe counter of the half the code becomes Late (R149) -/
  limit : Option (Nat × Nat) := none
  /-- handle and endpoint of completions that go first (R100, R197) -/
  after : List (Nat × Nat) := []
  /-- SUPPRESS meets Success: written only where the write of its result area fails (R79, R484) -/
  mute : Bool := false
deriving DecidableEq, Repr

/-- Palette's record of one resource of one slice (R255, R258, R265): the counter and the far arbiter's credit. -/
structure Pal where
  counter : Int := 0
  far : Int := 0
  debtIn : Nat := 0
  consumed : Nat := 0
  consumedLast : Nat := 0
  exhausted : Dword := 0
  /-- the counter was charged to 0 or below in this period -/
  reached : Bool := false
  lent : Nat := 0
  lentLast : Nat := 0
deriving DecidableEq, Repr

/-- A slice (R37, R51 to R55, R61, R89, R238, R267 to R276). -/
structure Slice where
  st : SliceSt := .free
  group : Nat := 0xFF
  pasid : Dword := 0xFFFFFFFF
  half : Nat := 0xFF
  op : Option Path := none
  opCode : Nat := 0
  opTag : Dword := 0
  lastCode : Byte := 0
  stall : Nat := 0
  deferred : Nat := 0
  wasFenced : Bool := false
  afterReset : Bool := false
  imported : Bool := false
  /-- links chosen when the quiesce was accepted, plus 1; 0 where none was (R290) -/
  qPath : Nat := 0
  /-- entries that were deferred operations at step 2 of the quiesce (R274) -/
  deferOps : List (Nat × Dword) := []
  idxBase : Tab Qword := []
  dbIgnored : Dword := 0
  pushFallback : Dword := 0
  qNum : BitVec 12 := 0
  qKind : Bool := false
  wqs : Tab WQ := []
  cqs : Tab CQ := []
  vecs : Tab Vec := []
  lastWq : Nat := 0
deriving DecidableEq, Repr

/-- What the engines hold for a slice: handles, Canvas count, host traffic, pending events, Palette (R210 to R265). -/
structure SliceEng where
  handles : Tab Handle := []
  carved : Nat := 0
  reserved : Nat := 0
  washing : Nat := 0
  unconf : List HWrite := []
  wseq : Nat := 0
  useq : Nat := 0
  /-- completions that became due so far -/
  cseq : Nat := 0
  reads : List HRead := []
  due : List Due := []
  evBits : Nat := 0
  evPending : Bool := false
  /-- the slice event's place among the completions due (R78) -/
  evSeq : Nat := 0
  portsChanged : Bool := false
  gained : List Nat := []
  linkInUse : Nat := 0xFF
  lost : List Nat := []
  waitReads : List HRead := []
  pal : Tab Pal := []
  /-- contexts on chip, least recently used first: handle and index, 0 the header (R93) -/
  cached : List (Nat × Nat) := []
  commits : List Commit := []
  carves : List CarveWait := []
  slotsUsed : Nat := 0
  heldReports : Nat := 0
deriving DecidableEq, Repr

/-! ### Functions and host groups (02) -/

/-- R26. -/
inductive HgSt where
  | single | unproven | pending | proven | failed
deriving DecidableEq, Repr

/-- A host group's handshake (R26 to R28); lost: members that carry no traffic until the group is Proven (R27). -/
structure HostGroup where
  st : HgSt := .single
  cause : Nat := 0
  startPort : BitVec 2 := 0
  nonce : Option Qword := none
  lost : List Nat := []
deriving DecidableEq, Repr

/-- An upstream function (R20 to R23, R26, R40, R41, R218, R432, R445). -/
structure Func where
  evtEn : Bool := false
  evtEnSh : Bool := false
  hgBuf : Qword := 0
  hgBufSh : Qword := 0
  start : Bool := false
  cancel : Bool := false
  retLo : Dword := 0
  restarted : Bool := true
  groupState : Bool := false
  sliceEvt : BitVec 192 := 0
  vecs : Tab Vec := []
  msixEn : Bool := false
  msixMask : Bool := false
  linkUp : Bool := false
  perstHigh : Bool := true
  mps : Nat := 128
  mrrs : Nat := 512
  relaxed : Bool := true
  upReq : Nat := 0
  upState : Nat := 0
  upPath : Option Path := none
deriving DecidableEq, Repr

/-! ### Ports (06, 07, 12, 13) -/

/-- USB2_STATE (R185). -/
inductive Usb2St where
  | detached | disconnected | connected | resetting | enabled | l1 | suspended | resuming | disabled
deriving DecidableEq, Repr

/-- SS_STATE (R185). -/
inductive SsSt where
  | detached | rxDetect | polling | u0 | u1 | u2 | u3 | recovery | resetting | inactive | disabled
deriving DecidableEq, Repr

/-- A port operation in progress (R195): its opcode, its slice and entry, and what it still waits for. -/
structure PortOp where
  opcode : Nat
  slice : Nat
  wq : Nat
  idx : Dword
  waitUsb2 : Bool := false
  waitSs : Bool := false
  /-- the buses that it acts on -/
  onUsb2 : Bool := false
  onSs : Bool := false
  flags : Nat := 0
  /-- WARM of PORT_RESET -/
  warm : Bool := false
  offTime : Nat := 0
deriving DecidableEq, Repr

/-- The two buses of a port and the port's events (R185 to R206). -/
structure PortBus where
  usb2 : Usb2St := .detached
  ss : SsSt := .detached
  usb2Speed : Nat := 0
  ssSpeed : Nat := 0
  lowSpeed : Bool := false
  debounce : Bool := false
  probes : Nat := 0
  trainFails : Nat := 0
  u3Fails : Nat := 0
  recUsb2 : Bool := false
  recSs : Bool := false
  suspending : Bool := false
  lgoU3 : Bool := false
  /-- LGO_U3, the LPM token with its BESL, and a PORT_RESET on each bus wait for the transaction in progress (R197 to R199) -/
  lgoDue : Bool := false
  lpmDue : Option Nat := none
  rst2 : Bool := false
  rstS : Bool := false
  l1Exit : Bool := false
  lpm : Bool := false
  wakeFirst : Bool := false
  kWithin1ms : Bool := false
  /-- the running PORT_RESUME is superseded (R201) -/
  wakeLate : Bool := false
  /-- the partner began the U3 exit in progress (R202) -/
  ssWake : Bool := false
  rebus : Bool := false
  /-- a reset of the USB 2.0 bus that no command asked for runs: by a start or a fence (R277, R443) -/
  ownReset : Bool := false
  /-- a start resets the SuperSpeed bus, which was Inactive (R443) -/
  startReset : Bool := false
  /-- what the plan of the microframe still has to issue, in order (R156), and the service in progress on each bus -/
  agenda : List PerItem := []
  per2 : Option (Nat × Nat) := none
  /-- bus time of the microframe or frame that is gone, in the USB 2.0 bus's bit times, and bytes of it in each SuperSpeed direction
  (R154, R155, R158) -/
  time2 : Nat := 0
  timeDn : Nat := 0
  timeUp : Nat := 0
  perSs : Option (Nat × Nat) := none
  op : Option PortOp := none
  resetRequired : Bool := false
  lastCause : Nat := 0
  evBits : Nat := 0
  evCause : Nat := 0
  evPending : Bool := false
  /-- the event's place among the completions due (R78) -/
  evSeq : Nat := 0
  evDetach : Bool := false
  evPgOff : Bool := false
  funcIntf : Byte := 0
  evMf : Nat := 0
  lastEp : Nat × Nat := (0, 0)
  lastEpSs : Nat × Nat := (0, 0)
deriving DecidableEq, Repr

/-- Bus counters of R184. -/
structure BusCnt where
  txnErrors : Dword := 0
  ttFailures : Dword := 0
  babble : Dword := 0
  strayErdy : Dword := 0
  missed : Dword := 0
  naks : Dword := 0
deriving DecidableEq, Repr

/-- TYPEC_STATE (R301). -/
inductive TcSt where
  | disabled | errorRecovery | unattachedSrc | unattachedSnk | attachWaitSrc | attachWaitSnk | trySrc | tryWaitSnk
  | trySnk | tryWaitSrc | attachedSrc | attachedSnk | audioAccessory | debugAccessorySrc
deriving DecidableEq, Repr

/-- The attach side of a port (R300 to R306, R313, R326, R343, R387, R462). Times are in cycles of the Gesso clock. -/
structure TypeC where
  st : TcSt := .disabled
  cc1 : CcTerm := .opened
  cc2 : CcTerm := .opened
  orientation : Nat := 0
  vbusMv : Nat := 0
  /-- VBUS above 4.0 V continuously since VDD_CC rose -/
  vbusSinceCc : Bool := false
  dataPath : Bool := false
  busesOut : Bool := false
  raSeen : Bool := false
  /-- the CC condition of the state held for its debounce time -/
  debounced : Bool := false
  /-- tDRPTry elapsed in Try.SNK -/
  tdrpTry : Bool := false
  /-- detached, and waiting for vSafe0V before Unattached.SNK -/
  waitSafe0V : Bool := false
  faultHold : Bool := false
  retryHold : Bool := false
  offTimeHold : Bool := false
  /-- a discharge that the device commanded runs, since when -/
  discharging : Option Nat := none
  /-- CLEAR_FAULT is due at vSafe0V -/
  clearDue : Bool := false
  faultAt : List Nat := []
  outSamples : Nat := 0
  ppeHeld : Bool := false
  ppeFailAt : List Nat := []
  ppeRestart : Bool := false
deriving DecidableEq, Repr

/-- The step of a power role swap (R321). -/
inductive SwapSt where
  | none | asked | toSinkWaitTransition | toSinkDischarge | toSinkWaitPsRdy | toSourceWaitPsRdy | toSourceRamp | toSourceSent
deriving DecidableEq, Repr

/-- Hard_Reset recovery (R324). -/
inductive HrSt where
  | none | signalling | waitOff | discharge | recover | restore | sinkWait
deriving DecidableEq, Repr

/-- The answer that the port waits for (R306 to R329). -/
inductive PdExp where
  | none | request | answer | psRdy | swapAnswer | softAccept | sinkCaps | status | vconnPsRdy
deriving DecidableEq, Repr

/-- What an Accept of the port, on its way, accepts. -/
inductive PdAcc where
  | none | request | swap | vconn
deriving DecidableEq, Repr

/-- A message that the PPE transmits on one SOP* (R308). -/
structure PdTx where
  so : Sop
  msg : PdMsg
  id : Nat
  retries : Nat := 0
deriving DecidableEq, Repr

/-- A PD_REQUEST in progress, or a ROLE_REQ of the manager (R328, R329, R333). -/
structure PdReq where
  action : Nat
  slice : Nat := 0
  wq : Nat := 0
  idx : Dword := 0
  mv : Nat := 0
  ma : Nat := 0
  begun : Bool := false
  /-- the message was sent again after a Wait -/
  repeated : Bool := false
  byManager : Bool := false
deriving DecidableEq, Repr

/-- The PD side of a port (R306 to R332). -/
structure Pd where
  /-- 0 no PD, 1 PD 2.0, 2 PD 3.x -/
  partnerRev : Nat := 0
  rdo : Dword := 0
  mv : Nat := 0
  ma : Nat := 0
  obj : Nat := 0
  prog : Bool := false
  contract : Bool := false
  epr : Bool := false
  vconn : Bool := false
  sinkTxNg : Bool := false
  cableAnswered : Bool := false
  cable5A : Bool := false
  cableEpr : Bool := false
  cableActive : Bool := false
  idAttempts : Nat := 0
  idDone : Bool := false
  sop2Asked : Bool := false
  capsSent : Nat := 0
  capsDue : Bool := false
  /-- new capabilities are to be sent (R319) -/
  capsPend : Bool := false
  /-- Get_Sink_Cap after the first contract is due (R350) -/
  needDue : Bool := false
  pdOff : Bool := false
  hrCount : Nat := 0
  need : Option Nat := none
  hardResets : Dword := 0
  softResets : Dword := 0
  txFailed : Dword := 0
  transDetaches : Dword := 0
  /-- LAST_CAPS: the last capabilities of a source, sent or received (R332) -/
  lastCaps : List Pdo := []
  /-- the capabilities that a Request of this attachment refers to: sent as source, received as sink -/
  offer : List Pdo := []
  /-- the last Source_Capabilities and Sink_Capabilities sent on this attachment (R312) -/
  sentCaps : List Pdo := []
  sentSink : List Pdo := []
  sliceLimit : Nat := 0
  /-- the choice of the last SINK_REQUEST (R320) -/
  sinkReq : Option (Nat × Nat) := none
deriving DecidableEq, Repr

/-- The PD protocol engine of a port: counters, the message on the wire, and the sequences (R308 to R326). -/
structure PdSeq where
  txId : Tab Nat := []
  rxId : Tab Nat := []
  tx : Option PdTx := none
  queued : List (Sop × PdMsg) := []
  /-- received messages that wait for the policy or the PPE's own answer, at most 4 (R312, R365) -/
  pendAns : List PdMsg := []
  /-- the first message of a sequence that waits for tSinkTx or SinkTxOk (R310, R311) -/
  wait : Option PdMsg := none
  expect : PdExp := .none
  accFor : PdAcc := .none
  req : Option PdReq := none
  swap : SwapSt := .none
  hr : HrSt := .none
  trans : Bool := false
  transLo : Nat := 0
  transHi : Nat := 0
  newRdo : Option Rdo := none
  newMv : Nat := 0
  newMa : Nat := 0
  ramping : Bool := false
  /-- a Request or PR_Swap answered Wait is repeated after tSinkRequest -/
  again : Option PdMsg := none
  chunks : Nat := 0
deriving DecidableEq, Repr

/-- The port's stage as the controller knows it (R338 to R352). samples: VBUS times current at the last polls, mW. -/
structure Stage where
  ident : BitVec 16 := 0
  present : Bool := false
  lost : Bool := false
  fails : Nat := 0
  sourceOn : Bool := false
  sinkOn : Bool := false
  setMv : Nat := 0
  ilimMa : Nat := 0
  vconnCc : Nat := 0
  flags : Byte := 0
  curMa : Nat := 0
  samples : List Nat := []
  alloc : Nat := 0
  demand : Nat := 0
  oldAlloc : Nat := 0
  lowered : Bool := false
  incAt : Option Nat := none
deriving DecidableEq, Repr

/-- A port (R43, and the sub-records above); power-on retention of outage counts (R392). -/
structure Port where
  owner : Nat := 0xFF
  bus : PortBus := {}
  cnt : BusCnt := {}
  tc : TypeC := {}
  pd : Pd := {}
  seq : PdSeq := {}
  stage : Stage := {}
  plan : List PlanRec := []
  /-- endpoints whose records leave the plan at the next boundary after a detach or a reset (R129, R145) -/
  planDel : List (Nat × Nat) := []
  epoch2 : Dword := 0
  outageMs : Dword := 0
  outageEvents : Dword := 0
  /-- since when a counted outage of the port runs, in cycles of the Gesso clock (R389, R392) -/
  outageFrom : Option Nat := none
  fenceWait : Bool := false
deriving DecidableEq, Repr

/-- A port group (R345 to R347, R432, R433). -/
structure PGroup where
  req : Nat := 0
  st : Nat := 0
  path : Option Path := none
  stop : Bool := false
  stopLow : Bool := true
  pslFailures : Dword := 0
  alerts : Dword := 0
  rot : Nat := 0
  /-- command frames for the Stage Link, the one on the wire first -/
  frames : List Dword := []
deriving DecidableEq, Repr

/-! ### Halves: timebase, Canvas, generators, Sinopia senders, Easel (08, 09, 10, 14, 15) -/

/-- An item under Wash (R229): its slice and its device page; 9216 stands for context cache entries and plan slots. -/
structure WashItem where
  slice : Nat
  page : Nat
deriving DecidableEq, Repr

/-- A task descriptor on the lists, with its slot, generation and order (R357, R358). -/
structure Task where
  dws : List Dword
  slot : Nat
  gen : Nat
  due : Nat := 0
  wedged : Nat := 0
deriving DecidableEq, Repr

/-- The dispatcher of a half (R357 to R365). -/
structure Easel where
  ready : List Task := []
  delay : List Task := []
  tick : Nat := 0
  /-- generation of each slot's next task -/
  gens : Tab Nat := []
  peak : Nat := 0
  heldEvents : Dword := 0
deriving DecidableEq, Repr

/-- A half (R11, R128, R207, R230, R377 to R380, R486). -/
structure Half where
  mf : BitVec 64 := 0
  bankOn : BitVec 16 := 0xFFFF
  bankReq : BitVec 16 := 0
  /-- pages in a pool or under Wash, by device page number (R207) -/
  used : List Nat := []
  bankWait : List Nat := []
  wash : List WashItem := []
  genOut : BitVec 32 := 0
  genFenced : BitVec 32 := 0
  /-- Fresco is fenced (R379) -/
  frescoOut : Bool := false
  genLoad : Tab Nat := []
  /-- fences of each unit within the last 600 s, in cycles of the Gesso clock (R380) -/
  fences : Tab (List Nat) := []
  restarting : Bool := false
  inReset : Bool := false
  clockLost : Bool := false
  residueRetries : Dword := 0
  unitFences : Dword := 0
  sealMismatch : Dword := 0
  restarts : Dword := 0
  /-- failures of its warm restart within the last 600 s (R388) -/
  failAt : List Nat := []
  tj : BitVec 16 := 0
  /-- the highest reading since the last cold start (R477) -/
  tjPeak : BitVec 16 := 0
  easel : Easel := {}
  takeFromSync : Bool := false
  lastGrant : Tab Nat := []
  reserve : Tab Int := []
deriving DecidableEq, Repr

/-- The Sinopia link (R241 to R248). -/
structure Sinopia where
  up : Bool := false
  /-- a start trains the link (R388, R443) -/
  training : Bool := true
  sparesA : Nat := 0
  sparesB : Nat := 0
  crcErrors : Dword := 0
  replays : Dword := 0
  downCount : Dword := 0
  syncOffset : BitVec 16 := 0
  /-- the mirror of each slice's links that the instance which does not decide holds, as QPATH codes (R231) -/
  mirror : Tab Nat := []
  holdRunning : Bool := false
  pathChanges : Dword := 0
  reissued : Dword := 0
  flushFailures : Dword := 0
  reserveExhausted : Dword := 0
deriving DecidableEq, Repr

/-- A Limner core (R354, R361, R366 to R376). -/
structure Core where
  st : Nat := 0
  restarts : Dword := 0
  tasks : Dword := 0
  version : Dword := 0
  cur : Option Task := none
  /-- TASK_WINDOW: the last 32 bytes of the data memory (R354, R357) -/
  window : List Dword := List.replicate 8 0
  taking : Bool := false
  /-- wedges of a builder core, in cycles of the Gesso clock (R375) -/
  wedgeAt : List Nat := []
  /-- a builder core's dictionary access that waits for the server: index, subindex, write, value; and DICT_WAIT blocks (R372) -/
  dictReq : Option (Nat × Nat × Bool × List Byte) := none
  dictBlocked : Bool := false
  dictStatus : Nat := 0
  dictValue : List Byte := []
  updating : Bool := false
deriving DecidableEq, Repr

/-! ### Management, Gesso and starts (15, 16, 17) -/

/-- The object dictionary's stored values (R5 to R8, R426): shadow or stored, in use, uncommitted, journal, saved. -/
structure Dict where
  shadow : Tab Nat := []
  inUse : Tab Nat := []
  dirty : List Nat := []
  /-- written since the last SAVE or RESTORE; jold: written before the one in progress, next: what it stores (R406, R425) -/
  journal : Tab Nat := []
  jold : Tab Nat := []
  next : Tab Nat := []
  saved : Tab Nat := []
deriving DecidableEq, Repr

/-- A segmented transfer on a CAN link (R409, R410). -/
structure Seg where
  isWrite : Bool
  txn : Byte
  index : BitVec 16
  sub : Byte
  total : Nat
  next : Nat
  data : List Byte
  /-- the writer was the owner when the transfer began (R405) -/
  owned : Bool := true
deriving DecidableEq, Repr

/-- A CAN link (R404, R409 to R411, R418, R422): transfers, the request that awaits its answer, the last frame taken and
the last response, requests that wait for the dictionary server, the event frame queue and the causes it missed, and
frames held through a bus-off. -/
structure CanLink where
  busOff : Bool := false
  seg : Option Seg := none
  mini : Option Seg := none
  cur : Option HFrame := none
  lastFrame : Option (Nat × HFrame) := none
  lastResp : List Byte := []
  lastMini : Option (Nat × HFrame) := none
  lastMiniResp : List Byte := []
  /-- command, frame, and what an import reads -/
  waiting : List (Nat × HFrame × List Dword) := []
  evQueue : List (List Byte) := []
  overflow : List Nat := []
  held : List (Nat × List Byte) := []
deriving DecidableEq, Repr

/-- The admin window mailbox (R415). -/
structure Mbox where
  busy : Bool := false
  done : Bool := false
  overrun : Bool := false
  op : Byte := 0
  seq : Byte := 0
  index : BitVec 16 := 0
  sub : Byte := 0
  length : BitVec 16 := 0
  code : Byte := 0
  reason : Byte := 0
  rseq : Byte := 0
  rlength : BitVec 16 := 0
  /-- a request that waits for the dictionary server (R365): OP, INDEX, SUBINDEX, its data, and what an import reads -/
  held : Option (Nat × Nat × Nat × List Byte × List Dword) := none
deriving DecidableEq, Repr

/-- Event causes: counts, last seconds, last instance; the pending set (R420 to R423). -/
structure Events where
  count : Tab Dword := []
  seconds : Tab Dword := []
  inst : Tab (BitVec 16) := []
  /-- slice and half of the last event -/
  who : Tab (Nat × Nat) := []
  pending : BitVec 256 := 0
  lost : Dword := 0
deriving DecidableEq, Repr

/-- A start record (R451). -/
structure StartRec where
  type : Nat
  trigger : Nat
  partition : Bool
  fallback : Bool
  sChanged : Bool
  calRedone : Bool
  result : Nat
  seconds : Dword
  us : Dword
  subst : Nat
  fw : Dword
deriving DecidableEq, Repr

/-- A fault record (R395). -/
structure FaultRec where
  valid : Bool := false
  severity : Nat := 0
  cause : Nat := 0
  unit : Nat := 0
  half : Bool := false
  seq : Dword := 0
  seconds : Dword := 0
  sub : Nat := 0
  inst : BitVec 16 := 0
  slice : Byte := 0xFF
  code : Byte := 0
  mf : Dword := 0
  /-- names its DETAIL (Config.faultDetail) -/
  key : Nat := 0
  /-- the first word of DETAIL where a rule states it: fault flags, a count, a builder's data (R343, R372, R396) -/
  detail : Option Dword := none
deriving DecidableEq, Repr

/-- The Gesso domain (R385, R395, R417, R425, R429, R438 to R451, R458, R467, R478, R482). -/
structure Gesso where
  vdd : Bool := true
  vsrv : Bool := false
  clock : Bool := true
  loop : Bool := true
  seconds : Dword := 0
  subsec : BitVec 15 := 0
  level : Nat := 0
  lastWake : Nat := 0xFF
  /-- when the wake in progress arose, in cycles of the Gesso clock (R441) -/
  wakeAt : Nat := 0
  waking : Bool := false
  wakeLow : Bool := false
  railsGood : Bool := true
  resetN : Bool := true
  forceSafeN : Bool := true
  refclk : Bool := true
  nodeId : BitVec 7 := 127
  nodeSource : Nat := 0
  straps : BitVec 7 := 127
  votes : Dword := 0
  locked : Bool := false
  thermalWait : Bool := false
  failedStarts : Nat := 0
  calValid : Bool := true
  coldStarts : Dword := 0
  warmStarts : Dword := 0
  frNext : Nat := 0
  frTotal : Dword := 0
  frFatal : Option FaultRec := none
  fr : Tab FaultRec := []
  records : List StartRec := []
deriving DecidableEq, Repr

/-- The start in progress and what the last one left (R442 to R451). -/
structure StartSt where
  st : Nat := 1
  type : Nat := 1
  trigger : Nat := 1
  since : Dword := 0
  deviceReady : Bool := false
  part : Nat := 0
  tryFirst : Option Nat := none
  retryDue : Bool := false
  /-- the half whose warm restart runs (R388) -/
  half : Option HalfId := none
  /-- the trigger in cycles of the Gesso clock -/
  at_ : Nat := 0
  /-- a cold start with this trigger waits for its conditions (R450, R478); 0 none -/
  waitTrigger : Nat := 0
  sCount : Nat := 1
  exportSeq : Dword := 0
  fwVersion : Dword := 0
deriving DecidableEq, Repr

/-- Boot flash partitions and staging (R446). -/
structure Flash where
  stA : Nat := 0
  stB : Nat := 0
  verA : Dword := 0
  verB : Dword := 0
  /-- minimum compatible version of the staged image (R367) -/
  minVersion : Dword := 0
  stage : Nat := 0
  save : Nat := 0
  saving : Option (Bool × Path) := none
deriving DecidableEq, Repr

/-- Live update and the builder (R367 to R376). -/
structure Update where
  st : Nat := 0
  core : Nat := 0xFF
  code : Byte := 0
  queue : List Nat := []
  path : Option Path := none
  bState : Nat := 0
  bVersion : Dword := 0
  /-- a write forwarded to the builder: who asked, index and subindex, value (R374) -/
  fwd : Option (Path × Nat × Nat × List Byte) := none
deriving DecidableEq, Repr

/-- Who waits for a fence (R277, R280, R414, R417, R418): a manager operation with its block's ALL, SLICE and TAG, a write of
FENCE_SLICE or FENCE_ALL, or a frame to the minimal responder; and the slices whose fence it waits for. -/
inductive FenceWho where
  | op (p : Path) (all : Bool) (n : Nat) (tag : Dword)
  | obj (p : Path)
  | mini (l : Nat) (fr : HFrame)
deriving DecidableEq, Repr
structure FenceReq where
  who : FenceWho
  left : List Nat
deriving DecidableEq, Repr

/-- System power and integrity arrays (R348, R353, R397); last result of a manager operation (R414). -/
structure Sys where
  alertLow : Bool := false
  alertHold : Bool := false
  alertCount : Dword := 0
  floorOver : Bool := false
  budget : Nat := 0
  corrected : Tab Dword := []
  uncorrectable : Tab Dword := []
  repaired : Tab (BitVec 16) := []
  lastScrub : Tab Dword := []
  /-- per array: start of the 24 h window in Gesso seconds and corrected errors in it; seconds of the last record (R396, R397) -/
  ceWindow : Tab (Nat × Nat) := []
  ceRecord : Tab Nat := []
  /-- per array: corrected errors since that record -/
  ceCount : Tab Nat := []
  /-- per array: the word that the patrol scrub read last -/
  scrubAt : Tab Nat := []
  /-- per word: the bit that was bad on the last passes in a row, and their number (R382) -/
  scrub : Tab (Nat × Nat) := []
  opResult : List Dword := []
  ownerChanges : Dword := 0
  errorsA : Dword := 0
  errorsB : Dword := 0
  busOff : Dword := 0
  fenceReqs : List FenceReq := []
deriving DecidableEq, Repr

/-- Why the part stops. -/
inductive Fault where
  /-- Raised by no command: the manual gives every command an effect or an answer. Safe. -/
  | unreachable
deriving DecidableEq, Repr

/-- Why a command has no meaning. -/
inductive Refusal where
  /-- A row of the table whose meaning is not written. Safe. -/
  | notModelled (mnemonic : String)
deriving DecidableEq, Repr

/-- Addressed buffers and flash: mailbox REQ_DATA and RESP_DATA (R415), boot flash partitions A and B (R446). -/
structure Memory where
  req : Mem := []
  resp : Mem := []
  flashA : Mem := []
  flashB : Mem := []
deriving DecidableEq, Repr

/-- What a command does to the addressed buffers, applied after it (Ops, State.on). -/
inductive MemOp where
  | resp (off : Nat) (bytes : List Byte)
  | req (off : Nat) (bytes : List Byte)
  | flash (part off : Nat) (bytes : List Byte)
  | erase (part : Nat)
  | clearMailbox
deriving DecidableEq, Repr

/-- The part itself: registers, buffers, counters, modes and pins. -/
structure Dev where
  /-- what the part has put on its links and pins, newest first (the model's own log) -/
  out : List Output := []
  /-- counter of free values (the model's own) -/
  freeCtr : Nat := 0
  /-- memory operations of the command that runs; empty between commands -/
  memOps : List MemOp := []
  dict : Dict := {}
  funcs : Tab Func := []
  groups : Tab HostGroup := []
  slices : Tab Slice := []
  engs : Tab SliceEng := []
  ports : Tab Port := []
  pgs : Tab PGroup := []
  halves : Tab Half := []
  sinopia : Sinopia := {}
  cores : Tab Core := []
  cans : Tab CanLink := []
  mbox : Mbox := {}
  events : Events := {}
  gesso : Gesso := {}
  start : StartSt := {}
  flash : Flash := {}
  update : Update := {}
  sys : Sys := {}
deriving DecidableEq, Repr

/-- The state of the block: the commands that wait, first in first out, the part and its memories. -/
structure State where
  pending : List Instr := []
  dev : Dev := {}
  mem : Memory := {}
deriving DecidableEq, Repr

/-- The part in its power-on cold start (trigger 1), every field at the Reset or Default value of its table, just
before the start reaches ports ready (R443): START_STATE 1, DEVICE_READY 0, DEVICE_RESTARTED 1, no slice, no port owned.
Log entry 2 names the values the manual does not give. -/
def State.reset : State := {}

end Sys2Proof.Machine
end

