-- ==== Sys2Proof/Machine/Ops.lean ====
section
/-! DEFINITION. The named operations over the state: tables, byte memory, accessors, dictionary values, outputs, events
and the fault record, function messages, and answers to management requests. Every meaning goes through these. -/
namespace Sys2Proof.Machine

/-- The outcome of a command. -/
abbrev Outc := Host.Outcome State Fault Refusal

/-! ### Tables and byte memory -/

/-- The value listed at key q. -/
def tabFind {α : Type} : Tab α → Nat → Option α
  | [], _ => none
  | (k, v) :: r, q => if k = q then some v else tabFind r q

/-- Set key q. -/
def tabPut {α : Type} : Tab α → Nat → α → Tab α
  | [], q, x => [(q, x)]
  | (k, v) :: r, q, x =>
    if q < k then (q, x) :: (k, v) :: r else if q = k then (q, x) :: r else (k, v) :: tabPut r q x

/-- Drop key q. -/
def tabDel {α : Type} (t : Tab α) (q : Nat) : Tab α := t.filter (fun x => x.1 != q)

/-- The value at key q, or the default. -/
def tabGet {α : Type} (dflt : α) (t : Tab α) (q : Nat) : α := (tabFind t q).getD dflt

/-- Change every listed value. -/
def tabMap {α : Type} (f : Nat → α → α) (t : Tab α) : Tab α := t.map (fun x => (x.1, f x.1 x.2))

/-- A byte that nothing has written reads 0 (R415 for the mailbox; log entry 3 for the flash). -/
def memGet (m : Mem) (a : Nat) : Byte := (tabFind m a).getD 0

/-- Write one byte, keeping the canonical form: a byte 0 is not listed. -/
def memPut (m : Mem) (a : Nat) (b : Byte) : Mem := if b = 0 then tabDel m a else tabPut m a b

def memRead (m : Mem) (a : Nat) : Nat → List Byte
  | 0 => []
  | n + 1 => memGet m a :: memRead m (a + 1) n

def memWrite (m : Mem) (a : Nat) : List Byte → Mem
  | [] => m
  | b :: r => memWrite (memPut m a b) (a + 1) r

/-- Keys strictly rising. -/
def keysRise : List Nat → Bool
  | a :: b :: r => a < b && keysRise (b :: r)
  | _ => true

/-- The canonical form of one byte memory. -/
def memWf (m : Mem) : Bool := keysRise (m.map (fun c => c.1)) && m.all (fun c => c.2 != 0)

/-- The canonical form of all of them. -/
def Memory.wf (m : Memory) : Bool := memWf m.req && memWf m.resp && memWf m.flashA && memWf m.flashB

/-- One memory operation of a command. -/
def Memory.apply (m : Memory) : MemOp → Memory
  | .resp off bs => { m with resp := memWrite m.resp off bs }
  | .req off bs => { m with req := memWrite m.req off bs }
  | .flash part off bs =>
    if part = 0 then { m with flashA := memWrite m.flashA off bs } else { m with flashB := memWrite m.flashB off bs }
  | .erase part => if part = 0 then { m with flashA := [] } else { m with flashB := [] }
  | .clearMailbox => { m with req := [], resp := [] }

/-- Run a meaning on the part, then its memory operations in the order in which it made them. The queue is not touched. -/
def State.on (s : State) (f : Memory → Dev → Dev) : State :=
  let d := f s.mem s.dev
  { s with dev := { d with memOps := [] }, mem := d.memOps.foldl Memory.apply s.mem }

/-- The outcome of a meaning that always completes. -/
def run (f : Dev → Dev) (s : State) : Outc := .next (s.on (fun _ d => f d))

/-- The same, for a meaning that reads the addressed buffers. -/
def runM (f : Memory → Dev → Dev) (s : State) : Outc := .next (s.on f)

/-! ### Accessors -/

def Dev.slice (d : Dev) (n : Nat) : Slice := tabGet {} d.slices n
def Dev.eng (d : Dev) (n : Nat) : SliceEng := tabGet {} d.engs n
def Dev.port (d : Dev) (p : Nat) : Port := tabGet {} d.ports p
def Dev.func (d : Dev) (f : Nat) : Func := tabGet {} d.funcs f
def Dev.group (d : Dev) (g : Nat) : HostGroup := tabGet {} d.groups g
def Dev.pg (d : Dev) (g : Nat) : PGroup := tabGet {} d.pgs g
def Dev.half (d : Dev) (h : Nat) : Half := tabGet {} d.halves h
def Dev.core (d : Dev) (c : Nat) : Core := tabGet {} d.cores c
def Dev.can (d : Dev) (l : Nat) : CanLink := tabGet {} d.cans l

def Dev.modSlice (n : Nat) (g : Slice → Slice) (d : Dev) : Dev := { d with slices := tabPut d.slices n (g (d.slice n)) }
def Dev.modEng (n : Nat) (g : SliceEng → SliceEng) (d : Dev) : Dev := { d with engs := tabPut d.engs n (g (d.eng n)) }
def Dev.modPort (p : Nat) (g : Port → Port) (d : Dev) : Dev := { d with ports := tabPut d.ports p (g (d.port p)) }
def Dev.modFunc (f : Nat) (g : Func → Func) (d : Dev) : Dev := { d with funcs := tabPut d.funcs f (g (d.func f)) }
def Dev.modGroup (k : Nat) (g : HostGroup → HostGroup) (d : Dev) : Dev := { d with groups := tabPut d.groups k (g (d.group k)) }
def Dev.modPg (k : Nat) (g : PGroup → PGroup) (d : Dev) : Dev := { d with pgs := tabPut d.pgs k (g (d.pg k)) }
def Dev.modHalf (h : Nat) (g : Half → Half) (d : Dev) : Dev := { d with halves := tabPut d.halves h (g (d.half h)) }
def Dev.modCore (c : Nat) (g : Core → Core) (d : Dev) : Dev := { d with cores := tabPut d.cores c (g (d.core c)) }
def Dev.modCan (l : Nat) (g : CanLink → CanLink) (d : Dev) : Dev := { d with cans := tabPut d.cans l (g (d.can l)) }

def Dev.modBus (p : Nat) (g : PortBus → PortBus) : Dev → Dev := Dev.modPort p (fun x => { x with bus := g x.bus })
def Dev.modCnt (p : Nat) (g : BusCnt → BusCnt) : Dev → Dev := Dev.modPort p (fun x => { x with cnt := g x.cnt })
def Dev.modTc (p : Nat) (g : TypeC → TypeC) : Dev → Dev := Dev.modPort p (fun x => { x with tc := g x.tc })
def Dev.modPd (p : Nat) (g : Pd → Pd) : Dev → Dev := Dev.modPort p (fun x => { x with pd := g x.pd })
def Dev.modSeq (p : Nat) (g : PdSeq → PdSeq) : Dev → Dev := Dev.modPort p (fun x => { x with seq := g x.seq })
def Dev.modStage (p : Nat) (g : Stage → Stage) : Dev → Dev := Dev.modPort p (fun x => { x with stage := g x.stage })
def Dev.modEasel (h : Nat) (g : Easel → Easel) : Dev → Dev := Dev.modHalf h (fun x => { x with easel := g x.easel })

def Slice.wq (s : Slice) (q : Nat) : WQ := tabGet {} s.wqs q
def Slice.cq (s : Slice) (q : Nat) : CQ := tabGet {} s.cqs q
def Dev.wq (d : Dev) (n q : Nat) : WQ := (d.slice n).wq q
def Dev.cq (d : Dev) (n q : Nat) : CQ := (d.slice n).cq q
def Dev.modWq (n q : Nat) (g : WQ → WQ) : Dev → Dev :=
  Dev.modSlice n (fun x => { x with wqs := tabPut x.wqs q (g (x.wq q)) })
def Dev.modCq (n q : Nat) (g : CQ → CQ) : Dev → Dev :=
  Dev.modSlice n (fun x => { x with cqs := tabPut x.cqs q (g (x.cq q)) })

def Handle.ep (x : Handle) (e : Nat) : Ep := tabGet {} x.eps e
def SliceEng.handle (x : SliceEng) (h : Nat) : Handle := tabGet {} x.handles h
def SliceEng.palOf (x : SliceEng) (r : Nat) : Pal := tabGet {} x.pal r
def Dev.handle (d : Dev) (n h : Nat) : Handle := (d.eng n).handle h
def Dev.ep (d : Dev) (n h e : Nat) : Ep := (d.handle n h).ep e
def Ep.ring (x : Ep) (st : Nat) : Ring := tabGet {} x.rings st
def Dev.ring (d : Dev) (n h e st : Nat) : Ring := (d.ep n h e).ring st
def Dev.pal (d : Dev) (n r : Nat) : Pal := (d.eng n).palOf r

def Dev.modHandle (n h : Nat) (g : Handle → Handle) : Dev → Dev :=
  Dev.modEng n (fun x => { x with handles := tabPut x.handles h (g (x.handle h)) })
def Dev.modEp (n h e : Nat) (g : Ep → Ep) : Dev → Dev :=
  Dev.modHandle n h (fun x => { x with eps := tabPut x.eps e (g (x.ep e)) })
def Dev.modRing (n h e st : Nat) (g : Ring → Ring) : Dev → Dev :=
  Dev.modEp n h e (fun x => { x with rings := tabPut x.rings st (g (x.ring st)) })
def Dev.modXfer (n h e : Nat) (g : Xfer → Xfer) : Dev → Dev := Dev.modEp n h e (fun x => { x with xfer := x.xfer.map g })
def Dev.modEpBus (n h e : Nat) (g : EpBus → EpBus) : Dev → Dev := Dev.modEp n h e (fun x => { x with bus := g x.bus })
def Dev.modPal (n r : Nat) (g : Pal → Pal) : Dev → Dev :=
  Dev.modEng n (fun x => { x with pal := tabPut x.pal r (g (x.palOf r)) })

/-- Apply a change for each element of a list, in order. -/
def forEach {α : Type} (l : List α) (f : α → Dev → Dev) (d : Dev) : Dev := l.foldl (fun d a => f a d) d

/-- Apply a change where a condition holds. -/
def doIf (c : Bool) (f : Dev → Dev) (d : Dev) : Dev := if c then f d else d

/-- A unit by its number. -/
def toFunc (v : Nat) : FuncId := ⟨v % 4, Nat.mod_lt _ (by decide)⟩
def toHalf (v : Nat) : HalfId := ⟨v % 2, Nat.mod_lt _ (by decide)⟩
def toPort (v : Nat) : PortId := ⟨v % 192, Nat.mod_lt _ (by decide)⟩
def toSlice (v : Nat) : SliceId := ⟨v % 192, Nat.mod_lt _ (by decide)⟩
def toPg (v : Nat) : GroupId := ⟨v % 24, Nat.mod_lt _ (by decide)⟩
def toLink (v : Nat) : LinkId := ⟨v % 2, Nat.mod_lt _ (by decide)⟩
def toCore (v : Nat) : CoreId := ⟨v % 12, Nat.mod_lt _ (by decide)⟩

/-- Put something on a link or pin. -/
def emit (o : Output) (d : Dev) : Dev := { d with out := o :: d.out }

/-- The slice count in effect (R29, R30). -/
def Dev.S (d : Dev) : Nat := d.start.sCount

/-- The slices that exist. -/
def Dev.sliceNums (d : Dev) : List Nat := List.range d.S
/-- All ports, groups, functions by number. -/
def allPorts : List Nat := List.range 192
def allGroups : List Nat := List.range 24

/-! ### Dictionary values (R5 to R8) -/

/-- The value in use. -/
def Dev.cfg (d : Dev) (idx sub : Nat) : Nat := tabGet (objDflt idx sub) d.dict.inUse (okey idx sub)
/-- The value that a read returns: the shadow of L, the stored value of B, the value of Q (R6, R8). -/
def Dev.stored (d : Dev) (idx sub : Nat) : Nat := tabGet (objDflt idx sub) d.dict.shadow (okey idx sub)

/-- The device sets a field: shadow and committed value together, and the journal; an uncommitted write is discarded (R6). -/
def setObj (idx sub v : Nat) (d : Dev) : Dev :=
  { d with dict := { d.dict with
      shadow := tabPut d.dict.shadow (okey idx sub) v, inUse := tabPut d.dict.inUse (okey idx sub) v,
      journal := tabPut d.dict.journal (okey idx sub) v,
      dirty := d.dict.dirty.filter (fun k => k != okey idx sub) } }

/-- A write that passed its checks reaches the store of its class, and the journal before its answer (R5 to R8, R426). -/
def storeObj (c : Cls) (idx sub v : Nat) (d : Dev) : Dev :=
  let k := okey idx sub
  let t := d.dict
  let t := { t with shadow := tabPut t.shadow k v, journal := tabPut t.journal k v }
  { d with dict := match c with
    | .l => { t with dirty := k :: t.dirty.filter (fun x => x != k) }
    | .q => { t with inUse := tabPut t.inUse k v }
    | _ => t }

/-- A write of an RW action object is journalled (R425). -/
def journalPut (idx sub v : Nat) (d : Dev) : Dev :=
  { d with dict := { d.dict with journal := tabPut d.dict.journal (okey idx sub) v } }

/-- The higher of two readings of a temperature sensor (R477). -/
def hotter (a b : BitVec 16) : BitVec 16 := if b.toInt < a.toInt then a else b

/-! ### Who owns what -/

/-- The slice that owns port p, 0xFF for none (R43). -/
def Dev.owner (d : Dev) (p : Nat) : Nat := (d.port p).owner
/-- The ports of slice n in ascending order: local port k is the k-th (R44). -/
def Dev.portsOf (d : Dev) (n : Nat) : List Nat := allPorts.filter (fun p => d.owner p == n)
/-- The physical port of local port lp of slice n. -/
def Dev.physPort (d : Dev) (n lp : Nat) : Option Nat := if lp = 0 then none else (d.portsOf n)[lp - 1]?
/-- The local number of port p at its owner. -/
def Dev.localPort (d : Dev) (p : Nat) : Nat := ((allPorts.take p).filter (fun q => d.owner q == d.owner p)).length + 1

/-- Members of host group g; none where FIRST_PORT names no port (R24). -/
def Dev.members (d : Dev) (g : Nat) : List Nat :=
  if 3 < g || d.cfg (0x2010 + g) 1 = 0xFF then [] else [d.cfg (0x2010 + g) 1, d.cfg (0x2010 + g) 2].filter (fun f => f < 4)
/-- The host group of function f. -/
def Dev.groupOf (d : Dev) (f : Nat) : Option Nat := (List.range 4).find? (fun g => (d.members g).contains f)
def Dev.twoPort (d : Dev) (g : Nat) : Bool := (d.members g).length == 2
/-- The other member of the function's group (R22). -/
def Dev.peer (d : Dev) (f : Nat) : Option Nat :=
  (d.groupOf f).bind (fun g => (d.members g).find? (fun m => m != f))
/-- HG_STATE of group g (R26): Single for a group without a second member. -/
def Dev.hgSt (d : Dev) (g : Nat) : HgSt :=
  if d.twoPort g then (if (d.group g).st = .single then .unproven else (d.group g).st) else .single

/-- HG_STATE encoding (R26). -/
def hgCode : HgSt → Nat
  | .single => 0 | .unproven => 1 | .pending => 2 | .proven => 3 | .failed => 4

/-- A slice is bound while a group is named (R37). -/
def Slice.bound (s : Slice) : Bool := s.group < 4
/-- The functions that show slice n's pages (R38, R40). -/
def Dev.shows (d : Dev) (f n : Nat) : Bool :=
  n < d.S && (d.slice n).bound && (d.slice n).st != .fencing && (d.slice n).st != .quiescedFenced && (d.members (d.slice n).group).contains f

/-- A power-down request of the port's group is pending (R295). -/
def Dev.pgDrain (d : Dev) (p : Nat) : Bool := (d.pg (p / 8)).path.isSome && (d.pg (p / 8)).req == 2
/-- The moment in cycles of the Gesso clock (R429, R482). -/
def Dev.now (d : Dev) : Nat := d.gesso.seconds.toNat * Config.gessoHz + d.gesso.subsec.toNat

/-- A counted outage of port p begins: its data path stops because of the device (R389); it ends: milliseconds rounded up (R392). -/
def outageStart (p : Nat) (d : Dev) : Dev :=
  let now := d.now
  d.modPort p (fun x => if x.tc.dataPath && x.outageFrom.isNone then { x with outageFrom := some now } else x)
def outageEnd (p : Nat) (d : Dev) : Dev :=
  let now := d.now
  d.modPort p (fun x => match x.outageFrom with
    | none => x
    | some t => { x with
        outageFrom := none, outageEvents := x.outageEvents + 1
        outageMs := x.outageMs + BitVec.ofNat 32 (cdiv ((now - t) * 1000) Config.gessoHz) })

/-- Slots of a half's Easel that slice n's tasks hold, and its share (R364). -/
def Task.slice (t : Task) : Nat := bitsOf (t.dws.getD 0 0) 31 24
def Dev.easelTasks (d : Dev) (h : Nat) : List Task :=
  (d.half h).easel.ready ++ (d.half h).easel.delay ++ (List.range 6).filterMap (fun i => (d.core (6 * h + i)).cur)
def Dev.sliceSlots (d : Dev) : Nat := if d.S = 1 then 3072 else 6144 / d.S
def Dev.sliceFull (d : Dev) (n h : Nat) : Bool := d.sliceSlots ≤ ((d.easelTasks h).filter (fun t => t.slice == n)).length

/-- The device class of a half's slots is full: tasks of no slice, not of the reserve (SOURCE 3 and 4), not the builder's. -/
def Task.isDevice (t : Task) : Bool :=
  t.slice == 255 && bitsOf (t.dws.getD 0 0) 23 20 != 5 && bitsOf (t.dws.getD 1 0) 31 24 != 3 && bitsOf (t.dws.getD 1 0) 31 24 != 4
def Dev.deviceFull (d : Dev) (h : Nat) : Bool := 768 ≤ ((d.easelTasks h).filter Task.isDevice).length

/-! ### Events, the pending set and the fault record (R395, R396, R420 to R423) -/

/-- An event to raise. -/
structure Ev where
  c : Nat
  inst : Nat := 0xFFFF
  slice : Nat := 0xFF
  code : Nat := 0
  unit : Nat := 0
  half : Nat := 0
  detail : Option Nat := none

/-- Link l is enabled (R404). -/
def Dev.linkEnabled (d : Dev) (l : Nat) : Bool := d.cfg 0x1100 (6 + l) == 1

/-- Put an event frame in the queue of link l, or count it lost (R422). -/
def queueEventFrame (l c : Nat) (frame : List Byte) (d : Dev) : Dev :=
  if (d.can l).evQueue.length < 32 then d.modCan l (fun x => { x with evQueue := x.evQueue ++ [frame] })
  else
    let d := { d with events := { d.events with lost := d.events.lost + 1 } }
    d.modCan l (fun x => { x with overflow := if x.overflow.contains c then x.overflow else x.overflow ++ [c] })

/-- The 16 bytes of an event frame (R422). -/
def eventFrame (e : Ev) (seconds count : Dword) : List Byte :=
  [BitVec.ofNat 8 e.c, BitVec.ofNat 8 (Config.causeSeverity e.c)] ++ leBytes 2 e.inst ++
  [BitVec.ofNat 8 e.slice, BitVec.ofNat 8 e.half, 0, 0] ++ leBytes 4 seconds.toNat ++ leBytes 4 count.toNat

/-- UNIT of a record whose raiser names none (R395). -/
def causeUnit : Nat → Nat
  | 17 => 7 | 35 => 11 | 36 => 10 | 37 => 10 | 38 => 10 | 39 => 10 | 40 => 8 | 41 => 9 | 42 => 9 | 44 => 14 | 64 => 12 | 65 => 12
  | 66 => 12 | 69 => 1 | 128 => 9 | 129 => 13 | 130 => 13 | 131 => 13 | _ => 0

/-- Write a fault record in slot NEXT (R395, R396). -/
def putRecord (sev : Nat) (e : Ev) (d : Dev) : Dev :=
  let g := d.gesso
  let r : FaultRec := {
    valid := true, severity := sev, cause := e.c, unit := if e.unit = 0 then causeUnit e.c else e.unit, half := e.half == 1, seq := g.frTotal,
    seconds := g.seconds, sub := g.subsec.toNat, inst := BitVec.ofNat 16 e.inst, slice := BitVec.ofNat 8 e.slice,
    code := BitVec.ofNat 8 e.code, mf := BitVec.ofNat 32 (d.half e.half).mf.toNat, key := d.freeCtr, detail := e.detail.map (BitVec.ofNat 32) }
  { d with freeCtr := d.freeCtr + 1, gesso := { g with
      fr := tabPut g.fr g.frNext r, frNext := (g.frNext + 1) % 63, frTotal := g.frTotal + 1,
      frFatal := if sev = 3 && g.frFatal.isNone then some r else g.frFatal } }

/-- Raise an event cause: its counters, the pending set, event frames by ROUTE, and a fault record for severity 1 to 3. -/
def raise (e : Ev) (d : Dev) : Dev :=
  let cnt := tabGet 0 d.events.count e.c + 1
  let ev := d.events
  let d := { d with events := { ev with
      count := tabPut ev.count e.c cnt, seconds := tabPut ev.seconds e.c d.gesso.seconds,
      inst := tabPut ev.inst e.c (BitVec.ofNat 16 e.inst), who := tabPut ev.who e.c (e.slice, e.half), pending := ev.pending ||| (1#256 <<< e.c) } }
  let d := if (d.cfg (0x6100 + e.c) 3) % 2 = 1 then
      forEach [0, 1] (fun l => doIf (d.linkEnabled l) (queueEventFrame l e.c (eventFrame e d.gesso.seconds cnt))) d
    else d
  if Config.causeSeverity e.c = 0 then d else putRecord (Config.causeSeverity e.c) e d

/-- EVENT_N is driven low while a pending cause has ROUTE bit 1 (R423). -/
def Dev.eventNLow (d : Dev) : Bool :=
  (List.range 256).any (fun c => bitOf d.events.pending c && (d.cfg (0x6100 + c) 3) / 2 % 2 == 1)

/-! ### Function messages and the event summary (R22, R23, R40, R41) -/

/-- A message due on vector v of function f's own table: sent, or pending while masked. -/
def fnMessage (f v : Nat) (d : Dev) : Dev :=
  let x := d.func f
  let t := tabGet {} x.vecs v
  if t.mask || !x.msixEn || x.msixMask then
    d.modFunc f (fun x => { x with vecs := tabPut x.vecs v { t with pend := true } })
  else emit (.memWrite (toFunc f) 0xFFFFFFFF t.addr.toNat (leBytes 4 t.data.toNat) false) d

/-- Any event summary bit set while clear sends the message of function vector 0 (FN_EVT_EN, R22). -/
def summaryMessage (f : Nat) (wasClear : Bool) : Dev → Dev := fun d => doIf (wasClear && (d.func f).evtEn) (fnMessage f 0) d

def setRestarted (f : Nat) (d : Dev) : Dev :=
  summaryMessage f (!(d.func f).restarted) (d.modFunc f (fun x => { x with restarted := true }))
def setGroupState (f : Nat) (d : Dev) : Dev :=
  summaryMessage f (!(d.func f).groupState) (d.modFunc f (fun x => { x with groupState := true }))
def setSliceEvt (n f : Nat) (d : Dev) : Dev :=
  summaryMessage f (!(bitOf (d.func f).sliceEvt n)) (d.modFunc f (fun x => { x with sliceEvt := x.sliceEvt ||| (1#192 <<< n) }))

/-- A change of HG_STATE: GROUP_STATE on the members before and after, and event Host group state (R26). -/
def groupChanged (g : Nat) (fs : List Nat) (d : Dev) : Dev :=
  raise { c := 68, inst := g } (forEach fs setGroupState d)

/-- Change HG_STATE of a two-port group (R26). -/
def setHg (g : Nat) (st : HgSt) (cause : Nat) (d : Dev) : Dev :=
  let was := d.hgSt g
  let d := d.modGroup g (fun x => { x with st := st, cause := cause, nonce := if st = .pending then x.nonce else none })
  if was = st then d else groupChanged g (d.members g) d

/-! ### Answers to management requests (R407 to R414, R415) -/

/-- A CAN FD data length that holds n bytes (R407). -/
def canDlc (n : Nat) : Nat :=
  if n ≤ 8 then n else if n ≤ 12 then 12 else if n ≤ 16 then 16 else if n ≤ 20 then 20 else if n ≤ 24 then 24
  else if n ≤ 32 then 32 else if n ≤ 48 then 48 else 64

def padTo (n : Nat) (bs : List Byte) : List Byte := bs ++ List.replicate (n - bs.length) 0

/-- The bytes of a Herob frame (R408). -/
def herobBytes (cmd : Nat) (fr : HFrame) (seq : Nat) (data : List Byte) : List Byte :=
  let bs := [BitVec.ofNat 8 cmd, fr.txn] ++ leBytes 2 fr.index.toNat ++ [fr.sub, BitVec.ofNat 8 data.length] ++
    leBytes 2 seq ++ data
  padTo (canDlc bs.length) bs

/-- Send a frame on link l, or keep it while the link is off the bus (R404). -/
def canSend (l func : Nat) (bytes : List Byte) (d : Dev) : Dev :=
  if (d.can l).busOff then d.modCan l (fun x => { x with held := x.held ++ [(func, bytes)] })
  else emit (.can (toLink l) func bytes) d

/-- Answer the request on link l: WRITE_OK with data, or ABORT with the code (R408, R412). -/
def herobAnswer (l : Nat) (fr : HFrame) (code reason : Nat) (data : List Byte) (d : Dev) : Dev :=
  let bs := if code = 1 then herobBytes 0x21 fr 0 data else herobBytes 0x7F fr 0 (leBytes 4 (code + 256 * reason))
  canSend l 9 bs (d.modCan l (fun x => { x with cur := none, lastResp := bs }))

/-- Complete the mailbox request (R415): the response before DONE. -/
def mboxAnswer (code reason : Nat) (data : List Byte) (d : Dev) : Dev :=
  { d with
    mbox := { d.mbox with
      busy := false, done := true, code := BitVec.ofNat 8 code, reason := BitVec.ofNat 8 reason,
      rlength := BitVec.ofNat 16 data.length }
    memOps := d.memOps ++ [.resp 0 data] }

/-- Answer a management request on the path by which it came. -/
def answer (p : Path) (code reason : Nat) (data : List Byte) (d : Dev) : Dev :=
  match p with
  | .can l => match (d.can l.val).cur with
    | some fr => herobAnswer l.val fr code reason data d
    | none => emit (.answer p code reason data) d
  | .admin => if d.mbox.busy then mboxAnswer code reason data d else emit (.answer p code reason data) d

/-- Completion codes that the management side uses (R123). -/
def cOk : Nat := 0x01
def cNotQuiesced : Nat := 0x15
def cBusy : Nat := 0x16
def cNotPermitted : Nat := 0x18

def accept (p : Path) : Dev → Dev := answer p cOk 0 []
def refuse (p : Path) (code reason : Nat) : Dev → Dev := answer p code reason []

/-- The path belongs to the current owner (R405). -/
def Dev.isOwner (d : Dev) (p : Path) : Bool :=
  match p with
  | .admin => d.cfg 0x2004 1 == 0
  | .can _ => d.cfg 0x2004 1 == 1

/-- A transfer or operation of the path is in progress (R410, R414, R415). -/
def Dev.pathBusy (d : Dev) (p : Path) : Bool :=
  match p with
  | .can l => (d.can l.val).cur.isSome || (d.can l.val).seg.isSome
  | .admin => d.mbox.busy

/-- The dictionary server takes a request: not in a standby level, not while the halves are held in reset, and in Safe hold only the
recovery loader of H0 runs, for the objects that it serves (R434, R449). -/
def served (p : Path) (loader : Bool) (f : Dev → Dev) (d : Dev) : Dev :=
  if d.gesso.level != 0 || (d.start.st = 1 && (d.half 0).inReset) then d
  else if d.start.st = 2 then (if !d.gesso.railsGood then d else if loader then f d else refuse p cNotPermitted 1 d)
  else f d

/-- A request that begins a transfer on a path: one that meets another is aborted Busy, or sets OVERRUN in the mailbox. -/
def entered (p : Path) (loader : Bool) (f : Dev → Dev) (d : Dev) : Dev :=
  if !(d.pathBusy p) then served p loader f d else
  match p with
  | .can _ => emit (.answer p cBusy 3 []) d
  | .admin => { d with mbox := { d.mbox with overrun := true } }

/-- A write of an action field by the owner, with its range checked first (R401); anyone else is refused. -/
def guarded (p : Path) (okValue : Bool) (f : Dev → Dev) : Dev → Dev := entered p false <| fun d =>
  if !(d.isOwner p) then refuse p cNotPermitted 7 d
  else if !okValue then refuse p cNotPermitted 6 d
  else f d

/-! ### Results of manager operations (R413, R414) -/

/-- The 32-byte result of an operation. -/
def opWords (code op n : Nat) (tag : Dword) (r0 r1 r2 : Nat) : List Dword :=
  [BitVec.ofNat 32 (code + 256 * op + 0x10000 * n), tag, BitVec.ofNat 32 r0, BitVec.ofNat 32 r1, BitVec.ofNat 32 (r1 / 2 ^ 32),
   BitVec.ofNat 32 r2, 0, 0]

/-- An operation ends: its result is kept, its code is the slice's LAST_CODE, and its path has the answer. -/
def opDone (p : Path) (op n : Nat) (tag : Dword) (code reason r0 r1 r2 : Nat) (d : Dev) : Dev :=
  let res := opWords code op n tag r0 r1 r2
  let d := { d with sys := { d.sys with opResult := res } }
  let d := if op = 0x4A || op = 0x42 || d.S ≤ n then d else d.modSlice n (fun x => { x with lastCode := BitVec.ofNat 8 code })
  if code = cOk then answer p cOk 0 (dwBytes res) d else answer p code reason [] d

/-- The operation in progress on slice n ends. -/
def opEnd (n code reason r0 r1 r2 : Nat) (d : Dev) : Dev :=
  match (d.slice n).op with
  | none => d
  | some p =>
    let x := d.slice n
    opDone p x.opCode n x.opTag code reason r0 r1 r2 (d.modSlice n (fun x => { x with op := none }))

/-- A slice changes state: SLICE_EVT on the functions of its group, and event Slice state (R22, R23, R268, R421). -/
def setSliceSt (n : Nat) (st : SliceSt) (d : Dev) : Dev :=
  if (d.slice n).st = st then d else
  let d := d.modSlice n (fun x => { x with st := st })
  raise { c := 98, inst := n, slice := n, half := b2n ((d.slice n).half == 1) } (forEach (d.members (d.slice n).group) (setSliceEvt n) d)

/-- Answer a frame of the minimal responder (R418). -/
def miniAnswer (l : Nat) (cmd : Nat) (fr : HFrame) (seq : Nat) (data : List Byte) (d : Dev) : Dev :=
  let bs := herobBytes cmd fr seq data
  canSend l 0xB bs (d.modCan l (fun x => { x with lastMiniResp := bs }))
def miniAbort (l : Nat) (fr : HFrame) (code reason : Nat) : Dev → Dev :=
  miniAnswer l 0x7F fr 0 (leBytes 4 (code + 256 * reason))

/-- The fence that someone waits for has taken effect (R280, R414, R417). -/
def fenceAnswer (w : FenceWho) (d : Dev) : Dev :=
  match w with
  | .op p all n tag => opDone p 0x42 (if all then 0 else n) tag cOk 0 0 0 0 d
  | .obj p => accept p d
  | .mini l fr => miniAnswer l 0x21 fr 0 [] d

/-- The fence of slice n ends: those that wait for no other slice are answered. -/
def fenceAnswers (n : Nat) (d : Dev) : Dev :=
  let rs := d.sys.fenceReqs.map (fun r => { r with left := r.left.filter (fun k => k != n) })
  let d := { d with sys := { d.sys with fenceReqs := rs.filter (fun r => r.left.length != 0) } }
  (rs.filter (fun r => r.left.length == 0)).foldl (fun d r => fenceAnswer r.who d) d

/-- Some fence of the slice was asked for by a manager operation. -/
def Dev.fenceOp (d : Dev) (n : Nat) : Bool :=
  d.sys.fenceReqs.any (fun r => r.left.contains n && (match r.who with | .op _ _ _ _ => true | _ => false))

/-! ### The Gesso clock (R429, R482) -/

/-- One cycle of the Gesso clock while it runs: 32768 of them make a second. What step does on an empty queue. -/
def gessoTick (d : Dev) : Dev :=
  let g := d.gesso
  if !g.clock then d else
  { d with gesso := { g with
      subsec := g.subsec + 1, seconds := if g.subsec.toNat + 1 = Config.gessoHz then g.seconds + 1 else g.seconds } }

end Sys2Proof.Machine
end

