-- ==== Sys2Proof/Machine/Upstream.lean ====
section
/-! DEFINITION. Upstream paths and host requests of a slice: link choice (R234, R235), writes kept until confirmed (R239,
R240), outstanding reads (R481), and reissue on a new path (R246). -/
namespace Sys2Proof.Machine

/-- The half whose engines serve slice n; at S = 1 the half given (R19, R233). -/
def Dev.dataHalf (d : Dev) (n h1 : Nat) : Nat := if d.S = 1 then h1 else (d.slice n).half

/-- Half of the port, for the data of its endpoints. -/
def halfOfPort (p : Nat) : Nat := if p < 96 then 0 else 1
def halfOfFunc (f : Nat) : Nat := if f < 2 then 0 else 1

/-- Key of a Palette record: at S = 1 each resource has one counter on each half (R251). -/
def Dev.palKey (d : Dev) (r h : Nat) : Nat := if d.S = 1 && h = 1 then r + 16 else r

/-- The slice has used up a budget in this period: no request that charges it is granted (R256, R260). -/
def Dev.spent (d : Dev) (n r h : Nat) : Bool := (d.pal n (d.palKey r h)).reached

/-- Function f still carries what was started on it: also while its port drains (R296). -/
def Dev.carriesOld (d : Dev) (n f : Nat) : Bool :=
  (d.func f).linkUp && (d.func f).upState != 3 && !((d.group (d.slice n).group).lost.contains f) && !((d.eng n).lost.contains f)

/-- Function f carries traffic of slice n's group (R27): link up, powered, proof not lapsed on it, not lost for the slice. -/
def Dev.carries (d : Dev) (n f : Nat) : Bool :=
  (d.func f).linkUp && (d.func f).upState == 0 && !((d.group (d.slice n).group).lost.contains f) && !((d.eng n).lost.contains f)

/-- f can be reached from half h: on it, or across Sinopia. -/
def Dev.reach (d : Dev) (h f : Nat) : Bool := halfOfFunc f == h || d.sinopia.up

/-- Candidates in the order of R234: LINK_PIN, the member on the data half, the other member. -/
def Dev.candidates (d : Dev) (n h : Nat) : List Nat :=
  let ms := d.members (d.slice n).group
  ms.filter (fun f => f == d.cfg (0x4000 + n) 0x11) ++ ms.filter (fun f => halfOfFunc f == h) ++ ms

/-- Some write of the slice's engines on half h waits for its new path. -/
def SliceEng.waiting (x : SliceEng) (h : Nat) : Bool := x.unconf.any (fun w => w.wait && w.half == h)

/-- The link Mordant chooses for the slice from half h (R234), ignoring writes that wait. -/
def Dev.pickLink (d : Dev) (n h : Nat) : Option Nat := (d.candidates n h).find? (fun f => d.carries n f && d.reach h f)

/-- The slice issues no request: Frozen, fenced, being reset or removed, or Free (R278, R282, R286). -/
def Slice.quiet (s : Slice) : Bool :=
  match s.st with
  | .active | .quiescing | .quiesceStalled | .quiesced => false
  | _ => true

/-- The link for a new request: none while the slice has no path (R247), older writes wait for reissue (R246), or the slice
may issue none. -/
def Dev.chooseLink (d : Dev) (n h : Nat) : Option Nat :=
  if (d.eng n).waiting h || (d.slice n).quiet then none else d.pickLink n h

/-- One member of a two-port group carries the slice alone (PATH_DEGRADED, R194); a member beyond Sinopia while that link is
down still carries traffic of the group under R27. -/
def Dev.degraded (d : Dev) (n : Nat) : Bool :=
  let ms := d.members (d.slice n).group
  ms.length == 2 && (ms.filter (d.carries n)).length == 1

/-- The slice has no path for what half h serves (R247): decided per half at S = 1. -/
def Dev.noPath (d : Dev) (n h : Nat) : Bool := (d.pickLink n (d.dataHalf n h)).isNone

/-- PATH_STATE (R238). At S = 1 a slice with no path for one half answers 3, and one whose traffic of one half crosses answers 1
(log entry 22). -/
def Dev.pathState (d : Dev) (n : Nat) : Nat :=
  if d.noPath n 0 || d.noPath n 1 then 3 else
  if d.degraded n then 2 else b2n ((if d.S = 1 then [0, 1] else [d.dataHalf n 0]).any (fun h => (d.pickLink n h).any (fun f => halfOfFunc f != h)))

/-- W of R218 for writes and reads of function f. -/
def Dev.wWrite (d : Dev) (f : Nat) : Nat := min (d.func f).mps 512
def Dev.wRead (d : Dev) (f : Nat) : Nat := min (d.func f).mrrs 512

/-- Cut a range at the multiples of w: (address, length) pairs, at most k of them (R218). -/
def cutRange (w : Nat) : Nat → Nat → Nat → List (Nat × Nat)
  | 0, _, _ => []
  | k + 1, a, len =>
    if len = 0 then [] else
    let n := min len (w - a % w)
    (a, n) :: cutRange w k (a + n) (len - n)

def cuts (w a len : Nat) : List (Nat × Nat) := if w = 0 then [] else cutRange w (len + 1) a len

/-- Issue a write on link f and keep it until it is confirmed (R239, R240). -/
def sendWrite (n h f tag addr : Nat) (bytes : List Byte) (data : Bool) (d : Dev) : Dev :=
  let x := d.eng n
  let w : HWrite := { id := x.wseq, f := f, addr := addr, bytes := bytes, half := h, tag := tag, data := data }
  let d := d.modEng n (fun x => { x with unconf := x.unconf ++ [w], wseq := x.wseq + 1 })
  emit (.memWrite (toFunc f) (d.slice n).pasid addr bytes (data && (d.func f).relaxed)) d

/-- The same for the engines of half h: for a link of the other half it travels as a DATA message, in the stream of its upstream
port, and the receiving half issues it (R226). -/
def issueWrite (n h f tag addr : Nat) (bytes : List Byte) (data : Bool) (d : Dev) : Dev :=
  sendWrite n h f tag addr bytes data
    (doIf (halfOfFunc f != h) (emit (.sinopiaData (toHalf h) (toFunc f) addr bytes)) d)

/-- Issue data bytes at an address, cut for the function (R218). -/
def issueData (n h f tag addr : Nat) (bytes : List Byte) (d : Dev) : Dev :=
  (cuts (d.wWrite f) addr bytes.length).foldl
    (fun d c => issueWrite n h f tag c.1 ((bytes.drop (c.1 - addr)).take c.2) true d) d

/-- A write without data attributes from half h on a link; kept for the path where there is none. -/
def writeOn (link : Option Nat) (n h tag addr : Nat) (bytes : List Byte) (d : Dev) : Dev :=
  match link with
  | some f => issueWrite n h f tag addr bytes false d
  | none => d.modEng n (fun x => { x with
      unconf := x.unconf ++ [{ id := x.wseq, f := 0xFF, addr := addr, bytes := bytes, half := h, tag := tag, wait := true }]
      wseq := x.wseq + 1 })

/-- The same on the slice's path. -/
def hostWrite (n h tag addr : Nat) (bytes : List Byte) (d : Dev) : Dev := writeOn (d.chooseLink n h) n h tag addr bytes d

/-- Issue a read on link f (R481); its return confirms the writes before it. -/
def issueRead (n h f addr len off tag : Nat) (r : ReadRef) (d : Dev) : Dev :=
  let d := d.modEng n (fun x => { x with
    reads := x.reads ++ [{ r := r, f := f, addr := addr, len := len, mark := x.wseq, half := h, off := off, tag := tag
                           mf := (d.half h).mf.toNat }] })
  emit (.memRead (toFunc f) (d.slice n).pasid addr len r) d

/-- A read on the slice's path, or one that waits for it (R247), or for the next period where the slice has spent its read
budget (R66, R256). -/
def hostReadOff (n h addr len off tag : Nat) (r : ReadRef) (d : Dev) : Dev :=
  let wait := d.modEng n (fun x => { x with
    waitReads := x.waitReads ++ [{ r := r, f := 0xFF, addr := addr, len := len, mark := 0, half := h, off := off, tag := tag }] })
  if d.spent n 2 h then wait else
  match d.chooseLink n h with
  | some f => issueRead n h f addr len off tag r d
  | none => wait

def hostRead (n h addr len : Nat) (r : ReadRef) : Dev → Dev := hostReadOff n h addr len 0 0 r

/-- The reads that meet p serve nothing any more: those not issued are forgotten, and the return of an issued one still
confirms writes (R239). -/
def cancelWhere (n : Nat) (p : HRead → Bool) : Dev → Dev :=
  Dev.modEng n (fun x => { x with
    reads := x.reads.map (fun r => if p r then { r with dead := true } else r), waitReads := x.waitReads.filter (fun r => !(p r)) })
def cancelReads (n : Nat) (p : ReadRef → Bool) : Dev → Dev := cancelWhere n (fun r => p r.r)

/-- The other reads of one structure have returned with it. -/
def structReads (n : Nat) (p : ReadRef → Bool) : Dev → Dev :=
  Dev.modEng n (fun x => { x with
    reads := x.reads.filter (fun r => !(p r.r)), waitReads := x.waitReads.filter (fun r => !(p r.r)) })

/-- The outstanding read that a completion answers. -/
def Dev.readOut (d : Dev) (n : Nat) (r : ReadRef) : Option HRead := (d.eng n).reads.find? (fun x => x.r == r)

/-- The read returned on its link: writes issued before it there are confirmed (R239). -/
def confirmBy (x : HRead) (n : Nat) : Dev → Dev :=
  Dev.modEng n (fun e => { e with
    reads := e.reads.erase x
    unconf := e.unconf.filter (fun w => w.wait || w.f != x.f || x.mark ≤ w.id) })

/-- A tag has no unconfirmed write (R240) and no data read outstanding (R224); tag 0 waits for nothing. -/
def SliceEng.tagDone (x : SliceEng) (tag : Nat) : Bool :=
  tag == 0 || (!(x.unconf.any (fun w => w.tag == tag)) && !(x.reads.any (fun r => r.tag == tag)))

/-- The read took longer than the 100 µs of R147: it returns at least two microframe boundaries after its issue (DESIGN CHOICE,
log entry 68: the part's own counter is its only measure of the time between two commands). -/
def Dev.slowRead (d : Dev) (x : HRead) : Bool := x.mf + 2 ≤ (d.half x.half).mf.toNat

/-- Draw a tag for a transfer or a work entry. -/
def newTag (n : Nat) (d : Dev) : Nat × Dev :=
  ((d.eng n).useq + 1, d.modEng n (fun x => { x with useq := x.useq + 1 }))

/-- Join neighbouring data writes of one transfer before they are cut again (R246). -/
def joinWrites : List HWrite → List HWrite
  | [] => []
  | w :: r => match joinWrites r with
    | [] => [w]
    | v :: t => if w.data && v.data && w.tag == v.tag && w.half == v.half && w.addr + w.bytes.length == v.addr then
        { w with bytes := w.bytes ++ v.bytes } :: t
      else w :: v :: t

/-- Mark what a lost link carried: unconfirmed writes wait, reads are abandoned and wait (R246, R481). -/
def markLost (n : Nat) (lostW : HWrite → Bool) (lostR : HRead → Bool) : Dev → Dev :=
  Dev.modEng n (fun x => { x with
    unconf := x.unconf.map (fun w => if lostW w then { w with wait := true } else w)
    waitReads := x.waitReads ++ (x.reads.filter lostR).filter (fun r => match r.r with
      | .confirm _ => false | .flush _ => false | _ => !r.dead)
    reads := x.reads.filter (fun r => !lostR r) })

end Sys2Proof.Machine
end

