-- ==== Sys2Proof/Machine/Complete.lean ====
section
/-! DEFINITION. Completion queues: completion entries (R74, R80), held completions (R78), flush reads (R225), moderation and
messages (R41, R42, R76, R77), port events and slice events (R191 to R194). -/
namespace Sys2Proof.Machine

/-- Completion codes (R123). -/
def cShort : Nat := 0x02
def cDataBuffer : Nat := 0x03
def cMalformed : Nat := 0x06
def cPoolEmpty : Nat := 0x08
def cMissed : Nat := 0x0A
def cAborted : Nat := 0x0D
def cDomainOff : Nat := 0x0E
def cIntegrity : Nat := 0x10
def cDetached : Nat := 0x12
def cOverrun : Nat := 0x14

def w32 (v : Nat) : Dword := BitVec.ofNat 32 v

/-- The eight words of a completion, PHASE 0 (R80). -/
def compDws (d0 src kind code d2 d3 : Nat) (d45 : Nat) (d6 : Nat) : List Dword :=
  [w32 d0, w32 (src % 4096 + 0x10000 * kind + 0x1000000 * code), w32 d2, w32 d3, w32 d45, w32 (d45 / 2 ^ 32), w32 d6, 0]

/-- Fill of a completion queue and whether it is full (R57, R59, R78). -/
def CQ.fill (c : CQ) : Nat := (c.pi - c.ci).toNat
def CQ.size (c : CQ) : Nat := 2 ^ c.sizeLog
def CQ.full (c : CQ) : Bool := c.st == .error || c.size ≤ c.fill

/-- The half that serves completion queue q (R233). -/
def Dev.cqHalf (d : Dev) (n q : Nat) : Nat := d.dataHalf n (if q < 1536 then 0 else 1)

/-- The link Mordant names for a completion queue (R235). -/
def Dev.namedLink (d : Dev) (n q : Nat) : Option Nat :=
  let h := d.cqHalf n q
  if (d.slice n).quiet then none else
  match (d.cq n q).lastF with
  | some f => if d.carries n f && d.reach h f then (if (d.eng n).waiting h then none else some f) else d.chooseLink n h
  | none => match (d.members (d.slice n).group).find? (fun f => halfOfFunc f == h && d.carries n f) with
    | some f => if (d.eng n).waiting h then none else some f
    | none => d.chooseLink n h

/-- The link on which a message of completion queue q can be sent now: the one named for it, where its function sends messages
(R41, R42). -/
def Dev.msgLink (d : Dev) (n q : Nat) : Option Nat :=
  (d.namedLink n q).filter (fun f => (d.func f).msixEn && !(d.func f).msixMask)

/-- A message due on vector v of slice n, for completion queue q: sent on the queue's link, or pending (R41, R42). -/
def sliceMessage (n q v : Nat) (d : Dev) : Dev :=
  let t := tabGet {} (d.slice n).vecs v
  match if t.mask then none else d.msgLink n q with
  | none => d.modSlice n (fun x => { x with
      vecs := tabPut x.vecs v { t with pend := true, qs := if t.qs.contains q then t.qs else t.qs ++ [q] } })
  | some f => issueWrite n (d.cqHalf n q) f 0 t.addr.toNat (leBytes 4 t.data.toNat) false d

/-- Send the pending messages of slice n that can now be sent: once, for the first of the queues that they stand for whose link
takes it (R41). -/
def releaseVectors (n : Nat) (d : Dev) : Dev :=
  (d.slice n).vecs.foldl (fun d v =>
    match if v.2.pend && !v.2.mask then v.2.qs.find? (fun q => (d.msgLink n q).isSome) else none with
    | some q => sliceMessage n q v.1 (d.modSlice n (fun x => { x with vecs := tabPut x.vecs v.1 { v.2 with pend := false, qs := [] } }))
    | none => d) d

/-- Send the queue's message and leave it unarmed (R76). -/
def cqMessage (n q : Nat) (d : Dev) : Dev :=
  sliceMessage n q (d.cq n q).lc.vector.toNat
    (d.modCq n q (fun c => { c with armed := false, cnt := 0, modRun := false }))

/-- Write the CI of work queue q to the index block on a link (R53). -/
def writeCiOn (link : Option Nat) (n q : Nat) (d : Dev) : Dev :=
  let w := d.wq n q
  let base := tabGet 0 (d.slice n).idxBase (q / 512)
  writeOn link n (d.cqHalf n q) 0 (base.toNat + 0x800 + 4 * (q % 512)) (leBytes 4 w.ci.toNat)
    (d.modWq n q (fun w => { w with ciDirty := false, ciF := link }))

/-- Write the CI of work queue q on the link named for its completion queue, on which its completions follow (R53, R224). -/
def writeCi (n q : Nat) (d : Dev) : Dev :=
  let h := d.cqHalf n q
  let link := (d.namedLink n (d.wq n q).target.toNat).filter (fun f => d.reach h f && !((d.eng n).waiting h))
  writeCiOn (if link.isSome then link else d.chooseLink n h) n q d

/-- Queue number of the work queue that a KIND 0 completion names. -/
def Comp.wqOf (c : Comp) : Option Nat := if bitsOf (dwAt c.dws 1) 17 16 = 0 then some (bitsOf (dwAt c.dws 1) 11 0) else none

/-- Handle and endpoint that a KIND 1 completion names. -/
def Comp.epOf (c : Comp) : Option (Nat × Nat) :=
  if bitsOf (dwAt c.dws 1) 17 16 = 1 then some (bitsOf (dwAt c.dws 2) 12 0, bitsOf (dwAt c.dws 1) 4 0) else none

/-- The half whose engines make a completion due: of the endpoint's port, or of the work queue (R233). -/
def Dev.compHalf (d : Dev) (n q : Nat) (c : Comp) : Nat :=
  match c.src, c.epOf, c.wqOf with
  | some h, _, _ => h
  | none, some x, _ => d.dataHalf n (halfOfPort (d.handle n x.1).port)
  | none, none, some w => d.cqHalf n w
  | none, none, none => d.cqHalf n q

/-- Count a Missed service completion as written for the port (R184). -/
def countMissed (n : Nat) (c : Comp) (d : Dev) : Dev :=
  match c.epOf with
  | some x => if bitsOf (dwAt c.dws 1) 31 24 = cMissed then
      d.modCnt (d.handle n x.1).port (fun k => { k with missed := k.missed + 1 }) else d
  | none => d

/-- The completion must cross Sinopia to the half that serves its queue (R14, R233). -/
def Dev.compCrosses (d : Dev) (n q : Nat) (c : Comp) : Bool := d.compHalf n q c != d.cqHalf n q

/-- Write one completion to queue q and advance PI (R60, R74), then moderate (R76). One that the other half made due comes as a
CTRL message (R233). The CI write that covers a work entry goes first on the same link (R53). A message that waits for the
queue's link is judged again where that changes (R41). -/
def placeComp (n q f : Nat) (c : Comp) (d : Dev) : Dev :=
  let d := if d.compCrosses n q c then
      emit (.sinopiaCtrl (toHalf (d.compHalf n q c)) (.completion (toSlice n) q c.dws c.irq)) d
    else d
  let d := match c.wqOf with
    | some w => if (d.wq n w).ciDirty || (d.wq n w).ciF != some f then writeCiOn (some f) n w d else d
    | none => d
  let cq := d.cq n q
  let phase := !(bitOf cq.pi cq.sizeLog)
  let dws := c.dws.take 7 ++ [if phase then 0x80000000 else 0]
  let addr := cq.base.toNat + 32 * (cq.pi.toNat % cq.size)
  let d := issueWrite n (d.cqHalf n q) f 0 addr (dwBytes dws) false (countMissed n c d)
  let d := d.modCq n q (fun c => { c with
    pi := c.pi + 1, lastF := some f, lastAddr := addr, flush := 0, cnt := c.cnt + 1,
    modRun := c.modRun || (c.lc.modTime != 0) })
  let d := d.modEng n (fun x => { x with linkInUse := f })
  let d := doIf (cq.lastF != some f) (releaseVectors n) d
  let cq := d.cq n q
  if cq.armed && (c.irq || max 1 cq.lc.modCount.toNat ≤ cq.cnt) then cqMessage n q d else d

/-- Try to write a completion: only on an Active queue with space and a path, and across Sinopia only while that link is up; a
change of link waits for a flush read (R225). Answers whether it was written. -/
def tryComp (n q : Nat) (c : Comp) (d : Dev) : Bool × Dev :=
  let cq := d.cq n q
  if cq.st != .active || cq.full || (d.compCrosses n q c && !d.sinopia.up) then (false, d) else
  let h := d.cqHalf n q
  let link := match c.link with
    | some f => if d.carries n f && d.reach h f && !((d.eng n).waiting h) then some f else d.namedLink n q
    | none => d.namedLink n q
  match link with
  | none => (false, d)
  | some f =>
    match cq.lastF with
    | some g => if g != f && cq.flush != 3 && d.carries n g then
        (false, d.modCq n q (fun c => { c with flush := max c.flush 1 }))
      else (true, placeComp n q f c d)
    | none => (true, placeComp n q f c d)

/-- Slice event words (R194). -/
def sliceEventComp (n : Nat) (d : Dev) : Comp :=
  { dws := compDws (d.eng n).evBits 0 3 cOk ((d.portsOf n).length + 256 * b2n (d.degraded n)) 0 0 0 }

def usb2Code : Usb2St → Nat
  | .detached => 0 | .disconnected => 1 | .connected => 2 | .resetting => 3 | .enabled => 4 | .l1 => 5 | .suspended => 6
  | .resuming => 7 | .disabled => 8
def ssCode : SsSt → Nat
  | .detached => 0 | .rxDetect => 1 | .polling => 2 | .u0 => 3 | .u1 => 4 | .u2 => 5 | .u3 => 6 | .recovery => 7
  | .resetting => 8 | .inactive => 9 | .disabled => 10

/-- Connected states of R185. -/
def usb2Conn : Usb2St → Bool
  | .connected | .resetting | .enabled | .l1 | .suspended | .resuming | .disabled => true
  | _ => false
def ssConn : SsSt → Bool
  | .u0 | .u1 | .u2 | .u3 | .recovery | .resetting | .inactive => true
  | _ => false

/-- The port is sink of VBUS. -/
def Port.isSink (p : Port) : Bool := p.tc.st == .attachedSnk && !p.tc.waitSafe0V

/-- Words of the pending port event of port p (R191, R192). -/
def portEventComp (p : Nat) (d : Dev) : Comp :=
  let x := d.port p
  let b := x.bus
  let code := if b.evPgOff then cDomainOff else if b.evDetach then cDetached else cOk
  let acc := if x.tc.waitSafe0V then 0 else match x.tc.st with | .audioAccessory => 1 | .debugAccessorySrc => 2 | _ => 0
  { dws := compDws b.evBits (d.localPort p) 2 code
      (usb2Code b.usb2 + 16 * b.usb2Speed + 256 * ssCode b.ss + 4096 * b.ssSpeed) b.evCause
      (b2n x.isSink + 2 * b2n x.pd.contract + 4 * acc + 2 ^ 32 * b.funcIntf.toNat) (b.evMf % 65536) }

/-- The port's half can reach completion queue 0 of its owner (R248). -/
def Dev.portReach (d : Dev) (p : Nat) : Bool := halfOfPort p == d.dataHalf (d.owner p) 0 || d.sinopia.up

/-- Queue 0 holds a completion that became due before place k. -/
def Dev.heldBefore (d : Dev) (n k : Nat) : Bool := (d.cq n 0).held.any (fun c => !c.defer && c.seq < k)

/-- The half warm restart in progress has reset slice n: DEVICE_RESTARTED, which goes first, is not queued yet (R194, R388). -/
def Dev.restartOf (d : Dev) (n : Nat) : Bool := d.S != 1 && d.start.half.any (fun h => (d.slice n).half == h.val)

/-- Write the pending port event of port p where queue 0 takes it. -/
def writePortEvent (p : Nat) (d : Dev) : Dev :=
  let n := d.owner p
  if !(d.port p).bus.evPending || d.S ≤ n || !(d.portReach p) || d.restartOf n || d.heldBefore n (d.port p).bus.evSeq then d else
  let t := tryComp n 0 (portEventComp p d) d
  if t.1 then t.2.modBus p (fun b => { b with evPending := false, evBits := 0, evDetach := false, evPgOff := false })
  else t.2

/-- Write the pending slice event of slice n where queue 0 takes it; PATH_CHANGED events are counted as written (R238). -/
def writeSliceEvent (n : Nat) (d : Dev) : Dev :=
  if !(d.eng n).evPending || d.heldBefore n (d.eng n).evSeq then d else
  let t := tryComp n 0 (sliceEventComp n d) d
  let k : Dword := if (d.eng n).evBits.testBit 2 then 1 else 0
  if t.1 then
    let d := t.2.modEng n (fun x => { x with evPending := false, evBits := 0 })
    { d with sinopia := { d.sinopia with pathChanges := d.sinopia.pathChanges + k } }
  else t.2

/-- Pending events of slice n in the order in which they became due: none for the slice's own. -/
def Dev.eventsDue (d : Dev) (n : Nat) : List (Nat × Option Nat) :=
  let ins := fun (l : List (Nat × Option Nat)) (e : Nat × Option Nat) => l.takeWhile (fun x => x.1 ≤ e.1) ++ e :: l.dropWhile (fun x => x.1 ≤ e.1)
  let own := if (d.eng n).evPending then [((d.eng n).evSeq, none)] else []
  ((d.portsOf n).filter (fun p => (d.port p).bus.evPending)).foldl (fun l p => ins l ((d.port p).bus.evSeq, some p)) own

/-- Write the pending events that became due before place k (R78). -/
def eventsBefore (n k : Nat) (d : Dev) : Dev :=
  ((d.eventsDue n).filter (fun e => e.1 < k)).foldl (fun d e => e.2.elim (writeSliceEvent n d) (fun p => writePortEvent p d)) d

/-- The next held completion: those of deferred operations wait until the slice is Active again (R274), and those of the other
half for Sinopia, without holding up the others (R14). -/
def nextHeld (d : Dev) (n q : Nat) : Option Comp :=
  (d.cq n q).held.find? (fun c => (!c.defer || (d.slice n).st == .active) && !(d.compCrosses n q c && !d.sinopia.up))

/-- Write the queue's held completions in order, as far as it takes them (R78); the event of a port operation goes before its
completion (R192). -/
def drainHeld (n q : Nat) : Nat → Dev → Dev
  | 0, d => d
  | k + 1, d => match nextHeld d n q with
    | none => d
    | some c =>
      let d := if q = 0 then eventsBefore n c.seq d else c.port.elim d (fun p => writePortEvent p d)
      if c.port.any (fun p => d.owner p == n && (d.port p).bus.evPending) then d else
      let t := tryComp n q c d
      if t.1 then drainHeld n q k (t.2.modCq n q (fun x => { x with held := x.held.erase c })) else t.2

/-- Write what queue q holds: held completions, and on queue 0 the pending slice event and port events. -/
def drainCq (n q : Nat) (d : Dev) : Dev :=
  let d := drainHeld n q (d.cq n q).held.length d
  if q != 0 then d else
  let d := eventsBefore n (d.eng n).cseq d
  let wait := (d.slice n).cqs.filter (fun x => x.2.held.any (fun c => c.port.isSome))
  wait.foldl (fun d x => drainHeld n x.1 x.2.held.length d) d

/-- At a thaw the held completions go before the held events (R275). -/
def eventsLast (n : Nat) (d : Dev) : Dev :=
  let k := (d.eng n).cseq
  let d := (d.modEng n (fun x => { x with evSeq := k, cseq := k + 1 })).modSlice n (fun x => { x with
    cqs := tabMap (fun _ c => { c with held := c.held.map (fun h => { h with port := none }) }) x.cqs })
  forEach (d.portsOf n) (fun p => Dev.modBus p (fun b => { b with evSeq := k })) d

/-- A completion joins what queue q holds, and the queue is written as far as it takes (R78). -/
def postNow (n q : Nat) (c : Comp) (d : Dev) : Dev :=
  let k := (d.eng n).cseq
  let d := d.modEng n (fun x => { x with cseq := k + 1 })
  let d := d.modCq n q (fun x => { x with held := x.held ++ [{ c with seq := k, src := some (d.compHalf n q c) }] })
  drainHeld n q (d.cq n q).held.length d

/-- Two completions of one source: a work queue, or an endpoint (R78). -/
def Comp.sameSource (a b : Comp) : Bool := (a.wqOf.isSome && a.wqOf == b.wqOf) || (a.epOf.isSome && a.epOf == b.epOf)

/-- Queue q already holds a completion of the source of c: a source holds at most one, and its next waits behind it (R78). -/
def Dev.sourceHeld (d : Dev) (n q : Nat) (c : Comp) : Bool :=
  !c.defer && (d.cq n q).held.any (fun x => !x.defer && x.sameSource c)

/-- Two completions of one endpoint or stream, which keep ring order (R120). -/
def Comp.sameRing (a b : Comp) : Bool :=
  a.epOf.isSome && a.epOf == b.epOf && bitsOf (dwAt a.dws 2) 24 16 == bitsOf (dwAt b.dws 2) 24 16

/-- Completion u waits for one of these, which is not yet due. -/
def Due.behind (u : Due) (l : List Due) : Bool :=
  l.any (fun v => v.comp.sameRing u.comp || v.comp.epOf.any (fun x => u.after.contains x))

/-- A completion that waits for the writes of its tag to be confirmed (R240), for earlier ones of its ring (R120), and for one of
its source that is held (R78). -/
def postDue (n : Nat) (u : Due) (d : Dev) : Dev :=
  let done := (d.eng n).tagDone u.tag
  if done && !(u.behind (d.eng n).due) && !(d.sourceHeld n u.cq u.comp) then (if u.mute then d else postNow n u.cq u.comp d)
  else d.modEng n (fun x => { x with due := x.due ++ [{ u with limit := if done then none else u.limit }] })

/-- A completion becomes due on queue q: after earlier ones of its endpoint or stream (R78, R120). -/
def post (n q : Nat) (c : Comp) (d : Dev) : Dev :=
  match (d.eng n).due.find? (fun v => v.comp.sameRing c) with
  | some v => d.modEng n (fun x => { x with due := x.due ++ [{ cq := q, comp := c, tag := v.tag }] })
  | none =>
    if d.sourceHeld n q c then d.modEng n (fun x => { x with due := x.due ++ [{ cq := q, comp := c, tag := 0 }] })
    else postNow n q c d

def postAfter (n q tag : Nat) (c : Comp) : Dev → Dev := postDue n { cq := q, comp := c, tag := tag }

/-- A periodic completion that became due after its bound is Late in place of Success or Short packet (R149). -/
def lateComp (u : Due) (d : Dev) : Comp :=
  match u.limit with
  | none => u.comp
  | some (h, m) =>
    let w := dwAt u.comp.dws 1
    let code := bitsOf w 31 24
    if m < (d.half h).mf.toNat && (code = cOk || code = cShort) then
      { u.comp with dws := u.comp.dws.set 1 (w32 (bitsOf w 23 0 + 0x1000000 * 0x13)) }
    else u.comp

/-- Release one completion of those that wait, or keep it; the bound of R149 is judged at the confirmation. -/
def releaseOne (n : Nat) (x : Dev × List Due) (u : Due) : Dev × List Due :=
  let done := (x.1.eng n).tagDone u.tag
  let v : Due := if done then { u with comp := lateComp u x.1, limit := none } else u
  if done && !(u.behind x.2) && !(x.1.sourceHeld n u.cq u.comp) then
    ((if u.mute && bitsOf (dwAt v.comp.dws 1) 31 24 = cOk then x.1 else postNow n u.cq v.comp x.1), x.2)
  else (x.1, x.2 ++ [v])

/-- Release the completions whose writes are now confirmed and that no longer wait for another, in order. -/
def releaseDue (n : Nat) (d : Dev) : Dev :=
  let r := (d.eng n).due.foldl (releaseOne n) (d.modEng n (fun x => { x with due := [] }), [])
  r.1.modEng n (fun x => { x with due := r.2 })

/-- Write what the slice holds: every queue that holds something, queue 0, and what waits behind them. -/
def drainAll (n : Nat) (d : Dev) : Dev :=
  releaseDue n (forEach ((d.slice n).cqs.map (fun x => x.1)) (drainCq n) d)

/-- OR bits into the slice event (R194) and write it if it can be. -/
def sliceEvent (n bits : Nat) (d : Dev) : Dev :=
  writeSliceEvent n (d.modEng n (fun x => { x with
    evBits := x.evBits ||| bits, evPending := true, evSeq := if x.evPending then x.evSeq else x.cseq
    cseq := if x.evPending then x.cseq else x.cseq + 1 }))

/-- What a change of a port adds to its event (R192). -/
structure PEv where
  bits : Nat
  cause : Nat := 0
  detach : Bool := false

/-- Record a change of port p with its cause, and write the event if it can be written. -/
def portEvent (p : Nat) (e : PEv) (d : Dev) : Dev :=
  let mf := (d.half (halfOfPort p)).mf.toNat
  let d := d.modBus p (fun b => { b with lastCause := e.cause })
  let n := d.owner p
  if d.S ≤ n then d else
  let k := (d.eng n).cseq
  let d := doIf (!(d.port p).bus.evPending) (fun d =>
    (d.modEng n (fun x => { x with cseq := k + 1 })).modBus p (fun b => { b with evSeq := k })) d
  writePortEvent p (d.modBus p (fun b => { b with
    evBits := b.evBits ||| e.bits, evCause := e.cause, evPending := true, evMf := mf,
    evDetach := b.evDetach || e.detach, evPgOff := b.evPgOff || (e.detach && e.cause == 4) }))

/-- PATH_CHANGED on the new path (R246). -/
def pathChanged (n : Nat) (d : Dev) : Dev := sliceEvent n 4 d

/-- Issue one kept write again, cut for its new function; a completion is then one that f carried (R235, R238). -/
def reissueOne (n f : Nat) (w : HWrite) (d : Dev) : Dev :=
  if w.data then issueData n w.half f w.tag w.addr w.bytes d else
  let d := issueWrite n w.half f w.tag w.addr w.bytes false d
  let qs := (d.slice n).cqs.filter (fun c => c.2.st != .disabled && c.2.base.toNat ≤ w.addr && w.addr < c.2.base.toNat + 32 * c.2.size)
  doIf (!qs.isEmpty) (fun d =>
    (forEach qs (fun c => Dev.modCq n c.1 (fun x => { x with lastF := some f })) d).modEng n (fun x => { x with linkInUse := f })) d

/-- Issue the waiting writes and reads of half h on the slice's path: writes first, in their order (R246, R481). After a
Sinopia loss the writes that crossed wait for SINOPIA_HOLD. -/
def reissueHalf (n h : Nat) (d : Dev) : Dev :=
  match (if (d.slice n).quiet then none else d.pickLink n h) with
  | none => d
  | some f =>
    let x := d.eng n
    let ws := x.unconf.filter (fun w => w.wait && w.half == h)
    if d.sinopia.holdRunning && ws.any (fun w => w.f < 4 && halfOfFunc w.f != h) then d else
    let now := fun (r : HRead) => r.half == h && !(d.spent n 2 h)
    let rs := x.waitReads.filter now
    let d := d.modEng n (fun x => { x with
      unconf := x.unconf.filter (fun w => !(w.wait && w.half == h))
      waitReads := x.waitReads.filter (fun r => !(now r)) })
    let old := (ws.filter (fun w => w.f < 4)).length
    let d := { d with sinopia := { d.sinopia with reissued := d.sinopia.reissued + BitVec.ofNat 32 old } }
    let d := (joinWrites ws).foldl (fun d w => reissueOne n f w d) d
    let d := doIf (!ws.isEmpty) (releaseVectors n) d
    rs.foldl (fun d r => issueRead n h f r.addr r.len r.off r.tag r.r d) d

end Sys2Proof.Machine
end

