-- ==== Sys2Proof/Machine/Operands.lean ====
section
/-! DEFINITION. The operand forms: work entries and their validation (R79, R81, R84), endpoint contexts (R90 to R92), transfer
entries (R103 to R105, R117), fragment tables (R111), stream contexts (R115), operation blocks (R413). -/
namespace Sys2Proof.Machine

/-! ### Work entries -/

def weOp (e : List Dword) : Nat := bitsOf (dwAt e 0) 7 0
def weFence (e : List Dword) : Bool := bitOf (dwAt e 0) 8
def weSuppress (e : List Dword) : Bool := bitOf (dwAt e 0) 9
def weIrq (e : List Dword) : Bool := bitOf (dwAt e 0) 10
def weTag (e : List Dword) : Nat := (dwAt e 1).toNat
def weHandle (e : List Dword) : Nat := bitsOf (dwAt e 2) 12 0
def wePort (e : List Dword) : Nat := bitsOf (dwAt e 2) 23 16
def weEp (e : List Dword) : Nat := bitsOf (dwAt e 2) 28 24
def weAuxLen (e : List Dword) : Nat := (dwAt e 13).toNat
def weAuxAddr (e : List Dword) : Nat := (qwAt e 14).toNat

/-- What an opcode uses (R84): handle, local port, endpoint, result area, and the operand bits of DW4 to DW12. -/
structure OpShape where
  h : Bool := false
  p : Bool := false
  e : Bool := false
  aux : Bool := false
  ops : List Nat := []

/-- The opcode table (R84, R211, R328). -/
def opShape (op : Nat) : Option OpShape :=
  let a := 0xFFFFFFFF
  if op = 0x01 then some {}
  else if op = 0x02 then some { h := true, p := true, ops := [a, a, 0x00FFFFFF, 0x01FF1FFF] }
  else if op = 0x03 then some { h := true }
  else if op = 0x04 then some { h := true, ops := [a, a] }
  else if op = 0x05 then some { h := true }
  else if op = 0x08 then some { h := true, ops := [a, a, a] }
  else if op = 0x09 then some { h := true, ops := [a] }
  else if op = 0x0A then some { h := true, e := true, ops := [0x1FF] }
  else if op = 0x0B then some { h := true, e := true }
  else if op = 0x0C then some { h := true, e := true, ops := [a, a, 0x1FF] }
  else if op = 0x10 then some { p := true, ops := [1] }
  else if op = 0x11 then some { p := true, ops := [3] }
  else if op = 0x12 then some { p := true }
  else if op = 0x13 then some { p := true, ops := [0xFFFF] }
  else if op = 0x14 then some { p := true, ops := [0xF, a, 0xFFFF] }
  else if op = 0x18 then some { h := true, e := true, ops := [0x3FFFF] }
  else if op = 0x19 then some { h := true, e := true }
  else if op = 0x1C then some { p := true, aux := true, ops := [1] }
  else if op = 0x1D then some { aux := true }
  else none

/-- A bit outside the mask is set. -/
def outside (v : Dword) (mask : Nat) : Bool := (v &&& ~~~(w32 mask)) != 0

/-- Five tier fields of ROUTE, tier 1 first; no non-zero field above a zero field (R94). -/
def routeTiers (r : Nat) : List Nat := (List.range 5).map (fun i => r / 16 ^ i % 16)
def routeOk (r : Nat) : Bool := ((routeTiers r).dropWhile (fun t => t != 0)).all (fun t => t == 0)
/-- ROUTE with its highest non-zero field cleared, and that field. -/
def routeDepth (r : Nat) : Nat := ((routeTiers r).filter (fun t => t != 0)).length
def routeParent (r : Nat) : Nat := r % 16 ^ (routeDepth r - 1)
def routeLast (r : Nat) : Nat := r / 16 ^ (routeDepth r - 1) % 16

/-- An action of PD_REQUEST uses DW5 (3) or DW6 (4) only (R328, REASON 2). -/
def pdUnused (e : List Dword) : Bool :=
  let act := bitsOf (dwAt e 4) 3 0
  (act != 3 && dwAt e 5 != 0) || (act != 4 && dwAt e 6 != 0)

/-- Operand ranges (REASON 8): R94, R87, R99, R102, R195, R211, R328. -/
def opRangeBad (e : List Dword) : Bool :=
  let op := weOp e
  let d4 := (dwAt e 4).toNat
  if op = 0x02 then
    let route := bitsOf (dwAt e 6) 19 0
    let speed := bitsOf (dwAt e 6) 23 20
    let hub := bitsOf (dwAt e 7) 12 0
    let tt := bitsOf (dwAt e 7) 23 16
    let mtt := bitOf (dwAt e 7) 24
    !(routeOk route) || speed = 0 || 5 < speed || 15 < tt || (route = 0 && (hub != 0 || tt != 0 || mtt)) ||
      (tt = 0 && (hub != 0 || mtt))
  else if op = 0x08 || op = 0x09 then bitOf (dwAt e 4) 1
  else if op = 0x0A then 256 < d4
  else if op = 0x0C then 256 < (dwAt e 6).toNat
  else if op = 0x11 then 1 < d4
  else if op = 0x13 then d4 < 100 || 60000 < d4
  else if op = 0x14 then
    6 < d4 || 1000 < bitsOf (dwAt e 5) 15 0 || 500 < bitsOf (dwAt e 5) 31 16 || 2400 < bitsOf (dwAt e 6) 15 0
  else if op = 0x18 then 1024 < bitsOf (dwAt e 4) 15 0 || bitsOf (dwAt e 4) 17 16 = 3
  else false

/-- Host address operands (REASON 9): R89, R94, R96, R91, R102. -/
def opAddrBad (e : List Dword) : Bool :=
  let op := weOp e
  let q4 := (qwAt e 4).toNat
  let q5 := (qwAt e 5).toNat
  if op = 0x02 || op = 0x04 then q4 = 0 || q4 % 64 != 0
  else if op = 0x08 then q5 = 0 || q5 % 64 != 0
  else if op = 0x0C then q4 / 32 = 0 || q4 / 2 % 16 != 0
  else false

/-- The REASON of a malformed work entry, 0 when it is well formed (R81); idx its index, S the slice count, ports the
slice's PORT_COUNT. -/
def weReason (S ports : Nat) (idx : Dword) (e : List Dword) : Nat :=
  match opShape (weOp e) with
  | none => 1
  | some s =>
    let opBits := (List.range 9).any (fun i => outside (dwAt e (4 + i)) (s.ops.getD i 0))
    let unused := (!s.h && weHandle e != 0) || (!s.p && wePort e != 0) || (!s.e && weEp e != 0) ||
      (!s.aux && (weAuxLen e != 0 || weAuxAddr e != 0))
    if outside (dwAt e 0) 0x7FF || outside (dwAt e 2) 0x1FFF1FFF || opBits || unused ||
        (weOp e = 0x14 && pdUnused e) then 2
    else if dwAt e 3 != idx then 3
    else if weSuppress e && weIrq e then 4
    else if s.h && Config.shareHandles S ≤ weHandle e then 5
    else if s.p && (wePort e = 0 || ports < wePort e) then 6
    else if (s.e && weEp e = 0) || ((weOp e = 0x08 || weOp e = 0x09) && (dwAt e 4 = 0 || bitOf (dwAt e 4) 0)) then 7
    else if opRangeBad e then 8
    else if opAddrBad e then 9
    else if s.aux && (weAuxAddr e = 0 || weAuxAddr e % 8 != 0 || weAuxLen e = 0 || 65536 < weAuxLen e) then 10
    else 0

/-! ### Contexts -/

def epTypeOf (v : Nat) : EpType := if v = 0 then .control else if v = 1 then .iso else if v = 2 then .bulk else .interrupt
def epTypeCode : EpType → Nat
  | .control => 0 | .iso => 1 | .bulk => 2 | .interrupt => 3
def EpType.periodic (t : EpType) : Bool := t == .iso || t == .interrupt

def epStCode : EpSt → Nat
  | .disabled => 0 | .running => 1 | .halted => 2 | .stopped => 3 | .haltedMalformed => 4
def devStCode : DevSt → Nat
  | .closed => 0 | .default => 1 | .addressed => 2 | .detached => 3

/-- The driver's fields of an endpoint context (R91). -/
def cfgOf (c : List Dword) : EpCfg :=
  { type := epTypeOf (bitsOf (dwAt c 0) 5 4), interval := bitsOf (dwAt c 0) 11 8, maxBurst := bitsOf (dwAt c 0) 15 12,
    mult := bitsOf (dwAt c 0) 17 16, maxPacket := bitsOf (dwAt c 1) 10 0, weight := bitsOf (dwAt c 1) 19 16,
    burstPkts := bitsOf (dwAt c 1) 25 20, streams := bitOf (dwAt c 1) 26, esit := bitsOf (dwAt c 2) 23 0,
    numStreamsM1 := bitsOf (dwAt c 2) 31 24, targetCq := bitsOf (dwAt c 3) 11 0 }

/-- Index i is an IN endpoint; index 1 is both (R87). -/
def epIsIn (i : Nat) : Bool := i != 1 && i % 2 == 1
def speedSs (sp : Nat) : Bool := 4 ≤ sp
/-- Endpoint number of an index (R87). -/
def epNum (i : Nat) : Nat := i / 2

/-- Packet sizes of an HS periodic endpoint by the transactions in a microframe (PRESUMED from USB 2.0). -/
def highBandwidthOk (c : EpCfg) : Bool :=
  c.maxPacket ≤ 1024 && (match c.mult with | 0 => true | 1 => 513 ≤ c.maxPacket | 2 => 683 ≤ c.maxPacket | _ => false)

/-- MAX_PACKET, MAX_BURST and MULT as USB 2.0 and USB 3.2 allow them (R92 rule 3; PRESUMED from those standards). -/
def usbSizesOk (sp : Nat) (c : EpCfg) : Bool :=
  let mp := c.maxPacket
  let burst := c.maxBurst == 0 || speedSs sp
  match c.type with
  | .control => c.maxBurst == 0 && c.mult == 0 &&
      (if sp = 2 then mp == 8 else if sp = 1 then [8, 16, 32, 64].contains mp else if sp = 3 then mp == 64 else mp == 512)
  | .bulk => burst && c.mult == 0 &&
      (if sp = 2 then false else if sp = 1 then [8, 16, 32, 64].contains mp else if sp = 3 then mp == 512 else mp == 1024)
  | .interrupt => burst &&
      (if sp = 2 then 1 ≤ mp && mp ≤ 8 && c.mult == 0 else if sp = 1 then 1 ≤ mp && mp ≤ 64 && c.mult == 0
       else if sp = 3 then 1 ≤ mp && highBandwidthOk c
       else 1 ≤ mp && mp ≤ 1024 && c.mult == 0 && c.maxBurst ≤ 2 && (c.maxBurst == 0 || mp == 1024))
  | .iso => burst &&
      (if sp = 2 then false else if sp = 1 then mp ≤ 1023 && c.mult == 0
       else if sp = 3 then highBandwidthOk c
       else mp ≤ 1024 && c.mult ≤ 2 && (if c.maxBurst = 0 then c.mult == 0 else mp == 1024))

/-- The first rule of R92 that endpoint context c of index i breaks, 0 for none. input: an input context, whose
device-written fields must be 0; cqOk: TARGET_CQ is within the share and Active. -/
def ctxRule (i sp : Nat) (input : Bool) (cqOk : Nat → Bool) (c : List Dword) : Nat :=
  let f := cfgOf c
  let t := f.type
  let dev := input && (bitsOf (dwAt c 0) 2 0 != 0 || (List.range 10).any (fun k => dwAt c (6 + k) != 0))
  if outside (dwAt c 0) 0x3FF37 || outside (dwAt c 1) 0x07FF07FF || outside (dwAt c 3) 0xFFF || outside (dwAt c 8) 0xFFFF ||
      outside (dwAt c 9) 0xFFFF || dev then 1
  else if (t == .control) != (i == 1) then 2
  else if !(usbSizesOk sp f) then 3
  else if (!t.periodic && f.interval != 0) || (t.periodic && 3 ≤ sp && 8 < f.interval) ||
      (t.periodic && sp < 3 && (f.interval < 3 || 8 < f.interval)) then 4
  else if (t.periodic && (f.esit = 0 || f.maxPacket * (f.maxBurst + 1) * (f.mult + 1) < f.esit)) ||
      (!t.periodic && f.esit != 0) then 5
  else if t.periodic && (f.weight != 0 || f.burstPkts != 0) then 6
  else if (f.streams && (t != .bulk || !(speedSs sp))) || (!f.streams && f.numStreamsM1 != 0) then 7
  else if (qwAt c 4).toNat / 32 = 0 || bitsOf (dwAt c 4) 4 1 != 0 ||
      (f.streams && (bitOf (dwAt c 4) 5 || bitOf (dwAt c 4) 0)) then 8
  else if !(cqOk f.targetCq) then 9
  else 0

/-- Words of a device header (R90). -/
def headerDws (x : Handle) (lport : Nat) : List Dword :=
  let use := (List.range 32).foldl (fun a i => if (x.ep i).st != .disabled then a + 2 ^ i else a) 0
  [w32 (devStCode x.st + 256 * x.speed + 0x10000 * x.addr), w32 (x.route + 2 ^ 20 * lport),
   w32 (x.hub + 0x10000 * x.ttPort + 2 ^ 24 * b2n x.multiTt),
   w32 (b2n x.isHub + 2 * b2n x.hubMultiTt + 4 * x.ttThink + 16 * x.hubPorts + 4096 * x.besl + 0x10000 * b2n x.beslValid),
   w32 x.ep0Mps, w32 use] ++ List.replicate 10 0

/-- Words of an endpoint context that the device writes back (R91). The six words of ENGINE_STATE are free values. -/
def contextDws (x : Ep) (k : Nat) : List Dword :=
  let c := x.cfg
  let r := x.ring 0
  let deq := if c.streams then x.base else r.deq + b2n r.cyc
  [w32 (epStCode x.st + 16 * epTypeCode c.type + 256 * c.interval + 4096 * c.maxBurst + 0x10000 * c.mult),
   w32 (c.maxPacket + 0x10000 * c.weight + 2 ^ 20 * c.burstPkts + 2 ^ 26 * b2n c.streams),
   w32 (c.esit + 2 ^ 24 * c.numStreamsM1), w32 c.targetCq, w32 deq, w32 (deq / 2 ^ 32),
   w32 x.errAddr, w32 (x.errAddr / 2 ^ 32), w32 (x.haltCode.toNat + 256 * x.haltReason.toNat),
   w32 (x.basePg.length + x.leadPg.length + x.addedPg.length)] ++ (List.range 6).map (fun i => Config.engineState k i)

/-- A stream context (R115): DEQUEUE with its cycle, STREAM_STATE. -/
def strStCode : StrSt → Nat
  | .idle => 0 | .pending => 1 | .active => 2
def streamDws (r : Ring) : List Dword :=
  let deq := r.deq + b2n r.cyc
  [w32 deq, w32 (deq / 2 ^ 32), w32 (strStCode r.sst), 0]

/-- A stream context that the driver wrote breaks R115. A DEQUEUE of address 0 breaks it too: R115 gives no such case, R92 rule 8
does for an endpoint context (DESIGN CHOICE, log entry 68). -/
def streamBad (c : List Dword) : Bool :=
  bitsOf (dwAt c 0) 4 1 != 0 || (qwAt c 0).toNat / 32 = 0 || dwAt c 2 != 0 || dwAt c 3 != 0

/-! ### Transfer entries -/

def teType (e : List Dword) : Nat := bitsOf (dwAt e 7) 11 8
def tePtr (e : List Dword) : Nat := (qwAt e 0).toNat
def teLen (e : List Dword) : Nat := bitsOf (dwAt e 2) 23 0
def teFragM1 (e : List Dword) : Nat := bitsOf (dwAt e 2) 31 24
def teTag (e : List Dword) : Dword := dwAt e 3
def teTrt (e : List Dword) : Nat := bitsOf (dwAt e 4) 1 0
def teCycle (e : List Dword) : Bool := bitOf (dwAt e 7) 0
def teToggle (e : List Dword) : Bool := bitOf (dwAt e 7) 1
def teChain (e : List Dword) : Bool := bitOf (dwAt e 7) 2
def teSuppress (e : List Dword) : Bool := bitOf (dwAt e 7) 3
def teIrq (e : List Dword) : Bool := bitOf (dwAt e 7) 4
def teFrag (e : List Dword) : Bool := bitOf (dwAt e 7) 5
def teDir (e : List Dword) : Bool := bitOf (dwAt e 7) 12

/-- The setup packet of a Setup entry: its 8 bytes, wLength and direction (R113). -/
def setupBytes (e : List Dword) : List Byte := (dwBytes e).take 8
def setupLen (e : List Dword) : Nat := bitsOf (dwAt e 1) 31 16
def setupIn (e : List Dword) : Bool := bitOf (dwAt e 0) 7

/-- What came before an entry in its transfer: first entry; for control, what is due (0 Setup, 1 Data, 2 Status) with the
Setup entry; LENGTH so far; Links in a row. -/
structure TeCtx where
  first : Bool
  due : Nat := 0
  setup : List Dword := []
  sum : Nat := 0
  links : Nat := 0

/-- The lowest REASON that a transfer entry at an address breaks, 0 for none (R117). -/
def teReason (c : EpCfg) (addr : Nat) (x : TeCtx) (e : List Dword) : Nat :=
  let ty := teType e
  let t := c.type
  let ctl := t == .control
  let allowed := ty == 5 || ty == 6 || (ty == 1 && !ctl) || ((ty == 2 || ty == 3 || ty == 4) && ctl)
  if !allowed then 1
  else if outside (dwAt e 4) 3 || dwAt e 5 != 0 || dwAt e 6 != 0 || outside (dwAt e 7) 0x1F3F || teTrt e = 1 ||
      (ty != 2 && teTrt e != 0) || (ty != 5 && teToggle e) || (ty != 1 && teChain e) ||
      (ty != 1 && ty != 3 && (teFrag e || teFragM1 e != 0)) || (ty != 3 && teDir e) ||
      ((ty = 4 || ty = 6) && tePtr e != 0) || ((ty = 5 || ty = 6) && teLen e != 0) ||
      ((!x.first || ty = 5) && (teSuppress e || teIrq e)) then 2
  else if (ty = 2 && teLen e != 8) || (ty = 4 && teLen e != 0) || (teFrag e && teLen e = 0) ||
      (ty = 1 && 0xFFFFFF < x.sum + teLen e) || (ty = 1 && t == .iso && c.esit < teLen e) ||
      (ty = 3 && (teLen e = 0 || (x.due != 0 && teLen e != setupLen x.setup))) then 3
  else if (teLen e != 0 && tePtr e = 0) || (teFrag e && tePtr e % 16 != 0) || (ty = 5 && tePtr e % 64 != 0) then 4
  else if ctl && (ty = 2 || ty = 3 || ty = 4 || ty = 6) &&
      ((x.due = 0 && (ty = 3 || ty = 4)) || (x.due = 1 && ty != 3) || (x.due = 2 && ty != 4) ||
       (ty = 2 && ((teTrt e = 0) != (setupLen e = 0))) || (ty = 2 && teTrt e != 0 && ((teTrt e = 3) != setupIn e)) ||
       (ty = 3 && teDir e != setupIn x.setup)) then 5
  else if teChain e && (t != .bulk || ty != 1) || (!x.first && t == .bulk && ty != 1 && ty != 5) then 6
  else if ty = 5 && (tePtr e = addr || 4 ≤ x.links) then 7
  else if teSuppress e && teIrq e then 9
  else 0

/-! ### Fragment tables (R111) -/

def feAddr (e : List Dword) : Nat := (qwAt e 0).toNat
def feLen (e : List Dword) : Nat := bitsOf (dwAt e 2) 23 0
def feCountM1 (e : List Dword) : Nat := bitsOf (dwAt e 2) 31 24
def feNext (e : List Dword) : Bool := bitOf (dwAt e 3) 0

/-- Split words into groups of n, k groups. -/
def groupsOf (n : Nat) : Nat → List Dword → List (List Dword)
  | 0, _ => []
  | k + 1, l => l.take n :: groupsOf n k (l.drop n)

/-- One fragment entry of a table is well formed; last: it is the table's last entry. A NEXT entry of ADDR 0 is taken as misaligned
(DESIGN CHOICE, log entry 68: R111 asks for a next table at a multiple of 16 and does not name address 0). -/
def feOk (last : Bool) (e : List Dword) : Bool :=
  !(outside (dwAt e 3) 1) &&
  (if feNext e then last && feLen e == 0 && feAddr e % 16 == 0 && feAddr e != 0
   else feLen e != 0 && feCountM1 e == 0)

/-- The data fragments of a table, and the next table (address, count), or none when it breaks R111. -/
def fragTable : List (List Dword) → Option (List (Nat × Nat) × Option (Nat × Nat))
  | [] => some ([], none)
  | [e] => if feOk true e then
      (if feNext e then some ([], some (feAddr e, feCountM1 e + 1)) else some ([(feAddr e, feLen e)], none)) else none
  | e :: r => if feOk false e && !(feNext e) then
      (fragTable r).map (fun x => ((feAddr e, feLen e) :: x.1, x.2)) else none

/-! ### Manager operation blocks (R413) -/

/-- Fields of a 64-byte operation block. -/
def blockOf (b : List Dword) : OpBlock :=
  { slice := bitsOf (dwAt b 0) 15 8, all := bitOf (dwAt b 0) 16, hostGroup := bitsOf (dwAt b 1) 7 0, pasid := dwAt b 2,
    port := bitsOf (dwAt b 3) 7 0, target := bitsOf (dwAt b 3) 15 8, imageAddr := qwAt b 4, length := (dwAt b 6).toNat,
    imagePasid := dwAt b 7, tag := dwAt b 8 }
def blockOp (b : List Dword) : Nat := bitsOf (dwAt b 0) 7 0

/-- A field that the operation does not use is not 0 (R413, REASON 12). -/
def blockUnused (op : Nat) (b : OpBlock) : Bool :=
  let bind := op = 0x40 || op = 0x44 || op = 0x47
  let img := op = 0x46 || op = 0x47
  ((op = 0x4A || (op = 0x41 + 1 && b.all)) && b.slice != 0) || (op != 0x42 && b.all) || (!bind && b.hostGroup != 0) ||
    (!bind && b.pasid != 0) || (op != 0x4A && (b.port != 0 || b.target != 0)) ||
    (!img && (b.imageAddr != 0 || b.length != 0 || b.imagePasid != 0))

/-- The reserved bits of the block, which must be 0 as the fields that are not used. -/
def blockReserved (b : List Dword) : Bool :=
  outside (dwAt b 0) 0x1FFFF || outside (dwAt b 1) 0xFF || outside (dwAt b 3) 0xFFFF ||
    (List.range 7).any (fun i => dwAt b (9 + i) != 0)

end Sys2Proof.Machine
end

