-- ==== Sys2Proof/Machine/Wq.lean ====
section
/-! DEFINITION. Work queues: doorbells and PI reads (R56, R58, R65), fetching (R66, R68), pushes (R69), errors (R82, R483),
arbitration (R72), completion of an entry (R80), and commits of the setup registers (R61 to R64). -/
namespace Sys2Proof.Machine

/-- a comes before b in a queue's free-running index order. -/
def before (a b : Dword) : Bool := a != b && (b - a).toNat < 2 ^ 31

def WQ.size (w : WQ) : Nat := 2 ^ w.sizeLog
def Dev.wqHalf (d : Dev) (n q : Nat) : Nat := d.cqHalf n q
def Dev.share (d : Dev) : Nat := Config.shareQueues d.S

/-- Doorbells of the slice are served (R56, R271). -/
def Slice.accepts (s : Slice) : Bool := s.st == .active

def dbIgnored (n : Nat) : Dev → Dev := Dev.modSlice n (fun x => { x with dbIgnored := x.dbIgnored + 1 })

/-- Read PI of a work queue from its index block (R51, R65). -/
def readPi (n q : Nat) (d : Dev) : Dev :=
  let base := tabGet 0 (d.slice n).idxBase (q / 512)
  hostRead n (d.wqHalf n q) (base.toNat + 4 * (q % 512)) 4 (.pi q) (d.modWq n q (fun w => { w with piOut := true }))

/-- A doorbell for an Active work queue (R65): one read, or one further read after the one outstanding. -/
def ringWq (n q : Nat) (d : Dev) : Dev :=
  if (d.wq n q).piOut then d.modWq n q (fun w => { w with piAgain := true }) else readPi n q d

/-- WQ_DOORBELL and the doorbells that pushes turn into (R56, R65). -/
def doorbellWq (n q : Nat) (d : Dev) : Dev :=
  if d.share ≤ q || !(d.slice n).accepts || (d.wq n q).st != .active then dbIgnored n d else ringWq n q d

/-- Skip pushed entries that the fetch index meets. -/
def skipPushed : Nat → WQ → WQ
  | 0, w => w
  | k + 1, w => if w.held.any (fun e => e.idx == w.f) then skipPushed k { w with f := w.f + 1 } else w

/-- CI advances over every entry copied on chip (R53). -/
def advanceCi : Nat → WQ → WQ
  | 0, w => w
  | k + 1, w => if w.held.any (fun e => e.idx == w.ci) then advanceCi k { w with ci := w.ci + 1, ciDirty := true } else w

/-- Insert an entry on chip in index order. -/
def insertEnt (e : WEnt) : List WEnt → List WEnt
  | [] => [e]
  | x :: r => if before e.idx x.idx then e :: x :: r else x :: insertEnt e r

/-- Entries held and being read, not yet started (R66). -/
def WQ.window (w : WQ) : Nat := w.held.length + (w.rds.map (fun r => r.2)).foldl (· + ·) 0

/-- One read of entries from F: at most 8 unstarted, 512 bytes, not across the end of the queue (R66). -/
def fetchOnce (n q : Nat) (d : Dev) : Dev :=
  let d := d.modWq n q (skipPushed 16)
  let w := d.wq n q
  let want := if before w.f w.lastPi then (w.lastPi - w.f).toNat else 0
  let slot := w.f.toNat % w.size
  let toPush := (w.held.filter (fun e => before w.f e.idx)).foldl (fun m e => min m (e.idx - w.f).toNat) 8
  let k := min (min want (8 - w.window)) (min (w.size - slot) (min 8 toPush))
  if k = 0 then d else
  hostReadOff n (d.wqHalf n q) (w.base.toNat + 64 * slot) (64 * k) w.f.toNat 0 (.work q)
    (d.modWq n q (fun w => { w with f := w.f + BitVec.ofNat 32 k, rds := w.rds ++ [(w.f, k)] }))

/-- Fetch up to the valid PI; a fetch across the wrap is two reads (R65, R66). -/
def fetchWq (n q : Nat) (d : Dev) : Dev :=
  let w := d.wq n q
  if w.st != .active || w.errPend.isSome || !(d.slice n).accepts then d else fetchOnce n q (fetchOnce n q d)

/-- Some completion of work queue q is not yet written; full: it is held for a full queue (R78). -/
def Dev.wqCompHeld (d : Dev) (n q : Nat) : Bool := (d.cq n (d.wq n q).target.toNat).held.any (fun c => !c.defer && c.wqOf == some q)
def Dev.wqCompDue (d : Dev) (n q : Nat) : Bool :=
  d.wqCompHeld n q || (d.eng n).due.any (fun u => u.comp.wqOf == some q)

/-- Stop the queue once its earlier entries have completed and their completions are written (R63, R82, R483); a
Draining queue with nothing left becomes Disabled. -/
def settleWq (n q : Nat) (d : Dev) : Dev :=
  let w := d.wq n q
  if !(w.held.isEmpty && w.exec.isEmpty && w.rds.isEmpty) then d else
  let d := match w.errPend with
    | none => d
    | some e =>
      if d.wqCompDue n q then d else
      let d := d.modWq n q (fun w => { w with
        ci := e.at_, ciDirty := true, errPend := none, errCode := BitVec.ofNat 8 e.code, reason := BitVec.ofNat 8 e.reason,
        errIndex := e.errIndex, st := if w.st == .draining then .draining else if w.st == .stopped then .stopped else .error
        prev := if w.st == .stopped && w.prev != .draining then .error else w.prev, f := e.at_, s := e.at_ })
      post n w.target.toNat { dws := compDws e.tag.toNat q 0 e.code e.index.toNat e.r0.toNat 0 0 } d
  if (d.wq n q).st == .draining && (d.wq n q).errPend.isNone && !(d.wqCompDue n q) then
    cancelReads n (fun r => r == .pi q) (d.modWq n q (fun w => { w with st := .disabled, piOut := false, piAgain := false }))
  else d

/-- The queue stops at an index: later entries are discarded, with the reads of them, and earlier ones complete (R82, R83, R483). -/
def stopWq (n q : Nat) (e : QErr) (d : Dev) : Dev :=
  settleWq n q ((cancelWhere n (fun r => r.r == .work q && !(before (w32 r.off) e.at_)) d).modWq n q (fun w => { w with
    held := w.held.filter (fun x => before x.idx e.at_), rds := w.rds.filter (fun r => before r.1 e.at_),
    errPend := some e }))

/-- Take one fetched or pushed entry: valid ones are held and CI advances, a malformed one stops the queue (R81, R82). -/
def takeEntry (n q : Nat) (idx : Dword) (pushed : Bool) (dws : List Dword) (d : Dev) : Dev :=
  let late := match (d.wq n q).errPend with
    | some e => !(before idx e.at_)
    | none => false
  let r := weReason d.S (d.portsOf n).length idx dws
  if late then d
  else if r = 0 then
    d.modWq n q (fun w => advanceCi 64 { w with held := insertEnt { idx := idx, dws := dws, pushed := pushed } w.held })
  else stopWq n q ⟨idx, cMalformed, r, idx, dwAt dws 1, idx, w32 r⟩ d

/-- A fetched run of entries, in order. -/
def takeEntries (n q : Nat) (idx : Dword) : List (List Dword) → Dev → Dev
  | [], d => d
  | e :: r, d => takeEntries n q (idx + 1) r (takeEntry n q idx false e d)

/-! ### Completion of an entry -/

/-- The executing entry that a command names. -/
def Dev.execEnt (d : Dev) (n q : Nat) (i : Dword) : Option WEnt := (d.wq n q).exec.find? (fun e => e.idx == i)

/-- Change an executing entry. -/
def modEnt (n q : Nat) (i : Dword) (g : WEnt → WEnt) : Dev → Dev :=
  Dev.modWq n q (fun w => { w with exec := w.exec.map (fun e => if e.idx == i then g e else e) })

/-- Results of a completion (R80): RESULT0, RESULT1 and RESULT2. -/
structure Res where
  r0 : Nat := 0
  r1 : Nat := 0
  r2 : Nat := 0

/-- Completions that go before that of an entry: of the endpoints that it stopped (R97, R100, R145), or of the port that it
reset (R197). -/
def Dev.compsFirst (d : Dev) (n : Nat) (e : List Dword) : List (Nat × Nat) :=
  let mine := fun (x : Nat × Nat) => match weOp e with
    | 0x05 => x.1 == weHandle e
    | 0x09 => x.1 == weHandle e
    | 0x0A => x.1 == weHandle e && x.2 == weEp e
    | 0x10 => d.physPort n (wePort e) == some (d.handle n x.1).port
    | _ => false
  ((d.eng n).due.filterMap (fun u => u.comp.epOf)).filter mine

/-- Complete an executing entry: KIND 0 on the queue's TARGET_CQ, after its result writes are confirmed and on their link; nothing
where SUPPRESS meets Success, unless the write of its result area can still fail. A slice that is being reset or fenced keeps no entry, and then nothing is written. -/
def finishWe (n q : Nat) (i : Dword) (code : Nat) (r : Res) (d : Dev) : Dev :=
  match d.execEnt n q i with
  | none => d
  | some e =>
    let w := d.wq n q
    let d := d.modWq n q (fun w => { w with exec := w.exec.filter (fun x => x.idx != i) })
    let c : Comp := { dws := compDws (weTag e.dws) q 0 code i.toNat r.r0 r.r1 r.r2, irq := weIrq e.dws, link := e.link }
    let c := { c with port := if 0x10 ≤ weOp e.dws && weOp e.dws ≤ 0x13 then d.physPort n (wePort e.dws) else none }
    let c := { c with stops := if weOp e.dws = 0x0A then some (weHandle e.dws, weEp e.dws) else none }
    let c := { c with defer := (d.slice n).st != .active && (d.slice n).deferOps.contains (q, i) }
    let mute := weSuppress e.dws && code == cOk
    let d := if mute && e.link.isNone then d
      else postDue n { cq := w.target.toNat, comp := c, tag := e.uid, after := d.compsFirst n e.dws, mute := mute } d
    settleWq n q (fetchWq n q d)

/-- The opcode row that names an executing entry not yet acted on acts on it; anything else changes nothing. -/
def onEntry (op n q : Nat) (i : Dword) (f : List Dword → Dev → Dev) (d : Dev) : Dev :=
  match d.execEnt n q i with
  | some e => if weOp e.dws = op && e.phase = 0 then f e.dws d else d
  | none => d

/-- The entry waits: 1 for a structure, 2 for the bus, 3 for the rest of its work. -/
def waitEnt (n q : Nat) (i : Dword) (ph aux : Nat) : Dev → Dev := modEnt n q i (fun e => { e with phase := ph, aux := aux })

/-! ### Arbitration (R67, R72) -/

/-- The queue's next entry can start. -/
def Dev.startable (d : Dev) (n q : Nat) : Bool :=
  let w := d.wq n q
  (w.st == .active || w.st == .draining) && !(d.spent n 6 (d.wqHalf n q)) &&
  match w.held with
  | [] => false
  | e :: _ => e.idx == w.s && w.exec.length < 8 && !(d.wqCompHeld n q) && !(d.cq n w.target.toNat).full &&
      !([0x03, 0x10, 0x11, 0x12, 0x13, 0x14].contains (weOp e.dws) && d.sliceFull n (d.wqHalf n q)) &&
      !([0x08, 0x09].contains (weOp e.dws) && (d.half (d.wqHalf n q)).frescoOut) &&
      (!(weFence e.dws) || (w.exec.isEmpty && !(d.wqCompDue n q)))

/-- Start the queue's next entry. -/
def startOne (n q : Nat) (d : Dev) : Dev :=
  match (d.wq n q).held with
  | [] => d
  | e :: r =>
    let t := newTag n d
    t.2.modWq n q (fun w => { w with held := r, exec := w.exec ++ [{ e with uid := t.1 }], s := w.s + 1 })

/-- Start up to k consecutive entries. -/
def startRun (n q : Nat) : Nat → Dev → Dev
  | 0, d => d
  | k + 1, d => if d.startable n q then startRun n q k (startOne n q d) else d

/-- Queues in visiting order: ascending, starting after the queue that took the last turn. -/
def visitOrder (last : Nat) (qs : List Nat) : List Nat := qs.filter (fun q => last < q) ++ qs.filter (fun q => q ≤ last)

/-- Forfeit the turns of queues that have nothing ready, up to the queue that takes the turn. -/
def forfeitTo (n : Nat) (ready : Nat → Bool) : List Nat → Dev → Dev
  | [], d => d
  | q :: r, d => if ready q && (d.wq n q).turns != 0 then d
    else forfeitTo n ready r (d.modWq n q (fun w => { w with turns := 0 }))

/-- One turn of the slice's queues (R72). -/
def wqTurn (n : Nat) (d : Dev) : Dev :=
  let qs := (d.slice n).wqs.map (fun x => x.1)
  let ready := fun q => d.startable n q
  if !(qs.any ready) then d else
  -- a new round when no ready queue has turns left
  let d := if qs.any (fun q => ready q && (d.wq n q).turns != 0) then d
    else forEach (qs.filter ready) (fun q => Dev.modWq n q (fun w => { w with turns := w.lc.weight.toNat + 1 })) d
  let order := visitOrder (d.slice n).lastWq qs
  let d := forfeitTo n ready order d
  match order.find? (fun q => ready q && (d.wq n q).turns != 0) with
  | none => d
  | some q =>
    let d := startRun n q ((d.wq n q).lc.burst.toNat + 1) d
    let d := (d.modWq n q (fun w => { w with turns := w.turns - 1 })).modSlice n (fun x => { x with lastWq := q })
    fetchWq n q d

/-! ### Reads of PI and entries -/

/-- A PI read returned (R58, R65). -/
def piArrived (n q : Nat) (pi : Dword) (d : Dev) : Dev :=
  let d := d.modWq n q (fun w => { w with piOut := false })
  let w := d.wq n q
  let d := if w.st != .active || w.errPend.isSome || !(d.slice n).accepts then d else
    let dist := (pi - w.ci).toNat
    if (w.f - w.ci).toNat ≤ dist && dist ≤ w.size then
      fetchWq n q (d.modWq n q (fun w => { w with
        lastPi := pi, lim := if (w.lim - w.ci).toNat < dist then pi else w.lim }))
    else stopWq n q ⟨w.f, cOverrun, 0, pi, 0, w.f, pi⟩ d
  if (d.wq n q).piAgain then readPi n q (d.modWq n q (fun w => { w with piAgain := false })) else d

/-- The outstanding entry read of the queue that begins at index off. -/
def WQ.rdAt (w : WQ) (off : Nat) : Option (Dword × Nat) := w.rds.find? (fun r => r.1.toNat == off)

/-- The entry read that began at index off returned. -/
def entriesArrived (n q off : Nat) (data : List Dword) (d : Dev) : Dev :=
  match (d.wq n q).rdAt off with
  | none => d
  | some (i, k) =>
    settleWq n q (fetchWq n q (takeEntries n q i (groupsOf 16 k data) (d.modWq n q (fun w => { w with rds := w.rds.erase (i, k) }))))

/-- A PI read, or the entry read of the queue that began at index off, failed (R68, R483). -/
def wqReadFailed (n q : Nat) (isPi : Bool) (off : Nat) (d : Dev) : Dev :=
  let w := d.wq n q
  if isPi then
    let d := d.modWq n q (fun w => { w with piOut := false, piAgain := false })
    if w.st != .active || w.errPend.isSome then d else stopWq n q ⟨w.f, cDataBuffer, 0, w.f, 0, w.f, 0⟩ d
  else match w.rdAt off with
    | none => d
    | some (i, _) => stopWq n q ⟨i, cDataBuffer, 0, i, 0, i, 0⟩ d

/-! ### Pushes (R69) -/

/-- A 64-byte write to push slot k of work queue q. -/
def pushWq (n q k : Nat) (e : List Dword) (d : Dev) : Dev :=
  let w := d.wq n q
  let seq := dwAt e 3
  let ok := (d.slice n).accepts && q < d.share && w.lc.pushEn && w.st == .active && w.errPend.isNone && seq == w.lim &&
    k == seq.toNat % 4 && (w.held.filter (fun x => x.pushed)).length < 4 && w.window < 8 &&
    (seq + 1 - w.ci).toNat ≤ w.size
  if ok then
    fetchWq n q (takeEntry n q seq true e (d.modWq n q (fun w => { w with
      lim := seq + 1, f := if w.f == seq then seq + 1 else w.f })))
  else doorbellWq n q (d.modSlice n (fun x => { x with pushFallback := x.pushFallback + 1 }))

/-! ### Commits of the setup registers (R61 to R64) -/

/-- Commit a completion queue's enable, and its live fields (R62, R63). -/
def commitCqOn (n q : Nat) (d : Dev) : Dev :=
  let c := d.cq n q
  if !c.dirty then d else
  if c.sh.enable && c.st == .disabled then
    if c.base = 0 || Config.shareVectors d.S ≤ c.sh.vector.toNat then
      d.modCq n q (fun c => { c with cfgRefused := true, dirty := false, sh := { c.sh with enable := false } })
    else
      let d := d.modCq n q (fun c => { c with
        lc := c.sh, dirty := false, cfgRefused := false, st := .active, pi := c.start, ci := c.start, armed := true,
        cnt := 0, modRun := false, lastF := none, flush := 0, armPend := false })
      if q = 0 then drainCq n 0 d else d
  else if c.sh.enable then
    let d := d.modCq n q (fun c => { c with lc := c.sh, dirty := false, cfgRefused := false })
    if c.resume && c.st == .error then
      if c.fill ≤ c.size then
        let d := d.modCq n q (fun c => { c with st := .active, resume := false, armed := c.armed || c.armPend, armPend := false })
        let d := releaseDue n (drainCq n q d)
        let c2 := d.cq n q
        if c2.armed && c2.pi != c2.ci then cqMessage n q d else d
      else d.modCq n q (fun c => { c with cfgRefused := true, resume := false })
    else d.modCq n q (fun c => { c with resume := false })
  else d

/-- Some work queue that is not Disabled, or some endpoint context, targets completion queue q (R62). -/
def Dev.targeted (d : Dev) (n q : Nat) : Bool :=
  (d.slice n).wqs.any (fun w => w.2.st != .disabled && w.2.target.toNat == q) ||
  (d.eng n).handles.any (fun h => h.2.st != .closed && h.2.eps.any (fun e => e.2.st != .disabled && e.2.cfg.targetCq == q))

/-- Commit a completion queue's disable (R62), with its other live fields. A refused one leaves ENABLE 1; a Stopped queue stays
Stopped (R63). -/
def commitCqOff (n q : Nat) (d : Dev) : Dev :=
  let c := d.cq n q
  if !c.dirty || c.sh.enable then d else
  let d := d.modCq n q (fun c => { c with dirty := false, resume := false })
  if c.st != .disabled && d.targeted n q then
    let sh := { c.sh with enable := true }
    d.modCq n q (fun c => { c with cfgRefused := true, sh := sh, lc := sh })
  else
    let d := d.modCq n q (fun c => { c with lc := c.sh, cfgRefused := false })
    if c.st == .active || c.st == .error then d.modCq n q (fun c => { c with st := .disabled, held := [], armed := false }) else d

/-- Commit a work queue's live fields: enable, disable and resume; ENABLE 0 goes before RESUME (R62 to R64, R83). After RESUME the
known producer limit of R69 is F until the PI read returns (DESIGN CHOICE, log entry 68). -/
def commitWq (n q : Nat) (d : Dev) : Dev :=
  let w := d.wq n q
  if !w.dirty then d else
  if w.sh.enable && w.st == .disabled then
    let idx := tabGet 0 (d.slice n).idxBase (q / 512)
    if w.base = 0 || idx = 0 || d.share ≤ w.target.toNat || (d.cq n w.target.toNat).st == .disabled then
      d.modWq n q (fun w => { w with
        cfgRefused := true, dirty := false, resume := false, sh := { w.sh with enable := false } })
    else
      writeCi n q (d.modWq n q (fun w => { w with
        lc := w.sh, dirty := false, resume := false, cfgRefused := false, st := .active, ci := w.start, ciF := none, f := w.start,
        s := w.start, lastPi := w.start, lim := w.start, held := [], exec := [], rds := [], errPend := none, turns := 0 }))
  else if w.sh.enable then
    let d := d.modWq n q (fun w => { w with lc := w.sh, dirty := false, resume := false, cfgRefused := false })
    if w.resume && w.st == .error then
      ringWq n q (d.modWq n q (fun w => { w with st := .active, lastPi := w.f, lim := w.f }))
    else d
  else
    let d := d.modWq n q (fun w => { w with lc := w.sh, dirty := false, resume := false, cfgRefused := false })
    if w.st == .active || w.st == .error then d.modWq n q (fun w => { w with st := .draining }) else d

/-- The commits of one slice's queues in the order of R62; numbers at or above the share have no commit. A work queue with
nothing left to finish leaves Draining only after the disables of the completion queues. -/
def commitQueues (n : Nat) (d : Dev) : Dev :=
  let cqs := ((d.slice n).cqs.map (fun x => x.1)).filter (fun q => q < d.share)
  let wqs := ((d.slice n).wqs.map (fun x => x.1)).filter (fun q => q < d.share)
  forEach wqs (settleWq n) (forEach cqs (commitCqOff n) (forEach wqs (commitWq n) (forEach cqs (commitCqOn n) d)))

end Sys2Proof.Machine
end

