-- ==== Sys2Proof/Machine/Canvas.lean ====
section
/-! DEFINITION. Canvas pages, chunks and seals, and Wash (R207 to R216, R229, R230, R236), context cache (R93), and device headers and contexts
written back (R89). -/
namespace Sys2Proof.Machine

/-! ### Pages -/

/-- Half and bank of a device page (R207), and the chunk that holds byte k of a transfer's data (R215). -/
def pageHalfNo (p : Nat) : Nat := p / Config.halfPages
def pageBank (p : Nat) : Nat := p % Config.halfPages / Config.bankPages
def chunkOf (k : Nat) : Nat := k / Config.chunkBytes
/-- Bytes of the whole chunks up to byte k, and of the chunks that n bytes fill, the last perhaps in part. -/
def wholeChunks (k : Nat) : Nat := chunkOf k * Config.chunkBytes
def chunkBytesOf (n : Nat) : Nat := cdiv n Config.chunkBytes * Config.chunkBytes

def crcBit (c : Dword) : Dword := if c.getLsbD 0 then (c >>> 1) ^^^ 0x82F63B78 else c >>> 1
def crcByte (c : Dword) (b : Byte) : Dword :=
  crcBit (crcBit (crcBit (crcBit (crcBit (crcBit (crcBit (crcBit (c ^^^ BitVec.setWidth 32 b))))))))
/-- CRC-32C (R216): the seal of the bytes of a chunk, full or partial, in bus order. -/
def crc32c (bs : List Byte) : Dword := (bs.foldl crcByte 0xFFFFFFFF) ^^^ 0xFFFFFFFF
/-- The seal of a chunk once one byte more is in it; 0 is the seal of no bytes. -/
def sealByte (c : Dword) (b : Byte) : Dword := crcByte (c ^^^ 0xFFFFFFFF) b ^^^ 0xFFFFFFFF
/-- Seals of a transfer's chunks once these bytes enter at stream offset off. -/
def sealBytes (seals : Tab Dword) : Nat → List Byte → Tab Dword
  | _, [] => seals
  | off, b :: r => sealBytes (tabPut seals (chunkOf off) (sealByte (tabGet 0 seals (chunkOf off)) b)) (off + 1) r

/-- A storage item under Wash that is no page: context cache entries and plan slots (R229). -/
def washEntry : Nat := 2 * Config.halfPages

/-- Pages of slice n under Wash. -/
def Dev.washing (d : Dev) (n : Nat) : Nat :=
  (((d.half 0).wash ++ (d.half 1).wash).filter (fun w => w.slice == n && w.page < washEntry)).length

/-- The slice's free pages: its share less what is carved and reserved; pages under Wash count as free (R213). -/
def Dev.freePages (d : Dev) (n : Nat) : Nat :=
  Config.sharePages d.S - ((d.eng n).carved + (d.eng n).reserved)

/-- Pages of bank b in a pool or under Wash, and the free pages of a powered bank. -/
def Half.inBank (h : Half) (b : Nat) : Nat := (h.used.filter (fun p => pageBank p == b)).length
def Half.bankFree (h : Half) (b : Nat) : Nat := if bitOf h.bankOn b then Config.bankPages - h.inBank b else 0

/-- The powered bank with the most free pages, the lowest on ties, without the previous page's bank where another has a
free page (R236). -/
def Half.pickBank (h : Half) (prev : Option Nat) : Option Nat :=
  let all := (List.range 16).filter (fun b => h.bankFree b != 0)
  let cand := if (all.filter (fun b => some b != prev)).isEmpty then all else all.filter (fun b => some b != prev)
  cand.foldl (fun m b => match m with
    | none => some b
    | some a => if h.bankFree a < h.bankFree b then some b else some a) none

/-- The lowest free page of a bank of half hf. Any free page of the bank would do: nothing shows which (R208). -/
def Half.freePage (h : Half) (hf b : Nat) : Option Nat :=
  ((List.range Config.bankPages).map (fun i => Config.halfPages * hf + Config.bankPages * b + i)).find? (fun p => !(h.used.contains p))

/-- Take up to k pages of half hf, one by one, each from the bank of R236, as far as the powered banks have free pages; prev is
the pool's last page. -/
def Half.take (h : Half) (hf : Nat) (prev : Option Nat) : Nat → List Nat → List Nat × Half
  | 0, acc => (acc, h)
  | k + 1, acc => match (h.pickBank (prev.map pageBank)).bind (h.freePage hf) with
    | none => (acc, h)
    | some p => Half.take { h with used := p :: h.used } hf (some p) k (acc ++ [p])

/-- The half of the pages that serve handle h of slice n (R208). -/
def Dev.pageHalf (d : Dev) (n port : Nat) : Nat := d.dataHalf n (halfOfPort port)

/-- Carve pages of slice n on a half for a pool whose last page is prev, until k are held; got: those held so far. Answers what is
held then: it waits for a Wash when the slice's other free pages are too few, and for the lowest bank without power when no powered
one has a free page (R209, R213, R236). -/
def carve (n hf : Nat) (prev : Option Nat) (k : Nat) (got : List Nat) (d : Dev) : List Nat × Dev :=
  let need := k - got.length
  if Config.sharePages d.S < (d.eng n).carved + d.washing n + need then (got, d) else
  let t := (d.half hf).take hf (if got.isEmpty then prev else got.getLast?) need []
  let d := (d.modHalf hf (fun _ => t.2)).modEng n (fun x => { x with carved := x.carved + t.1.length })
  let all := got ++ t.1
  if k ≤ all.length then (all, d) else
  (all, match (List.range 16).find? (fun b => !(bitOf (d.half hf).bankOn b)) with
    | some b => if (d.half hf).bankWait.isEmpty then d.modHalf hf (fun x => { x with bankWait := [b] }) else d
    | none => d)

/-- Pages leave a pool and go under Wash in the order of their release (R229, R230). -/
def releasePages (n hf : Nat) (pages : List Nat) (d : Dev) : Dev :=
  (d.modHalf hf (fun x => { x with wash := x.wash ++ pages.map (fun p => { slice := n, page := p }) })).modEng n
    (fun x => { x with carved := x.carved - pages.length })

/-- A context cache entry or a plan slot of slice n on half hf goes under Wash (R229). -/
def washSlot (n hf : Nat) : Dev → Dev := Dev.modHalf hf (fun x => { x with wash := x.wash ++ [{ slice := n, page := washEntry }] })

def Ep.pages (x : Ep) : Nat := x.basePg.length + x.leadPg.length + x.addedPg.length
/-- The pool's last page. -/
def Ep.lastPage (x : Ep) : Option Nat := (x.basePg ++ x.leadPg ++ x.addedPg).getLast?

/-- Release every page of an endpoint's pool (R210). -/
def releasePool (n h e : Nat) (d : Dev) : Dev :=
  let x := d.ep n h e
  releasePages n (d.pageHalf n (d.handle n h).port) (x.basePg ++ x.leadPg ++ x.addedPg)
    (d.modEp n h e (fun x => { x with basePg := [], leadPg := [], addedPg := [] }))

/-! ### Contexts in host memory (R89, R93) -/

/-- Write the device header (R89). -/
def writeHeader (n h : Nat) (d : Dev) : Dev :=
  let x := d.handle n h
  hostWrite n (d.pageHalf n x.port) 0 x.ctxAddr (dwBytes (headerDws x (d.localPort x.port))) d

/-- Write back endpoint context e, and with it the stream contexts in use (R89, R115). -/
def writeCtx (n h e : Nat) (d : Dev) : Dev :=
  let x := d.handle n h
  let hf := d.pageHalf n x.port
  let ep := x.ep e
  let d := hostWrite n hf 0 (x.ctxAddr + 64 * e) (dwBytes (contextDws ep d.freeCtr)) { d with freeCtr := d.freeCtr + 1 }
  if ep.cfg.streams then
    ep.rings.foldl (fun d r => if r.1 = 0 || !r.2.loaded then d else
      hostWrite n hf 0 (ep.base + 16 * (r.1 - 1)) (dwBytes (streamDws r.2)) d) d
  else d

/-- The context of an admitted periodic endpoint is pinned (R93). -/
def Dev.pinned (d : Dev) (n : Nat) (c : Nat × Nat) : Bool := c.2 != 0 && (d.ep n c.1 c.2).admitted

/-- Use a context on chip: it becomes the most recent; one that is new takes the place of the least recent unpinned one,
which is written back (R93). fresh: it comes from an input context and needs no read. -/
def touch (n h e : Nat) (fresh : Bool) (d : Dev) : Dev :=
  let x := d.eng n
  let c := (h, e)
  if x.cached.contains c then d.modEng n (fun x => { x with cached := x.cached.erase c ++ [c] }) else
  let d := if x.cached.length < Config.shareContexts d.S then d else
    match x.cached.find? (fun v => !(d.pinned n v)) with
    | none => d
    | some v =>
      let d := d.modEng n (fun x => { x with cached := x.cached.erase v })
      if v.2 = 0 then writeHeader n v.1 d else writeCtx n v.1 v.2 d
  let d := d.modEng n (fun x => { x with cached := x.cached ++ [c] })
  if fresh then d else
  let hd := d.handle n h
  hostRead n (d.pageHalf n hd.port) (hd.ctxAddr + 64 * e) 64 (.context h e)
    (if e = 0 then d else d.modEp n h e (fun x => { x with reload := true }))

/-- Use the header of an open handle and, for an endpoint that is not Disabled, its context (R93). -/
def useCtx (n h e : Nat) (d : Dev) : Dev :=
  if (d.handle n h).st == .closed then d else
  let d := touch n h 0 false d
  if e = 0 || (d.ep n h e).st == .disabled then d else touch n h e false d

/-- A context leaves the cache for good (closed or disabled), and its entry goes under Wash (R229). -/
def dropCtx (n h e : Nat) (d : Dev) : Dev :=
  let d := if (d.eng n).cached.contains (h, e) then washSlot n (d.pageHalf n (d.handle n h).port) d else d
  d.modEng n (fun x => { x with cached := x.cached.erase (h, e) })

/-- TARGET_CQ is within the share and Active (R92 rule 9). -/
def Dev.cqActive (d : Dev) (n q : Nat) : Bool := q < d.share && (d.cq n q).st == .active

/-! ### DMA request generators and fragment walkers (R486) -/

/-- The in-service unit of a half with the fewest transfers, the lowest on ties; base 0 generators, 16 walkers. -/
def Half.pickUnit (x : Half) (base : Nat) : Nat :=
  let c := (List.range 16).filter (fun i => !(bitOf x.genOut (base + i)) && !(bitOf x.genFenced (base + i)))
  (c.foldl (fun m i => match m with
    | none => some i
    | some a => if tabGet 0 x.genLoad (base + i) < tabGet 0 x.genLoad (base + a) then some i else some a) none).getD 0

/-- Change a unit's count of transfers. -/
def genAdd (hf u : Nat) (up : Bool) : Dev → Dev :=
  Dev.modHalf hf (fun x => { x with
    genLoad := tabPut x.genLoad u (if up then tabGet 0 x.genLoad u + 1 else tabGet 0 x.genLoad u - 1) })

end Sys2Proof.Machine
end

