-- ==== Sys2Proof/Machine/Rings.lean ====
section
/-! DEFINITION. Transfer rings and transfers: ring reads and the window (R106 to R110), validation (R117, R118), starting and
feeding transfers (R109, R112, R214), the DMA path (R215 to R222), completions, stops and halts (R99, R100, R119 to R123). -/
namespace Sys2Proof.Machine

/-! ### Small readers -/

/-- The half whose engines move the endpoint's data. -/
def Dev.epHalf (d : Dev) (n h : Nat) : Nat := d.pageHalf n (d.handle n h).port
/-- MAX_PACKET in use; index 1 takes EP0_MPS of the header (R90, R96). -/
def Dev.mps (d : Dev) (n h e : Nat) : Nat := if e = 1 then (d.handle n h).ep0Mps else (d.ep n h e).cfg.maxPacket
def Ep.mode (x : Ep) : EpType := x.cfg.type
def Dev.mf (d : Dev) (hf : Nat) : Nat := (d.half hf).mf.toNat

/-- The completion is of endpoint e of handle h (R119). -/
def Comp.ofEp (h e : Nat) (c : Comp) : Bool :=
  bitsOf (dwAt c.dws 1) 17 16 == 1 && bitsOf (dwAt c.dws 1) 4 0 == e && bitsOf (dwAt c.dws 2) 12 0 == h
/-- A completion of the endpoint is held for a full queue (R78), or not yet written. -/
def Dev.epCompHeld (d : Dev) (n h e : Nat) : Bool := (d.cq n (d.ep n h e).cfg.targetCq).held.any (Comp.ofEp h e)
def Dev.epCompDue (d : Dev) (n h e : Nat) : Bool := d.epCompHeld n h e || (d.eng n).due.any (fun u => u.comp.ofEp h e)

/-- The endpoint's rings act: Running and not being stopped (R98). -/
def Ep.acts (x : Ep) : Bool := x.st == .running && !x.stopping
/-- Its rings are read: also while a transfer that ends has later entries to pass over (R99, R114, R166). -/
def Ep.readsOn (x : Ep) : Bool := x.acts || x.xfer.any (fun t => t.ending.isSome)

def ringReadOf (h e st : Nat) : ReadRef → Bool
  | .transferEntry a b c => a == h && b == e && c == st
  | .streamCtx a b c => a == h && b == e && c == st
  | _ => false
def xferReadOf (h e : Nat) : ReadRef → Bool
  | .fragment a b _ => a == h && b == e
  | .data a b _ => a == h && b == e
  | _ => false

/-- A ring that holds no entry: the fetch point is DEQUEUE (R98). -/
def Ring.drop (r : Ring) : Ring :=
  { r with
    held := [], fetch := r.deq, fcyc := r.cyc, pos := r.deq, pcyc := r.cyc, rdOut := false, rdAgain := false, full := false,
    cFirst := true, cDue := 0, cSetup := [], cSum := 0, cLinks := 0, cTag := 0, bad := none, failed := none }

/-- A transfer's request generator and fragment walker are free again (R486). -/
def freeUnits (x : Xfer) (d : Dev) : Dev :=
  let d := genAdd x.half x.gen false d
  if x.walks then genAdd x.half (16 + x.walker) false d else d

/-- A transfer is given up with no completion: its units are free, and its reads serve nothing. -/
def giveUp (n h e : Nat) (x : Xfer) (d : Dev) : Dev :=
  freeUnits x (cancelWhere n (fun r => xferReadOf h e r.r && r.tag == x.uid) d)

/-- Give up what is prepared ahead for held transfers, which are no longer held. -/
def dropPre (n h e : Nat) (d : Dev) : Dev :=
  ((d.ep n h e).pre.foldl (fun d x => giveUp n h e x d) d).modEp n h e (fun y => { y with pre := [] })

/-- The started transfers of other streams are given up where the endpoint halts: DEQUEUE points to their first entries (DESIGN CHOICE,
log entry 68: R98 has the device hold no entry then, and R123 gives no code for them). -/
def dropParked (n h e : Nat) (d : Dev) : Dev :=
  ((d.ep n h e).parkedX.foldl (fun d x => giveUp n h e x d) d).modEp n h e (fun y => { y with parkedX := [] })

/-- Discard the held entries of one ring. -/
def dropRing (n h e st : Nat) (d : Dev) : Dev := cancelReads n (ringReadOf h e st) (dropPre n h e (d.modRing n h e st Ring.drop))

/-- Discard the held entries of every ring of an endpoint (R98). -/
def dropAll (n h e : Nat) (d : Dev) : Dev :=
  forEach ((d.ep n h e).rings.map (fun r => r.1)) (fun st d => dropRing n h e st (d.modRing n h e st (fun r => { r with
    sst := .idle }))) d

/-- Stream contexts are read again at their next use (R115). -/
def unloadStreams (n h e : Nat) : Dev → Dev :=
  Dev.modEp n h e (fun x => { x with
    rings := x.rings.map (fun r => if r.1 = 0 then r else (r.1, { r.2 with loaded := false }))
    bus := { x.bus with curStream := 0, erdyQ := [] } })

/-! ### Ring reads -/

/-- One read at the fetch point: at most 256 bytes, not across a 256-byte boundary, at most 8 entries held (R109). -/
def readRing (n h e st : Nat) (d : Dev) : Dev :=
  let r := d.ring n h e st
  let len := min (256 - r.fetch % 256) (32 * (8 - r.held.length))
  if r.bad.isSome || r.failed.isSome then d
  else if len = 0 then d.modRing n h e st (fun r => { r with rdAgain := false, full := true }) else
  hostRead n (d.epHalf n h) r.fetch len (.transferEntry h e st)
    (d.modRing n h e st (fun r => { r with rdOut := true, rdAgain := false, full := false }))

/-- Read again: now, or once the outstanding read has returned; a stream's context first (R110, R115). -/
def pokeRing (n h e st : Nat) (d : Dev) : Dev :=
  let x := d.ep n h e
  let r := d.ring n h e st
  if !x.readsOn || x.lost then d
  else if !r.loaded then
    if r.rdOut then d else
    hostRead n (d.epHalf n h) (x.base + 16 * (st - 1)) 16 (.streamCtx h e st)
      (d.modRing n h e st (fun r => { r with rdOut := true }))
  else if r.rdOut then d.modRing n h e st (fun r => { r with rdAgain := true })
  else if !x.mode.periodic && d.epCompHeld n h e then d.modRing n h e st (fun r => { r with full := true })
  else readRing n h e st d

/-- How the held entry changes what is due next (R105, R113). -/
def Ring.note (r : Ring) (e : List Dword) : Ring :=
  let ty := teType e
  let r := { r with cTag := if r.cFirst && ty != 5 then teTag e else r.cTag, cLinks := if ty = 5 then r.cLinks + 1 else 0 }
  if ty = 5 then r
  else if ty = 1 && teChain e then { r with cFirst := false, cSum := r.cSum + teLen e }
  else if ty = 2 then { r with cFirst := false, cSetup := e, cDue := if teTrt e = 0 then 2 else 1 }
  else if ty = 3 then { r with cDue := 2 }
  else { r with cFirst := true, cDue := 0, cSum := 0, cSetup := [] }

/-- Hold the entries of one read: up to the first that is not device-owned (answer true), a Link (read on at its target), or
a malformed one, which ends the ring (R109, R117); slow: the read broke the bound of R147. -/
def holdEntries (c : EpCfg) (mf : Nat) (slow : Bool) : List (List Dword) → Ring → Bool × Ring
  | [], r => (false, r)
  | e :: rest, r =>
    if teCycle e != r.fcyc then (true, r)
    else
      let why := teReason c r.fetch
        { first := r.cFirst, due := r.cDue, setup := r.cSetup, sum := r.cSum, links := r.cLinks } e
      if why != 0 then
        (true, { r with bad := some (r.fetch, why, if r.cFirst then teTag e else r.cTag) })
      else
        let r : Ring := { r.note e with held := r.held ++ [{ addr := r.fetch, dws := e, mf := mf, links := r.cLinks, slow := slow }] }
        if teType e = 5 then (false, { r with fetch := tePtr e, fcyc := if teToggle e then !r.fcyc else r.fcyc })
        else holdEntries c mf slow rest { r with fetch := r.fetch + 32 }

/-! ### Transfers: stream bytes and host bytes -/

/-- First stream offset still in the buffer of an IN transfer; groups of four are kept whole for the swap. -/
def Xfer.base (x : Xfer) : Nat := x.issued - x.issued % 4
/-- IN: bytes received. -/
def Xfer.recv (x : Xfer) : Nat := x.base + x.buf.length
/-- Bytes moved on the bus. -/
def Xfer.done (x : Xfer) : Nat := if x.isIn then x.recv else x.moved
/-- BYTES of the completion (R119): IN written to the host, OUT acknowledged. -/
def Xfer.bytes (x : Xfer) : Nat := if x.isIn then x.issued else x.moved

/-- Where byte k of the host order lies in bus order, of total bytes (R222). -/
def swapAt (mode k total : Nat) : Nat :=
  if mode = 1 then (if k / 2 * 2 + 2 ≤ total then 4 * (k / 4) + [1, 0, 3, 2].getD (k % 4) 0 else k)
  else if mode = 2 then (if k / 4 * 4 + 4 ≤ total then 4 * (k / 4) + [2, 3, 0, 1].getD (k % 4) 0 else k)
  else k

/-- Whole swap groups of n bytes. -/
def swapWhole (mode n : Nat) : Nat := if mode = 1 then n - n % 2 else if mode = 2 then n - n % 4 else n

/-- The pieces of the fragments that hold stream bytes a to b: host address, stream offset, length (R218). -/
def pieces (a b : Nat) : Nat → List (Nat × Nat) → List (Nat × Nat × Nat)
  | _, [] => []
  | off, (addr, len) :: r =>
    let lo := max a off
    let hi := min b (off + len)
    if lo < hi then (addr + (lo - off), lo, hi - lo) :: pieces a b (off + len) r else pieces a b (off + len) r

/-- The fragment that holds stream byte k ends at this stream offset. -/
def fragEnd (k : Nat) : Nat → List (Nat × Nat) → Nat
  | off, [] => off
  | off, (_, len) :: r => if k < off + len then off + len else fragEnd k (off + len) r

/-- The link of the transfer's data: the one chosen at its start while it carries, else the slice's path (R224, R246). -/
def Dev.xferLink (d : Dev) (n : Nat) (x : Xfer) : Option Nat :=
  match x.link with
  | some f => if d.carriesOld n f && d.reach x.half f && !((d.eng n).waiting x.half) then some f else d.chooseLink n x.half
  | none => d.chooseLink n x.half

/-- Issue host bytes of an IN transfer, or keep them for the path (R218, R246). -/
def putBytes (n : Nat) (x : Xfer) (addr : Nat) (bytes : List Byte) (d : Dev) : Dev :=
  match d.xferLink n x with
  | some f => issueWrite n x.half f x.uid addr bytes true d
  | none => d.modEng n (fun g => { g with
      unconf := g.unconf ++ [{ id := g.wseq, f := 0xFF, addr := addr, bytes := bytes, half := x.half, tag := x.uid, data := true
                               wait := true }]
      wseq := g.wseq + 1 })

/-- The requests of stream bytes a to b, as (address, offset, length); while the transfer runs (all false) a request that
does not reach its own end waits (R218, R220). -/
def requests (w a b : Nat) (frags : List (Nat × Nat)) (all : Bool) : List (Nat × Nat × Nat) :=
  (pieces a b 0 frags).flatMap (fun p =>
    ((cuts w p.1 p.2.2).map (fun c => (c.1, p.2.1 + (c.1 - p.1), c.2))).filter (fun c =>
      all || (c.1 + c.2.2) % w == 0 || c.2.1 + c.2.2 == fragEnd c.2.1 0 frags))

/-- Issue the IN bytes that may go: whole chunks while the transfer runs, whole swap groups when the funnel hold expires,
everything at its end (R217, R220). -/
def flushIn (n h e : Nat) (early final : Bool) (d : Dev) : Dev :=
  match (d.ep n h e).xfer with
  | none => d
  | some x =>
    if !x.isIn then d else
    let total := x.recv
    let upto := if final then total else if early then swapWhole x.swap total else total / 512 * 512
    let w := match d.xferLink n x with
      | some f => d.wWrite f
      | none => 512
    let reqs := requests w x.issued upto x.frags (final || early)
    let stop := reqs.foldl (fun _ q => q.2.1 + q.2.2) x.issued
    let d := reqs.foldl (fun d q =>
      putBytes n x q.1 ((List.range q.2.2).map (fun i => x.buf.getD (swapAt x.swap (q.2.1 + i) total - x.base) 0)) d) d
    d.modXfer n h e (fun y => { y with
      issued := stop, buf := y.buf.drop ((stop - stop % 4) - y.base), seals := y.seals.filter (fun s => chunkOf stop ≤ s.1) })

/-- Byte k of the stream as read from the host, none while it is not on chip. -/
def Xfer.hostByte (x : Xfer) (k : Nat) : Option Byte :=
  (x.segs.find? (fun s => s.1 ≤ k && k < s.1 + s.2.length)).bind (fun s => s.2[k - s.1]?)

/-- Bytes of an OUT transfer from stream offset off on, in bus order, when all of them are in the pool (R221). -/
def Xfer.busBytes (x : Xfer) (off len : Nat) : Option (List Byte) :=
  ((List.range len).map (fun i => x.hostByte (swapAt x.swap (off + i) x.length))).foldr
    (fun b acc => match b, acc with | some b, some l => some (b :: l) | _, _ => none) (some [])

/-- The next packet of an OUT transfer, when all its bytes are in the pool (R163). -/
def Xfer.packet (x : Xfer) (len : Nat) : Option (List Byte) := x.busBytes x.moved len

/-- The DMA engine seals the chunks of an OUT transfer that are now whole on chip, from the one that holds byte off to the one that
holds byte off + len (R216, R217). -/
def Xfer.sealOut (x : Xfer) (off len : Nat) : Xfer :=
  { x with seals := ((List.range (chunkOf (off + len) - chunkOf off + 1)).map (fun i => chunkOf off + i)).foldl (fun t c =>
      let lo := c * Config.chunkBytes
      match x.busBytes lo (min Config.chunkBytes (x.length - lo)) with
      | some (b :: l) => tabPut t c (crc32c (b :: l))
      | _ => t) x.seals }

/-- Bytes of the endpoint's pool. -/
def Ep.poolBytes (x : Ep) : Nat := Config.pageBytes * x.pages

/-- The transfer with a tag: the started one, or one prepared ahead. -/
def Dev.xferOf (d : Dev) (n h e uid : Nat) : Option Xfer :=
  ((d.ep n h e).xfer.toList ++ (d.ep n h e).pre).find? (fun x => x.uid == uid)
def Dev.modXferOf (n h e uid : Nat) (g : Xfer → Xfer) : Dev → Dev :=
  Dev.modEp n h e (fun y => { y with
    xfer := y.xfer.map (fun x => if x.uid == uid then g x else x), pre := y.pre.map (fun x => if x.uid == uid then g x else x) })

/-- Issue data reads of an OUT transfer up to a stream offset (R218, R219). -/
def fillTo (n h e : Nat) (x : Xfer) (limit : Nat) (d : Dev) : Dev :=
  match d.xferLink n x with
  | none => d
  | some f =>
    let reqs := (requests (d.wRead f) x.issued x.fragSum x.frags true).filter (fun q => q.2.1 + q.2.2 ≤ limit)
    let d := reqs.foldl (fun d q => issueRead n x.half f q.1 q.2.2 q.2.1 x.uid (.data h e x.stream) d) d
    d.modXferOf n h e x.uid (fun y => { y with issued := reqs.foldl (fun _ q => q.2.1 + q.2.2) y.issued })

/-- Bytes of the OUT pool that the held transfers take: each begins on a fresh chunk (R215). -/
def Ep.preBytes (x : Ep) : Nat := (x.pre.map (fun p => chunkBytesOf p.issued)).foldl (· + ·) 0

/-- Issue data reads of the started OUT transfer as far as the pool has room (R215). -/
def fillOut (n h e : Nat) (d : Dev) : Dev :=
  let ep := d.ep n h e
  match ep.xfer with
  | none => d
  | some x => if x.isIn || !x.started || x.ending.isSome then d else
      fillTo n h e x (min x.fragSum (wholeChunks x.moved + (ep.poolBytes - ep.preBytes))) d

/-- Every byte of the transfer's data that is known is being read, and no entry of it is missing. -/
def Xfer.allRead (x : Xfer) : Bool := x.started && !x.more && !x.fragDue && x.fragSum ≤ x.issued

/-- Read the data of held OUT transfers in ring order, each once all before it are read, as far as the pool has room (R215). -/
def fillPre (n h e : Nat) : List Nat → Dev → Dev
  | [], d => d
  | u :: r, d =>
    let ep := d.ep n h e
    match d.xferOf n h e u with
    | none => d
    | some p =>
      let own := ep.xfer.elim 0 (fun x => chunkBytesOf x.issued - wholeChunks x.moved)
      let room := ep.poolBytes - (own + (ep.preBytes - chunkBytesOf p.issued))
      let d := fillTo n h e p (min p.fragSum room) d
      if (d.xferOf n h e u).any Xfer.allRead then fillPre n h e r d else d

/-! ### Completing a transfer -/

/-- A KIND 1 completion (R119). -/
def xferComp (h e code reason : Nat) (tag : Dword) (stream stage bytes entry mf skipped : Nat) (irq : Bool)
    (link : Option Nat) : Comp :=
  { dws := compDws tag.toNat e 1 code (h + 0x10000 * stream + 0x2000000 * stage) (bytes + 0x1000000 * reason) entry
      (mf % 65536 + 0x10000 * min skipped 255)
    irq := irq, link := link }

/-- A completion of the endpoint that belongs to no transfer: TAG 0, BYTES 0, ENTRY_ADDR DEQUEUE (R78, R121, R247). -/
def postRun (n h e code reason mf count : Nat) (d : Dev) : Dev :=
  let x := d.ep n h e
  post n x.cfg.targetCq (xferComp h e code reason 0 0 0 0 (x.ring 0).deq mf count false none) d

/-- A run of opportunities with no transfer ends with its one completion (R121). -/
def endRun (n h e : Nat) (d : Dev) : Dev :=
  let y := d.ep n h e
  if y.runLen = 0 then d else
  postRun n h e (if epIsIn e then 0x19 else 0x1A) 0 y.runMf y.runLen (d.modEp n h e (fun z => { z with runLen := 0 }))

/-- The state after a completion that halts, with the context written back (R89, R98). -/
def haltEp (n h e code reason errAddr : Nat) (malformed : Bool) (d : Dev) : Dev :=
  let d := dropParked n h e (endRun n h e d)
  unloadStreams n h e (writeCtx n h e (dropAll n h e (d.modEp n h e (fun x => { x with
    st := if malformed then .haltedMalformed else .halted, haltCode := BitVec.ofNat 8 code
    haltReason := BitVec.ofNat 8 reason, errAddr := errAddr, service := false, runIn := false }))))

/-- How a transfer ends. -/
structure XEnd where
  code : Nat
  reason : Nat := 0
  /-- DEQUEUE passes the transfer; otherwise it points to its first entry -/
  consume : Bool := true
  /-- ENTRY_ADDR where it is not the last entry used -/
  entry : Option Nat := none
  /-- IN: received bytes are written up to this stream offset only, and the rest is discarded (R150, R159, R217) -/
  keep : Option Nat := none

/-- Entries of the transfer that follow in the window are passed over: the last of them, and the slot after it. -/
def skipRest (ctl : Bool) : List TEnt → Ring → Xfer → Ring × Xfer
  | [], r, x => ({ r with held := [] }, x)
  | t :: rest, r, x =>
    if !x.more then ({ r with held := t :: rest }, x)
    else if teType t.dws = 5 then
      skipRest ctl rest { r with pos := tePtr t.dws, pcyc := if teToggle t.dws then !r.pcyc else r.pcyc }
        { x with nextDeq := tePtr t.dws, nextCyc := if teToggle t.dws then !x.nextCyc else x.nextCyc }
    else
      skipRest ctl rest { r with pos := t.addr + 32 }
        { x with last := t.addr, nextDeq := t.addr + 32, more := if ctl then teType t.dws != 4 else teChain t.dws }

/-- Code of ASSIGN_ADDRESS when its SET_ADDRESS ends with a code: those of R95, and otherwise the nearest that R123 gives an opcode
(DESIGN CHOICE, log entry 68, for what R95 does not name: a Babble is a failed transfer, anything else that cuts it leaves Default). -/
def assignCode (code : Nat) : Nat :=
  if code = 0x07 || code = 0x05 || code = 0x0F || code = cDetached || code = cDataBuffer || code = cIntegrity then code
  else if code = cDomainOff then cDetached else if code = 0x04 then 0x05 else cNotPermitted

/-- Received bytes beyond the limit are discarded, but for what is already on its way. -/
def trimIn (n h e : Nat) (keep : Option Nat) (d : Dev) : Dev :=
  match keep with
  | none => d
  | some k => d.modXfer n h e (fun x => if x.isIn then { x with buf := x.buf.take (max k x.issued - x.base) } else x)

/-- Write the completion of the endpoint's transfer and give up its resources (R119, R120, R220, R224, R240). SUPPRESS meets
Success only where the completion is not made Late in the end (R149). -/
def endXfer (n h e : Nat) (z : XEnd) (d : Dev) : Dev :=
  match (d.ep n h e).xfer with
  | none => d
  | some x0 =>
    match x0.assign with
    | some (q, i, _) =>
      -- SET_ADDRESS of ASSIGN_ADDRESS uses no ring and has no completion of its own (R95)
      let d := freeUnits x0 (d.modEp n h e (fun y => { y with xfer := none, service := false }))
      if z.code = cOk then modEnt n q i (fun g => { g with phase := 3 }) d else finishWe n q i (assignCode z.code) {} d
    | none =>
    -- the entries that the ending passes over
    let used := x0.last
    let t := if z.consume && x0.more then skipRest x0.control ((d.ring n h e x0.stream).held) (d.ring n h e x0.stream) x0
      else (d.ring n h e x0.stream, x0)
    let d := (d.modRing n h e x0.stream (fun _ => t.1)).modEp n h e (fun y => { y with xfer := some t.2 })
    let d := flushIn n h e false true (trimIn n h e z.keep d)
    match (d.ep n h e).xfer with
    | none => d
    | some x =>
      let ep := d.ep n h e
      let whole := z.code = cShort || z.code = 0x07 || z.code = cOk || z.code = 0x13
      let entry := z.entry.getD (if !z.consume then x.first else if whole then x.last else used)
      let bytes := if z.code = cMissed || (z.code = 0x04 && ep.mode == .iso) then 0 else x.bytes
      let d := d.modRing n h e x.stream (fun r =>
        if z.consume then { r with deq := x.nextDeq, cyc := x.nextCyc } else { r with deq := x.first, cyc := x.cyc0 })
      let c := xferComp h e z.code z.reason x.tag x.stream (if x.control then x.stage else 0) bytes entry x.serviceMf 0 x.irq
        (if x.isIn then x.link else none)
      let un := (d.eng n).unconf
      let d := giveUp n h e x (d.modEp n h e (fun y => { y with
        xfer := none, service := false, bus := { y.bus with strDone := true }
        olds := if x.isIn then y.olds.filter (fun o => un.any (fun w => w.tag == o.1)) ++ [(x.uid, x.issued)] else y.olds }))
      let hf := x.half
      postDue n { cq := ep.cfg.targetCq, comp := c, tag := x.uid, mute := x.suppress && z.code == cOk
                  limit := if ep.mode.periodic then some (hf, d.mf hf + 3) else none } d

/-- R118, R112: a malformed entry, table or stream context at an address; cyc is the ring's cycle state there. -/
def malformed (n h e st addr reason : Nat) (cyc : Bool) (tag : Dword) (d : Dev) : Dev :=
  let d := endRun n h e d
  let ep := d.ep n h e
  let d := match ep.xfer with
    | some x => if x.stream = st && reason != 11 then
        endXfer n h e { code := cMalformed, reason := reason, consume := false, entry := some addr } d
      else post n ep.cfg.targetCq (xferComp h e cMalformed reason tag st 0 0 addr 0 0 false none) d
    | none => post n ep.cfg.targetCq (xferComp h e cMalformed reason tag st 0 0 addr 0 0 false none) d
  let d := haltEp n h e cMalformed reason addr true d
  if reason = 10 || reason = 11 then d else
  d.modRing n h e st (fun r => { r with fetch := addr, fcyc := cyc })

/-- A read of an entry or fragment table of the started transfer failed (R485); addr is the entry. -/
def xferReadFailed (n h e addr : Nat) (cyc : Bool) (d : Dev) : Dev :=
  match (d.ep n h e).xfer with
  | none => d
  | some x =>
    let movedAny := x.done != 0
    let d := endXfer n h e { code := cDataBuffer, consume := false, entry := some addr } d
    let d := doIf movedAny (fun d => d.modRing n h e x.stream (fun r => { r with deq := addr, cyc := cyc })) d
    haltEp n h e cDataBuffer 0 0 false d

/-- The endpoint's stop is complete: held entries discarded, context written back, Stopped (R99); a wait for ERDY and a split
sequence of the transfer that was cut end with it (R174, R181). -/
def enterStopped (n h e : Nat) (d : Dev) : Dev :=
  let d := endRun n h e d
  let d := dropAll n h e (d.modEp n h e (fun x => { x with
    st := .stopped, service := false, runIn := false, bus := { x.bus with
      level := 0, naks := 0, waiting := false, pkts := 0, turns := 0, parked := false, csplit := false, pinging := false } }))
  unloadStreams n h e (writeCtx n h e d)

/-! ### Transfers that end before their last entry is read (R99, R114, R166) -/

/-- The window holds the last entry of the transfer at its head. -/
def wholeXfer (ctl : Bool) : List TEnt → Bool
  | [] => false
  | t :: r => let ty := teType t.dws
    if ty = 5 then wholeXfer ctl r else if ty = 6 then true
    else if ctl then (ty == 4 || wholeXfer ctl r) else (!(teChain t.dws) || wholeXfer ctl r)

/-- The transfer has later entries to pass over: those held are passed over, and it ends once the last of them is, or no more can
come. -/
def finishCut (n h e : Nat) (d : Dev) : Dev :=
  match (d.ep n h e).xfer with
  | none => d
  | some x =>
    match x.ending with
    | none => d
    | some z =>
      let r := d.ring n h e x.stream
      let t := skipRest x.control r.held r x
      let d := (d.modRing n h e x.stream (fun _ => t.1)).modEp n h e (fun y => { y with xfer := some t.2 })
      if !t.2.more || r.bad.isSome || r.failed.isSome then endXfer n h e { code := z.1, reason := z.2 } d else d

/-- End the transfer consumed, with DEQUEUE after its last entry: entries of it that are not yet read are read first. -/
def endPast (n h e : Nat) (z : XEnd) (d : Dev) : Dev :=
  match (d.ep n h e).xfer with
  | none => d
  | some x =>
    let r := d.ring n h e x.stream
    if !x.more || wholeXfer x.control r.held || r.bad.isSome || r.failed.isSome || (d.ep n h e).lost then endXfer n h e z d
    else
      let d := finishCut n h e ((trimIn n h e z.keep d).modXfer n h e (fun x => { x with ending := some (z.code, z.reason) }))
      if (d.ep n h e).stopping || (d.ring n h e x.stream).full then pokeRing n h e x.stream d else d

/-- Stop the started transfer: Stopped where no byte moved, else Stopped short; one that already ends is waited for (R99). -/
def stopXfer (n h e : Nat) (d : Dev) : Dev :=
  match (d.ep n h e).xfer with
  | none => d
  | some x =>
    if !x.started then giveUp n h e x (d.modEp n h e (fun y => { y with xfer := none }))
    else match x.ending with
      | some z =>
        if (d.ep n h e).lost then endXfer n h e { code := z.1, reason := z.2 } d
        else if (d.ring n h e x.stream).rdOut then d else pokeRing n h e x.stream d
      | none => if x.done = 0 then endXfer n h e { code := 0x0B, consume := false } d else endPast n h e { code := 0x0C } d

/-- Stop the transfers of every stream, one after the other (R116). -/
def stopAllXfers (n h e : Nat) (d : Dev) : Dev :=
  (d.ep n h e).parkedX.foldl (fun d x => if (d.ep n h e).xfer.isSome then d else stopXfer n h e (d.modEp n h e (fun y => { y with
    xfer := some x, parkedX := y.parkedX.erase x }))) (stopXfer n h e d)

/-! ### Starting and feeding -/

/-- Read a fragment table of the transfer with a tag (R112). -/
def readTable (n h e uid addr count : Nat) (d : Dev) : Dev :=
  match d.xferOf n h e uid with
  | none => d
  | some x => hostReadOff n x.half addr (16 * count) 0 uid (.fragment h e x.stream)
      (d.modXferOf n h e uid (fun x => { x with fragDue := true, tables := x.tables + 1 }))

/-- A fragment walker serves the transfer from its first table on (R486). -/
def takeWalker (n h e uid : Nat) (d : Dev) : Dev :=
  match d.xferOf n h e uid with
  | none => d
  | some x => if x.walks then d else
    let u := (d.half x.half).pickUnit 16
    genAdd x.half (16 + u) true (d.modXferOf n h e uid (fun x => { x with walks := true, walker := u }))

/-- Use a Normal or Data entry: its buffer, or its first fragment table (R103, R111). -/
def useData (n h e : Nat) (t : TEnt) (d : Dev) : Dev :=
  let len := teLen t.dws
  let d := d.modXfer n h e (fun x => { x with
    last := t.addr, nextDeq := t.addr + 32, length := x.length + len, tables := 0, late := x.late || (teFrag t.dws && x.walks)
    more := if x.control then x.more else teChain t.dws, fragLen := len })
  if teFrag t.dws then
    match (d.ep n h e).xfer with
    | some x => readTable n h e x.uid (tePtr t.dws) (teFragM1 t.dws + 1) (takeWalker n h e x.uid d)
    | none => d
  else d.modXfer n h e (fun x => { x with frags := x.frags ++ [(tePtr t.dws, len)], fragSum := x.fragSum + len, fragLen := 0 })

/-- Take the head entry out of the window. -/
def popHeld (n h e st : Nat) (t : TEnt) (d : Dev) : Dev :=
  d.modRing n h e st (fun r => { r with
    held := r.held.drop 1
    pos := if teType t.dws = 5 then tePtr t.dws else t.addr + 32
    pcyc := if teToggle t.dws then !r.pcyc else r.pcyc })

/-- The transfer needs more described bytes before its next packet of up to m bytes. -/
def Xfer.hungry (x : Xfer) (m : Nat) : Bool := x.more && !x.fragDue && x.fragSum < x.done + m

/-- Use later entries of the started transfer as it needs them (R109); control: the Data entry. -/
def feed (n h e m : Nat) : Nat → Dev → Dev
  | 0, d => d
  | k + 1, d => match (d.ep n h e).xfer with
    | none => d
    | some x =>
      if !(x.hungry m) || x.control then d else
      match (d.ring n h e x.stream).held with
      | t :: _ =>
        let d := popHeld n h e x.stream t d
        if teType t.dws = 5 then
          feed n h e m k (d.modXfer n h e (fun x => { x with
            nextDeq := tePtr t.dws, nextCyc := if teToggle t.dws then !x.nextCyc else x.nextCyc, links := x.links + 1 }))
        else feed n h e m k (useData n h e t d)
      | [] =>
        let r := d.ring n h e x.stream
        match r.bad, r.failed with
        | some b, _ => malformed n h e x.stream b.1 b.2.1 r.fcyc b.2.2 d
        | none, some a => xferReadFailed n h e a r.fcyc d
        | none, none => d

/-- What the entries of a transfer say before its data is used (R103, R224). -/
def xferOfEntry (ep : Ep) (e st hf uid gen : Nat) (link : Option Nat) (t : TEnt) : Xfer :=
  let ctl := ep.mode == .control
  { first := t.addr, last := t.addr, nextDeq := t.addr + 32, stream := st
    tag := teTag t.dws, suppress := teSuppress t.dws, irq := teIrq t.dws, started := !(teFrag t.dws), control := ctl
    isIn := if ctl then teTrt t.dws == 3 else epIsIn e, more := ctl, trt := teTrt t.dws
    setup := if ctl then setupBytes t.dws else [], stage := if ctl then 1 else 0
    swap := ep.swap, link := link, half := hf, uid := uid, gen := gen, heldMf := t.mf, links := t.links, late := t.slow }

/-- Begin a transfer at its first entry, with what was prepared for it ahead (R109, R214, R224). -/
def beginXfer (n h e st : Nat) (t : TEnt) (d : Dev) : Dev :=
  let d := useCtx n h e d
  let r := d.ring n h e st
  match (d.ep n h e).pre.find? (fun p => p.first == t.addr) with
  | some p =>
    let d := (popHeld n h e st t d).modEp n h e (fun y => { y with
      pre := y.pre.erase p, xfer := some { p with cyc0 := r.pcyc, nextCyc := r.pcyc } })
    match p.preBad with
    | some 0 => xferReadFailed n h e t.addr r.pcyc d
    | some 1 => malformed n h e st t.addr 8 r.pcyc p.tag d
    | some _ => haltEp n h e cDataBuffer 0 0 false (endXfer n h e { code := cDataBuffer } d)
    | none =>
      if p.sealDead.isSome && (d.ep n h e).mode.periodic then haltEp n h e cIntegrity 0 0 false (endXfer n h e { code := cIntegrity } d)
      else if teFrag t.dws then d
      else useData n h e t (d.modXfer n h e (fun x => { x with frags := [], fragSum := 0, length := 0 }))
  | none =>
    let ep := d.ep n h e
    let hf := d.epHalf n h
    let nt := newTag n d
    let gen := (d.half hf).pickUnit 0
    let x := xferOfEntry ep e st hf nt.1 gen (d.chooseLink n hf) t
    let d := (genAdd hf gen true (popHeld n h e st t nt.2)).modEp n h e (fun y => { y with
      xfer := some { x with cyc0 := r.pcyc, nextCyc := r.pcyc } })
    if ep.mode == .control then d else useData n h e t d

/-- The direct buffers of a held transfer from its first entry on. -/
def chainFrags : List TEnt → List (Nat × Nat)
  | [] => []
  | t :: r => if teType t.dws = 5 then chainFrags r else if teType t.dws != 1 || teFrag t.dws then []
    else (tePtr t.dws, teLen t.dws) :: (if teChain t.dws then chainFrags r else [])

/-- The first entries of the transfers that a window holds and that have not started, with their direct buffers; inside: the entries at
its head go on with the started one. -/
def headsOf (inside : Bool) : List TEnt → List (TEnt × List (Nat × Nat))
  | [] => []
  | t :: r =>
    if teType t.dws = 5 then headsOf inside r
    else if teType t.dws != 1 then headsOf false r
    else if inside then headsOf (teChain t.dws) r
    else (t, chainFrags (t :: r)) :: headsOf (teChain t.dws) r

/-- Prepare a held transfer: what is known of its data, and the read of its first fragment table (R111, R146). -/
def prepareOne (n h e st : Nat) (t : TEnt × List (Nat × Nat)) (d : Dev) : Dev :=
  let ep := d.ep n h e
  let frag := teFrag t.1.dws
  if ep.pre.any (fun p => p.first == t.1.addr) || (!frag && epIsIn e) then d else
  let hf := d.epHalf n h
  let nt := newTag n d
  let gen := (d.half hf).pickUnit 0
  let x := xferOfEntry ep e st hf nt.1 gen (d.chooseLink n hf) t.1
  let sum := (t.2.map (fun f => f.2)).foldl (· + ·) 0
  let x := if frag then { x with length := teLen t.1.dws, fragLen := teLen t.1.dws, more := teChain t.1.dws }
    else { x with frags := t.2, fragSum := sum, length := sum }
  let d := (genAdd hf gen true nt.2).modEp n h e (fun y => { y with pre := y.pre ++ [x] })
  if frag then readTable n h e nt.1 (tePtr t.1.dws) (teFragM1 t.1.dws + 1) (takeWalker n h e nt.1 d) else d

/-- Work ahead on the transfers that the ring holds: a periodic endpoint reads their first tables once they are held, and with now
the data of its next one (R146, R147); a bulk OUT endpoint reads their data in ring order (R215). -/
def prepare (n h e st : Nat) (now : Bool) (d : Dev) : Dev :=
  let ep := d.ep n h e
  let per := ep.mode.periodic
  if !ep.acts || ep.mode == .control || ep.pages = 0 || (!per && epIsIn e) then d else
  let d := (headsOf (ep.xfer.any (fun x => x.stream == st && x.more)) (d.ring n h e st).held).foldl (fun d t => prepareOne n h e st t d) d
  let ps := (d.ep n h e).pre.map (fun p => p.uid)
  if epIsIn e then d
  else if per then (if now then fillPre n h e (ps.take 1) d else d)
  else if (d.ep n h e).xfer.all Xfer.allRead then fillPre n h e ps d else d

/-- Start what the window of a ring holds next: Links are followed, a No-op completes at once, a malformed or failed entry
takes effect once nothing is before it (R104, R106, R118, R485). -/
def startNext (n h e st : Nat) : Nat → Dev → Dev
  | 0, d => d
  | k + 1, d =>
    let ep := d.ep n h e
    let r := d.ring n h e st
    let ctl := ep.mode == .control
    if (!ep.mode.periodic && d.pgDrain (d.handle n h).port) || !ep.acts || ep.xfer.isSome || !r.loaded || ep.bus.curStream != st ||
      d.epCompHeld n h e || (ctl && d.epCompDue n h e) then d else
    let settle := fun (d : Dev) => match r.bad, r.failed with
      | some b, _ => malformed n h e st b.1 b.2.1 r.fcyc b.2.2 d
      | none, some a =>
        let first := (r.held.find? (fun t => teType t.dws != 5)).elim (a, (0 : Dword)) (fun t => (t.addr, teTag t.dws))
        haltEp n h e cDataBuffer 0 0 false
          (post n ep.cfg.targetCq (xferComp h e cDataBuffer 0 first.2 st (b2n ctl) 0 a 0 0 false none)
            (d.modRing n h e st (fun r => { r with deq := first.1, cyc := r.pcyc })))
      | none, none => d
    match r.held with
    | [] => settle d
    | t :: rest =>
      if teType t.dws = 5 then
        startNext n h e st k ((popHeld n h e st t d).modRing n h e st (fun r => { r with deq := r.pos, cyc := r.pcyc }))
      else if r.bad.isSome && !(wholeXfer ctl (t :: rest)) then settle d
      else if ep.mode == .bulk && ep.pages = 0 then
        -- R214: not consumed, the endpoint is Stopped
        enterStopped n h e
          (post n ep.cfg.targetCq (xferComp h e cPoolEmpty 0 (teTag t.dws) st 0 0 t.addr 0 0 (teIrq t.dws) none)
            (d.modRing n h e st (fun r => { r with deq := t.addr, cyc := r.pcyc })))
      else if teType t.dws = 6 then
        let nt := newTag n (popHeld n h e st t d)
        let d := nt.2.modRing n h e st (fun r => { r with deq := t.addr + 32, cyc := r.pcyc })
        let c := xferComp h e cOk 0 (teTag t.dws) st 0 0 t.addr (if ep.mode.periodic then d.mf (d.epHalf n h) else 0) 0
          (teIrq t.dws) none
        startNext n h e st k (if teSuppress t.dws then d else postAfter n ep.cfg.targetCq nt.1 c d)
      else beginXfer n h e st t d

/-- A malformed entry or a failed entry read inside the started transfer ends it when it is found, at the next transaction boundary
(R118, R485). -/
def badInside (n h e st : Nat) (d : Dev) : Dev :=
  let ep := d.ep n h e
  match ep.xfer with
  | none => d
  | some x =>
    let r := d.ring n h e st
    if ep.service || x.stream != st || !x.more || x.ending.isSome || x.assign.isSome || wholeXfer x.control r.held then d else
    match r.bad, r.failed with
    | some b, _ => malformed n h e st b.1 b.2.1 r.fcyc b.2.2 d
    | none, some a => xferReadFailed n h e a r.fcyc d
    | none, none => d

/-- OUT data of a periodic endpoint is read from the microframe before its service (R146); other data at once (R215). -/
def Ep.readsNow (x : Ep) (now : Bool) : Bool := !x.mode.periodic || now

/-! ### Streams on the bus (R176, R177) -/

/-- The active stream gives up the bus and keeps its started transfer (R177). -/
def leaveStream (n h e : Nat) (st : StrSt) (d : Dev) : Dev :=
  let x := d.ep n h e
  let k := x.bus.curStream
  if k = 0 then d else
  let d := cancelReads n (ringReadOf h e k) (dropPre n h e (d.modRing n h e k (fun r =>
    match x.xfer with
    | some t => { Ring.drop { r with deq := t.nextDeq, cyc := t.nextCyc } with
        deq := r.deq, cyc := r.cyc, sst := st, loaded := r.loaded, cFirst := !t.more, cSum := if t.more then t.length else 0
        cTag := t.tag }
    | none => { Ring.drop r with sst := st })))
  d.modEp n h e (fun y => { y with
    parkedX := y.parkedX ++ y.xfer.toList, xfer := none, bus := { y.bus with curStream := 0, lastStream := k } })

/-- A transfer boundary of the active stream: Idle with no entry left, Pending when another waits and it has more work (R176, R177). -/
def streamBoundary (n h e : Nat) (d : Dev) : Dev :=
  let x := d.ep n h e
  let k := x.bus.curStream
  let r := x.ring k
  if !x.cfg.streams || k = 0 || x.xfer.isSome || !x.acts || !r.loaded || r.bad.isSome || r.failed.isSome then d
  else if r.held.isEmpty then (if r.rdOut || r.full then d else leaveStream n h e .idle d)
  else if x.bus.strDone && x.rings.any (fun q => q.1 != k && q.2.sst == .pending) then leaveStream n h e .pending d
  else d

/-- Move everything of the endpoint's ring that can move: start, feed, read data ahead, and read the ring again once fewer
than 8 entries are held (R110). now: the endpoint's next service is at most one microframe away. -/
def pump (n h e st : Nat) (now : Bool) (d : Dev) : Dev :=
  let d := startNext n h e st 10 (streamBoundary n h e (finishCut n h e d))
  let d := badInside n h e st (feed n h e (d.mps n h e) 16 d)
  let d := prepare n h e st now (if (d.ep n h e).readsNow now then fillOut n h e d else d)
  let r := d.ring n h e st
  if (d.ep n h e).readsOn && r.full && r.held.length < 8 && !r.rdOut then pokeRing n h e st d else d

/-- The stream that the bus has selected; 0 without streams. -/
def Dev.curStream (d : Dev) (n h e : Nat) : Nat := (d.ep n h e).bus.curStream

/-- A read of transfer entries returned: the next read is cut for what is held then, and what can start starts (R109, R110). A stop
that waits for the later entries of its transfer waits no longer where no more of them can be read (R99). -/
def transferEntriesArrived (n h e st : Nat) (x0 : HRead) (data : List Dword) (d : Dev) : Dev :=
  let ep := d.ep n h e
  let r := d.ring n h e st
  if !r.rdOut || !ep.readsOn then d.modRing n h e st (fun r => { r with rdOut := false }) else
  let t := holdEntries ep.cfg (d.mf (d.epHalf n h)) (d.slowRead x0) (groupsOf 8 (data.length / 8) data) { r with rdOut := false }
  let again := t.2.rdAgain
  let d := d.modRing n h e st (fun _ => { t.2 with rdAgain := false, full := !t.1 && 8 ≤ t.2.held.length })
  let d := finishCut n h e d
  let d := if again || (!t.1 && t.2.held.length < 8) then pokeRing n h e st d else d
  let d := pump n h e st false d
  match (d.ep n h e).xfer.bind (fun x => x.ending) with
  | some z => if (d.ep n h e).stopping && t.1 && !(d.ring n h e st).rdOut then endXfer n h e { code := z.1, reason := z.2 } d else d
  | none => d

/-- A fragment table returned, for the transfer that its read served (R111, R112). -/
def fragmentTableArrived (n h e : Nat) (x0 : HRead) (data : List Dword) (d : Dev) : Dev :=
  match d.xferOf n h e x0.tag with
  | none => d
  | some x =>
    let ahead := (d.ep n h e).pre.any (fun p => p.uid == x.uid)
    let late := d.slowRead x0
    let bad := fun (d : Dev) =>
      if ahead then d.modXferOf n h e x.uid (fun x => { x with preBad := some 1 }) else malformed n h e x.stream x.last 8 x.nextCyc x.tag d
    match fragTable (groupsOf 4 (data.length / 4) data) with
    | none => bad d
    | some (fs, next) =>
      let sum := (fs.map (fun f => f.2)).foldl (· + ·) 0
      if x.fragLen < sum || (next.isNone && sum != x.fragLen) || (next.isSome && 32 ≤ x.tables) then bad d else
      let d := d.modXferOf n h e x.uid (fun x => { x with
        frags := x.frags ++ fs, fragSum := x.fragSum + sum, fragLen := x.fragLen - sum, fragDue := false, started := true
        late := x.late || late })
      match next with
      | some (a, c) => readTable n h e x.uid a c (d.modXferOf n h e x.uid (fun x => { x with late := true }))
      | none => pump n h e x.stream false d

/-! ### Data on the bus -/

/-- Every byte of the transfer, or of a control transfer's data stage, is described (R109, R113). -/
def Xfer.described (x : Xfer) : Bool := (!x.more || x.control) && !x.fragDue
/-- The transfer's last byte has moved: nothing is left to move and no entry follows. -/
def Xfer.full (x : Xfer) : Bool := x.described && x.length ≤ x.done

/-- The seal of a chunk mismatched: counted, and an event (R217). -/
def sealEvent (n h _e : Nat) (d : Dev) : Dev :=
  let hd := d.handle n h
  raise { c := 35, inst := hd.port, slice := n, half := halfOfPort hd.port }
    (d.modHalf (halfOfPort hd.port) (fun x => { x with sealMismatch := x.sealMismatch + 1 }))

/-- End a transfer with a code that halts (R120, R123); keep as in XEnd. An index 1 that stalled stays Running, passes over what is
left of the transfer and goes on with the next (R114). -/
def endHalting (n h e code : Nat) (keep : Option Nat) (d : Dev) : Dev :=
  let own := ((d.ep n h e).xfer.bind (fun x => x.assign)).isSome
  if own then pump n h e 0 false (endXfer n h e { code := code } d)
  else if e = 1 && code = 0x07 then pump n h e 0 false (endPast n h e { code := code } d)
  else haltEp n h e code 0 0 false (endXfer n h e { code := code, keep := keep } d)

/-- The current stage of a control transfer moves IN data, OUT data, or is its SETUP. -/
def Xfer.isSetup (x : Xfer) : Bool := x.control && x.stage == 1
def Xfer.dirIn (x : Xfer) : Bool := if x.control && x.stage == 3 then x.trt != 3 else x.isIn
/-- Bytes left in the current stage. -/
def Xfer.left (x : Xfer) : Nat := if x.control && x.stage == 3 then 0 else x.length - x.done
/-- Length of the next OUT packet. -/
def Xfer.outLen (x : Xfer) (m : Nat) : Nat := min m x.left

/-- The next OUT packet holds a byte of a chunk whose seal mismatched twice: no such packet is sent, and the transfer ends with
BYTES the bytes acknowledged (R217). -/
def sealDue (n h e : Nat) (d : Dev) : Dev :=
  let y := d.ep n h e
  match y.xfer with
  | none => d
  | some x =>
    if !y.service && x.sealDead.any (fun off => off < x.done + x.outLen (d.mps n h e)) then endHalting n h e cIntegrity none d else d

/-- A data read of an OUT transfer returned, and its bytes are sealed (R217, R219); sealBad counts seal mismatches of the chunk so
far. -/
def dataArrived (n h e off : Nat) (bytes : List Byte) (sealBad : Nat) (x0 : HRead) (d : Dev) : Dev :=
  match d.xferOf n h e x0.tag with
  | none => d
  | some x =>
    let again := x.sealBad.contains off
    let late := d.slowRead x0
    let dead := Dev.modXferOf n h e x.uid (fun x => { x with
      sealDead := some (match x.sealDead with | some k => min k off | none => off) })
    if sealBad = 0 then
      d.modXferOf n h e x.uid (fun x => { x with
        segs := tabPut x.segs off bytes, sealBad := x.sealBad.filter (fun k => k != off), late := x.late || late }.sealOut off bytes.length)
    else
      let d := doIf (decide (2 ≤ sealBad) && !again) (sealEvent n h e) (sealEvent n h e d)
      if (d.ep n h e).pre.any (fun p => p.uid == x.uid) && ((d.ep n h e).mode.periodic || 2 ≤ sealBad || again) then dead d
      else if (d.ep n h e).mode.periodic then endHalting n h e cIntegrity none d
      else if 2 ≤ sealBad || again then sealDue n h e (dead d)
      else hostReadOff n x.half x0.addr x0.len off x.uid (.data h e x.stream) (d.modXferOf n h e x.uid (fun x => { x with
        sealBad := off :: x.sealBad }))

end Sys2Proof.Machine
end

