-- ==== Sys2Proof/Machine/Plan.lean ====
section
/-! DEFINITION. Periodic planning and admission: costs (R130, R131, R134 to R136), loads, Fresco's checks and placement
(R132, R137 to R144), and the order of carves (R213). -/
namespace Sys2Proof.Machine

/-! ### What an opcode on a handle meets -/

/-- The local port is attached (R94): its CC attach stands and its VBUS is up. -/
def Port.attached (x : Port) : Bool := x.bus.usb2 != .detached || x.bus.ss != .detached

/-- Code with which an opcode that needs an open handle is refused, 0 for none (R88). -/
def Dev.handleCode (d : Dev) (n h : Nat) : Nat :=
  match (d.handle n h).st with
  | .closed => cNotPermitted
  | .detached => cDetached
  | .default | .addressed => if (d.port (d.handle n h).port).attached then 0 else cDetached

/-- Bits of a mask that are set, ascending. -/
def maskBits (v : Nat) : List Nat := (List.range 32).filter (fun i => v / 2 ^ i % 2 == 1)

/-- The rows of R125 before the contexts: code and index. -/
def admitCode (n : Nat) (e : List Dword) (d : Dev) : Nat := d.handleCode n (weHandle e)

/-- The first endpoint of the mask that is not Disabled or whose context breaks R92: index and rule. -/
def admitBad (n h : Nat) (es : List (Nat × List Dword)) (d : Dev) : Option (Nat × Nat) :=
  (es.map (fun k => (k.1, if (d.ep n h k.1).st != .disabled then (true, 0)
    else (false, ctxRule k.1 (d.handle n h).speed true (d.cqActive n) k.2)))).findSome?
    (fun r => if r.2.1 || r.2.2 != 0 then some (r.1, r.2.2) else none)

/-! ### Costs and loads -/

def stuff (n : Nat) : Nat := cdiv (28 * n) 3

/-- Bytes of transaction j of a service (R130). -/
def txnBytes (mp esit j : Nat) : Nat := min mp (esit - j * mp)

/-- Cost of one service in the port's unit (R130, R131), without a TT. -/
def serviceCost (sp : Nat) (iso : Bool) (mp esit mult : Nat) : Nat :=
  if speedSs sp then esit + 40 * cdiv esit mp + 64
  else if sp = 3 then
    (List.range (mult + 1)).foldl (fun a j => a + (if iso then 320 else 456) + stuff (txnBytes mp esit j)) 0
  else if sp = 1 then (if iso then 100 else 130) + stuff esit
  else 1000 + 8 * stuff esit

/-- SuperSpeed cost in the other direction (R131). -/
def backCost (mp esit : Nat) : Nat := 32 * cdiv esit mp + 64

/-- Bytes that start-split j of an isochronous OUT carries (R135). -/
def splitBytes (esit j : Nat) : Nat := min 188 (esit - 188 * j)

/-- The record has an opportunity in plan microframe m (R128). -/
def PlanRec.opp (r : PlanRec) (m : Nat) : Bool := m % 2 ^ r.interval == r.offset

/-- Index in its mask of the split that record r puts in microframe m, for a mask whose bit k stands for 8f + k - back. -/
def PlanRec.splitIn (r : PlanRec) (mask back m : Nat) : Option Nat :=
  (List.range 8).find? (fun k => mask / 2 ^ k % 2 == 1 && (m + 256 + back - k) % 256 % 8 == 0 && r.opp ((m + 256 + back - k) % 256))

/-- Start-split and complete-split of record r in microframe m. -/
def PlanRec.ssIn (r : PlanRec) (m : Nat) : Option Nat := r.splitIn r.ssMask 1 m
def PlanRec.csIn (r : PlanRec) (m : Nat) : Option Nat := r.splitIn r.csMask 0 m

/-- The order of start-split k of the record: how many come before it. -/
def PlanRec.ssOrder (r : PlanRec) (k : Nat) : Nat := ((List.range k).filter (fun i => r.ssMask / 2 ^ i % 2 == 1)).length

/-- HS cost of the splits of record r in microframe m (R136). -/
def PlanRec.splitLoad (r : PlanRec) (m : Nat) : Nat :=
  (match r.ssIn m with
   | none => 0
   | some k => if r.isIn then 340 else if r.iso then 420 + stuff (splitBytes r.esit (r.ssOrder k)) else 556 + stuff r.esit) +
  (match r.csIn m with
   | none => 0
   | some _ => if r.isIn then 556 + stuff (min 188 r.esit) else 556)

/-- Load of record r on its bus in microframe m: in the data direction and in the other (SuperSpeed). -/
def PlanRec.load (r : PlanRec) (m : Nat) : Nat := if r.split then r.splitLoad m else if r.opp m then r.cost else 0
def PlanRec.down (r : PlanRec) (m : Nat) : Nat := if r.ss && r.isIn then (if r.opp m then r.back else 0) else r.load m
def PlanRec.up (r : PlanRec) (m : Nat) : Nat :=
  if !r.ss then 0 else if r.isIn then (if r.opp m then r.cost else 0) else if r.opp m then r.back else 0
/-- Transactions of record r in microframe m (R141). -/
def PlanRec.txns (r : PlanRec) (m : Nat) : Nat :=
  if r.split then b2n (r.ssIn m).isSome + b2n (r.csIn m).isSome else if r.opp m then r.txnM1 + 1 else 0

def sumOf (l : List Nat) : Nat := l.foldl (· + ·) 0
def maxOf (l : List Nat) : Nat := l.foldl max 0

/-- Load of a bus in microframe m: the greater of its directions. -/
def busLoad (rs : List PlanRec) (m : Nat) : Nat := max (sumOf (rs.map (fun r => r.down m))) (sumOf (rs.map (fun r => r.up m)))

/-- Periodic limit of R132 for a bus speed, 0 for no speed. -/
def periodicLimit (sp : Nat) : Nat :=
  if sp = 3 then 48000 else if sp = 1 || sp = 2 then 10800 else if sp = 5 then 136363 else if sp = 4 then 56250 else 0

/-- Records of one bus of a port. -/
def onBus (ss : Bool) (rs : List PlanRec) : List PlanRec := rs.filter (fun r => r.ss == ss)

/-- The records share a frame or microframe of the plan. -/
def PlanRec.meets (a b : PlanRec) : Bool := a.offset % 2 ^ min a.interval b.interval == b.offset % 2 ^ min a.interval b.interval

/-- Microframes in which the record puts something on the bus. -/
def PlanRec.occupied (r : PlanRec) : List Nat := (List.range 256).filter (fun m => r.txns m != 0)

/-! ### The TT timeline (R133, R134) -/

/-- The records on the TT of r that meet it. -/
def sameTt (r : PlanRec) (rs : List PlanRec) : List PlanRec :=
  rs.filter (fun q => q.split && q.ttHub == r.ttHub && q.ttIndex == r.ttIndex && q.meets r)

/-- Sum of c over the TT in the worst frame of r. -/
def ttSum (r : PlanRec) (rs : List PlanRec) : Nat :=
  maxOf (((List.range 32).map (fun f => 8 * f)).filter r.opp |>.map (fun m =>
    sumOf ((rs.filter (fun q => q.opp m)).map (fun q => q.ttCost))))

def freeAt (s b : Nat) (rs : List PlanRec) : Bool := s + b ≤ 1128 && rs.all (fun q => s + b ≤ q.ttStart || q.ttEnd ≤ s)
/-- The lowest free run of b bytes. -/
def lowestRun (b : Nat) (rs : List PlanRec) : Option Nat := (List.range 1128).find? (fun s => freeAt s b rs)
/-- The longest free run. -/
def longestRun (rs : List PlanRec) : Nat :=
  maxOf ((0 :: rs.map (fun q => q.ttEnd)).map (fun s =>
    if rs.any (fun q => q.ttStart ≤ s && s < q.ttEnd) then 0 else
      (rs.filter (fun q => s ≤ q.ttStart)).foldl (fun m q => min m (q.ttStart - s)) (1128 - s)))

/-- Place record r in the TT timeline at s, with the splits of R135. -/
def PlanRec.placeTt (r : PlanRec) (s : Nat) : PlanRec :=
  let b := cdiv r.ttCost 8
  let ys := s / 188
  let ye := (s + b - 1) / 188
  let nss := if r.iso && !r.isIn then max 1 (cdiv r.esit 188) else 1
  { r with
    ttStart := s, ttEnd := s + b
    ssMask := sumOf ((List.range nss).map (fun j => 2 ^ (ys + j)))
    csMask := if r.iso && !r.isIn then 0 else sumOf (((List.range 8).filter (fun k => ys + 1 ≤ k && k ≤ ye + 2)).map (fun k => 2 ^ k)) }

/-! ### Charges (R139, R140) -/

/-- Charge of one service to budget r: 1 write, 2 read, 3 DMA, 4 Sinopia. -/
def PlanRec.charge (p : PlanRec) (r : Nat) : Nat :=
  if r = 1 then (if p.isIn then p.esit else 0) + 32
  else if r = 2 then (if p.isIn then 0 else p.esit) + 32
  else if r = 3 then p.esit + 64
  else if p.crossing || p.contingent then p.esit + 64 else 0

/-- Charges of a set of records to budget r in microframe m. -/
def chargesAt (r m : Nat) (rs : List PlanRec) : Nat := sumOf ((rs.filter (fun p => p.opp m)).map (fun p => p.charge r))

/-- Every committed record of the slice's ports, and of its commits that wait. -/
def Dev.slicePlan (d : Dev) (n : Nat) : List PlanRec :=
  (d.portsOf n).flatMap (fun p => (d.port p).plan) ++ (d.eng n).commits.flatMap (fun c => c.add)

/-- The records of a port, with those of commits that wait. -/
def Dev.portPlan (d : Dev) (n p : Nat) : List PlanRec :=
  (d.port p).plan ++ ((d.eng n).commits.filter (fun c => c.port == p)).flatMap (fun c => c.add)

/-- Slices bound to host group g. -/
def Dev.boundTo (d : Dev) (g : Nat) : List Nat := d.sliceNums.filter (fun n => (d.slice n).group == g)

/-- The budget in effect for a slice of group g with N slices bound (R251, R252). -/
def Dev.budgetAt (d : Dev) (g N r : Nat) : Nat :=
  if r = 1 || r = 2 then min (Config.budget d.S r) (7080000 * (d.members g).length / max 1 N) else Config.budget d.S r
def Dev.budgetOf (d : Dev) (n r : Nat) : Nat := d.budgetAt (d.slice n).group (d.boundTo (d.slice n).group).length r

/-- PERIODIC_CAP percent of a budget (R139). -/
def Dev.capOf (d : Dev) (n r : Nat) : Nat := d.budgetOf n r * d.cfg 0x2240 1 / 100

/-! ### Checks and placement -/

/-- What one command sees: port and slice records, pages and pins taken so far by it. -/
structure Tent where
  port : List PlanRec
  slice : List PlanRec
  pages : Nat := 0
  pins : Nat := 0

/-- Unpinned entries of the slice's context cache (R138). -/
def Dev.unpinned (d : Dev) (n : Nat) : Nat :=
  Config.shareContexts d.S - (((d.eng n).handles.flatMap (fun h => h.2.eps.filter (fun e => e.2.admitted))).length +
    sumOf ((d.eng n).commits.map (fun c => c.add.length)))

/-- The record at candidate offset o, placed in its TT where it has one: the record, and the failing check and shortfall
of R144 (0: passes). -/
def check (d : Dev) (n sp : Nat) (t : Tent) (r0 : PlanRec) (o : Nat) : PlanRec × Nat × Nat :=
  let r0 := { r0 with offset := o }
  let tt := sameTt r0 t.port
  let c2 := if r0.split then ttSum r0 tt + r0.ttCost - 10800 else 0
  let b := cdiv r0.ttCost 8
  let s := if r0.split then lowestRun b tt else some 0
  let r := match s with
    | some s => if r0.split then r0.placeTt s else r0
    | none => r0
  let placed := r0.split = false || (c2 = 0 && s.isSome)
  let rs := r :: onBus r.ss t.port
  let occ := r.occupied
  let c1 := if placed then maxOf (occ.map (fun m => busLoad rs m)) - periodicLimit sp else 0
  let recs := t.port.length + 1
  let txn := if placed then maxOf (occ.map (fun m => sumOf (rs.map (fun q => q.txns m)))) else 0
  let need := t.pages + r.lead
  let free := d.freePages n
  let unp := d.unpinned n - t.pins
  let opps := (List.range 256).filter r.opp
  let excess := fun k => maxOf (opps.map (fun m => chargesAt k m (r :: t.slice))) - d.capOf n k
  let sin := if r.crossing && !d.sinopia.up then r.charge 4 else if r.charge 4 = 0 then 0 else excess 4
  if c1 != 0 then (r, 1, c1)
  else if c2 != 0 then (r, 2, c2)
  else if s.isNone then (r, 3, b - longestRun tt)
  else if 64 < recs then (r, 4, recs - 64)
  else if 16 < txn then (r, 4, txn - 16)
  else if free < need then (r, 5, need - free)
  else if unp < 5 then (r, 6, 5 - unp)
  else if excess 1 != 0 then (r, 7, excess 1)
  else if excess 2 != 0 then (r, 8, excess 2)
  else if excess 3 != 0 then (r, 9, excess 3)
  else if sin != 0 then (r, 10, sin)
  else (r, 0, 0)

/-- Candidate offsets in order (R143). -/
def candidates143 (lp : Nat) (r : PlanRec) : List Nat :=
  let I := 2 ^ r.interval
  if 3 ≤ r.speed then (List.range I).map (fun j => (lp + j) % I)
  else (List.range (I / 8)).map (fun j => 8 * ((lp + j) % (I / 8)))

/-- Worst load that the port has in the microframes that the record would occupy, without it as the worked admission of chapter 5
counts it, and the slice's peak DMA charge with it (R143). -/
def rank (t : Tent) (r : PlanRec) : Nat × Nat :=
  (maxOf (r.occupied.map (fun m => busLoad (onBus r.ss t.port) m)),
   maxOf (((List.range 256).filter r.opp).map (fun m => chargesAt 3 m (r :: t.slice))))

/-- Place one endpoint: the best passing candidate, or the first candidate's failing check and shortfall. -/
def placeOne (d : Dev) (n lp sp : Nat) (t : Tent) (r : PlanRec) : Option PlanRec × Nat × Nat :=
  let cs := (candidates143 lp r).map (check d n sp t r)
  let best := (cs.filter (fun c => c.2.1 == 0)).foldl (fun m c => match m with
    | none => some c.1
    | some a =>
      let x := rank t a
      let y := rank t c.1
      if y.1 < x.1 || (y.1 == x.1 && y.2 < x.2) then some c.1 else some a) none
  (best, (cs.head?.elim (0, 0) (fun c => c.2)))

/-- Insert by descending cost, ascending index (R143). -/
def insertCost (r : PlanRec) : List PlanRec → List PlanRec
  | [] => [r]
  | x :: l => if x.cost < r.cost || (x.cost == r.cost && r.ep < x.ep) then r :: x :: l else x :: insertCost r l

/-- Place every endpoint of the command, or answer the index, check and shortfall that refuse it. -/
def placeAll (d : Dev) (n lp sp : Nat) : List PlanRec → Tent → List PlanRec → Except (Nat × Nat × Nat) (List PlanRec)
  | [], _, acc => .ok acc
  | r :: rest, t, acc =>
    match placeOne d n lp sp t r with
    | (some b, _) => placeAll d n lp sp rest
        { port := b :: t.port, slice := b :: t.slice, pages := t.pages + b.lead, pins := t.pins + 1 } (acc ++ [b])
    | (none, c, s) => .error (r.ep, c, s)

/-- The record of a periodic endpoint before it is placed. -/
def recordOf (d : Dev) (n h i : Nat) (c : EpCfg) : PlanRec :=
  let x := d.handle n h
  let iso := c.type == .iso
  let split := x.ttPort != 0
  let hub := d.handle n x.hub
  let base := serviceCost x.speed iso c.maxPacket c.esit c.mult
  let tc := if split then base + 8 * (hub.ttThink + 1) else 0
  let hf := d.pageHalf n x.port
  let ms := d.members (d.slice n).group
  { h := h, ep := i, ss := speedSs x.speed, iso := iso, isIn := epIsIn i, split := split, interval := c.interval
    speed := x.speed, txnM1 := if x.speed = 3 then c.mult else if speedSs x.speed && iso then c.mult else 0
    cost := if split then tc else base, back := backCost c.maxPacket c.esit, ttCost := tc, esit := c.esit
    mps := c.maxPacket, lead := max 1 (cdiv (2 * c.esit) 4096), ttHub := if split then x.hub else 0
    ttIndex := if split && x.multiTt then x.ttPort else 0, multiTt := x.multiTt
    crossing := halfOfPort x.port != hf || !(ms.any (fun f => halfOfFunc f == hf)), contingent := ms.length == 2 }

/-- Speed of the bus that carries the handle: the port's detected speed. -/
def Dev.busSpeed (d : Dev) (p : Nat) (ss : Bool) : Nat := if ss then (d.port p).bus.ssSpeed else (d.port p).bus.usb2Speed

/-- The commit record of a command. -/
def Dev.commitOf (d : Dev) (n q : Nat) (i : Dword) : Option Commit := (d.eng n).commits.find? (fun c => c.wq == q && c.idx == i)
def forgetCommit (n q : Nat) (i : Dword) : Dev → Dev :=
  Dev.modEng n (fun x => { x with commits := x.commits.filter (fun c => !(c.wq == q && c.idx == i)) })

/-- A commit is abandoned: its reserved pages return, and those taken already are released (R137). -/
def dropCommit (n q : Nat) (i : Dword) (d : Dev) : Dev :=
  match d.commitOf n q i with
  | none => d
  | some c =>
    let d := if c.got.isEmpty then d else releasePages n (d.epHalf n c.h) c.got d
    forgetCommit n q i (d.modEng n (fun x => { x with reserved := x.reserved - c.pages }))

/-- Evaluate an ADMIT_ENDPOINTS whose contexts were valid when they were read: the rows of R125 once more, for what earlier commands
have changed, then the checks (R126, R143, R144): reserve its pages and wait for the commit, or refuse it. -/
def evaluate (n q : Nat) (i : Dword) (d : Dev) : Dev :=
  match d.commitOf n q i with
  | none => d
  | some c =>
    let x := d.handle n c.h
    let code := d.handleCode n c.h
    if code != 0 then finishWe n q i code {} (dropCommit n q i d) else
    match admitBad n c.h c.ctx d with
    | some (k, r) => finishWe n q i cNotPermitted { r2 := k + 256 * r } (dropCommit n q i d)
    | none =>
    let recs := (c.ctx.filter (fun k => (cfgOf k.2).type.periodic)).foldl (fun l k =>
      insertCost (recordOf d n c.h k.1 (cfgOf k.2)) l) []
    let t : Tent := { port := d.portPlan n c.port, slice := d.slicePlan n }
    match placeAll d n (d.localPort c.port) (d.busSpeed c.port (speedSs x.speed)) recs t [] with
    | .error (ep, k, s) => finishWe n q i 0x09 { r1 := s, r2 := ep + 256 * k } (dropCommit n q i d)
    | .ok add =>
      let pages := sumOf (add.map (fun r => r.lead))
      d.modEng n (fun e => { e with
        reserved := e.reserved + pages
        commits := e.commits.map (fun k => if k.wq == q && k.idx == i then { k with add := add, pages := pages, ready := true }
          else k) })

/-! ### Carves in start order (R213) -/

/-- Tag of an executing entry: entries start in the order of their tags. -/
def Dev.startTag (d : Dev) (n q : Nat) (i : Dword) : Nat := (d.execEnt n q i).elim 0 (fun e => e.uid)

/-- A carving entry that started before tag u and is not yet in the order of carves: it has not acted, or still reads its structures. -/
def Dev.readsBefore (d : Dev) (n u : Nat) : Bool :=
  (d.slice n).wqs.any (fun w => w.2.exec.any (fun e => [0x02, 0x08, 0x18].contains (weOp e.dws) && e.phase ≤ 1 && e.uid < u))

/-- An ADMIT_ENDPOINTS or RETIRE_ENDPOINTS that started before tag u, names an endpoint that the words e name, and has not completed:
the entry of these words sees its result (R126). -/
def Dev.planBefore (d : Dev) (n u : Nat) (e : List Dword) : Bool :=
  (d.slice n).wqs.any (fun w => w.2.exec.any (fun x => [0x08, 0x09].contains (weOp x.dws) && x.uid < u &&
    weHandle x.dws == weHandle e && (dwAt x.dws 4 &&& dwAt e 4) != 0))

/-- A carve joins those that wait, in the order in which the entries started (R213). -/
def queueCarve (n : Nat) (c : CarveWait) (d : Dev) : Dev :=
  let u := d.startTag n c.wq c.idx
  d.modEng n (fun x => { x with
    carves := x.carves.takeWhile (fun k => d.startTag n k.wq k.idx < u) ++ c :: x.carves.dropWhile (fun k => d.startTag n k.wq k.idx < u) })

/-- The code that refuses CARVE_POOL before the count of free pages, 0 for none (R211). -/
def Dev.carveCode (d : Dev) (n h e pages : Nat) : Nat :=
  let x := d.ep n h e
  let code := d.handleCode n h
  if code != 0 then code
  else if x.st == .disabled || (x.mode.periodic && pages != 0) || 1024 < x.pages + pages then cNotPermitted else 0

/-- Results of CARVE_POOL and RELEASE_POOL (R211, R212). -/
def poolRes (d : Dev) (n h e moved : Nat) : Res := { r0 := moved, r1 := d.freePages n, r2 := (d.ep n h e).pages }

/-- Open the handle on its base page (R88, R94). -/
def openWith (n q : Nat) (i : Dword) (h : Nat) (bank : List Nat) (d : Dev) : Dev :=
  match d.commitOf n q i with
  | none => d
  | some c =>
    let ctx := (c.ctx.head?).elim [] (fun k => k.2)
    let cfg := cfgOf ctx
    let deq := (qwAt ctx 4).toNat
    let d := dropCommit n q i d
    let d := d.modHandle n h (fun x => { x with
      st := .default, addr := 0, ep0Mps := cfg.maxPacket, isHub := false, hubMultiTt := false, ttThink := 0, hubPorts := 0
      besl := 0, beslValid := false
      eps := [(1, { st := .running, cfg := cfg, basePg := bank
                    rings := [(0, (Ring.drop { deq := deq / 32 * 32, cyc := deq % 2 == 1 }))] })] })
    let d := writeHeader n h (touch n h 1 true (touch n h 0 true d))
    finishWe n q i cOk {} d

/-- Take the waiting carves of a slice in order, as far as pages allow; each meets what the commands before it left (R211, R213). -/
def tryCarves (n : Nat) : Nat → Dev → Dev
  | 0, d => d
  | k + 1, d =>
    match (d.eng n).carves with
    | [] => d
    | c :: rest =>
      let hf := if c.opening then d.pageHalf n (((d.commitOf n c.wq c.idx).elim 0 (fun m => m.port))) else d.epHalf n c.h
      let pop := fun (d : Dev) => d.modEng n (fun x => { x with carves := x.carves.drop 1 })
      match d.execEnt n c.wq c.idx with
      | none => tryCarves n k (releasePages n hf c.got (d.modEng n (fun x => { x with carves := rest })))
      | some ent =>
        if d.readsBefore n ent.uid then d else
        if weOp ent.dws = 0x08 then
          (if d.planBefore n ent.uid ent.dws then d else tryCarves n k (evaluate n c.wq c.idx (pop d)))
        else
        let code := if c.opening then 0 else d.carveCode n c.h c.ep c.pages
        let code := if code = 0 && decide (d.freePages n + c.got.length < c.pages) then cPoolEmpty else code
        if code != 0 then
          let d := releasePages n hf c.got (pop d)
          let d := if c.opening then finishWe n c.wq c.idx code {} ((dropCommit n c.wq c.idx d).modHandle n c.h (fun _ => {}))
            else finishWe n c.wq c.idx code (poolRes d n c.h c.ep 0) d
          tryCarves n k d
        else
          let t := carve n hf (if c.opening then none else (d.ep n c.h c.ep).lastPage) c.pages c.got d
          if t.1.length < c.pages then
            t.2.modEng n (fun x => { x with carves := { c with got := t.1 } :: rest })
          else
            let d := pop t.2
            let d := if c.opening then openWith n c.wq c.idx c.h t.1 d
              else
                let d := d.modEp n c.h c.ep (fun x => { x with addedPg := x.addedPg ++ t.1, swap := bitsOf (dwAt ent.dws 4) 17 16 })
                pump n c.h c.ep (d.curStream n c.h c.ep) false (finishWe n c.wq c.idx cOk (poolRes d n c.h c.ep c.pages) d)
            tryCarves n k d

/-- Take the carves that can now be taken. -/
def carves (n : Nat) (d : Dev) : Dev := tryCarves n ((d.eng n).carves.length + 1) d

end Sys2Proof.Machine
end

