-- ==== Sys2Proof/Machine/Devices.lean ====
section
/-! DEFINITION. The opcodes on devices, endpoints and pools (R85, R94 to R102, R124 to R127, R145, R152, R211 to R213), plan
commits (R129), and the reads of host structures (R484). -/
namespace Sys2Proof.Machine

/-! ### Shared operations -/

/-- An opcode that names a handle uses its header, and that of one endpoint its context (R93). -/
def onHandle (op n q : Nat) (i : Dword) (f : List Dword → Dev → Dev) : Dev → Dev :=
  onEntry op n q i (fun e d => f e (useCtx n (weHandle e) (weEp e) d))

/-- The handle is open on port p and on the bus of speed sp (R94). A Detached handle counts as open until CLOSE_DEVICE, in the checks of
R94, R96 and R97 (DESIGN CHOICE, log entry 68: R88 gives it no other end, and the rules do not say whether it still counts). -/
def Handle.onSame (x : Handle) (p sp : Nat) : Bool := x.st != .closed && x.port == p && speedSs x.speed == speedSs sp

/-- A route lies below a hub's route. -/
def below (hub route : Nat) : Bool := routeDepth hub < routeDepth route && route % 16 ^ routeDepth hub == hub

/-- An open handle lies below hub h (R96, R97). -/
def Dev.hasBelow (d : Dev) (n h : Nat) : Bool :=
  let x := d.handle n h
  x.isHub && (d.eng n).handles.any (fun y => y.1 != h && y.2.onSame x.port x.speed && below x.route y.2.route)

/-- RESULT1 of STOP_ENDPOINT (R99). -/
def Dev.deqResult (d : Dev) (n h e st : Nat) : Nat :=
  let x := d.ep n h e
  if x.st == .haltedMalformed && x.errAddr != 0 then x.errAddr
  else if x.cfg.streams && st = 0 then 0
  else let r := x.ring (if x.cfg.streams then st else 0)
    r.deq + b2n r.cyc

/-- The DEQUEUE of stream st is only in its context, which the device has not read (R99, R115). -/
def Ep.unread (x : Ep) (st : Nat) : Bool :=
  x.cfg.streams && 1 ≤ st && st ≤ x.cfg.numStreamsM1 + 1 && (x.ring st).deq = 0 && !(x.st == .haltedMalformed && x.errAddr != 0)

/-- Take the records of these endpoints out of the plan of port p; their slots go under Wash (R229). -/
def dropPlan (n p : Nat) (dead : Nat × Nat → Bool) (d : Dev) : Dev :=
  let out := (d.port p).plan.filter (fun r => dead (r.h, r.ep))
  out.foldl (fun d _ => washSlot n (halfOfPort p) d)
    (d.modPort p (fun x => { x with plan := x.plan.filter (fun r => !(dead (r.h, r.ep))) }))

/-- A detach or a reset releases an endpoint's admission: its records leave the plan in a commit at the next boundary (R129, R145). -/
def leavePlan (n h e : Nat) (d : Dev) : Dev :=
  let p := (d.handle n h).port
  if (d.port p).plan.any (fun r => r.h == h && r.ep == e) then d.modPort p (fun x => { x with planDel := x.planDel ++ [(h, e)] }) else d

/-- Disable an endpoint: its pool and pin go, its context is written back Disabled (R145). What it still had of transfers is given
up. -/
def disableEp (n h e : Nat) (d : Dev) : Dev :=
  let d := ((d.ep n h e).xfer.toList ++ (d.ep n h e).parkedX).foldl (fun d x => giveUp n h e x d) (releasePool n h e d)
  let d := dropAll n h e (d.modEp n h e (fun x => { x with
    st := .disabled, admitted := false, xfer := none, parkedX := [], olds := [], stopping := false, service := false, bus := {} }))
  dropCtx n h e (writeCtx n h e d)

/-- Executing entries of these opcodes on handle h that cannot go on complete with a code, from phase k on (R95, R127). -/
def cutOps (n h code k : Nat) (ops : List Nat) (d : Dev) : Dev :=
  let es := (d.slice n).wqs.flatMap (fun w => (w.2.exec.filter (fun x => decide (k ≤ x.phase) && weHandle x.dws == h &&
    ops.contains (weOp x.dws))).map (fun x => (w.1, x.idx)))
  es.foldl (fun d e => finishWe n e.1 e.2 code {} (dropCommit n e.1 e.2 d)) d

/-- Endpoints of a handle that are not Disabled. -/
def Handle.live (x : Handle) : List Nat := (x.eps.filter (fun e => e.2.st != .disabled)).map (fun e => e.1)

/-- CLOSE_DEVICE, its last steps; an admission that still waits on the handle is abandoned (R97, R127). -/
def closeHandle (n q : Nat) (i : Dword) (h : Nat) (d : Dev) : Dev :=
  let d := cutOps n h cNotPermitted 1 [0x08] d
  let d := forEach ((d.handle n h).live) (disableEp n h) d
  let d := dropCtx n h 0 d
  carves n (finishWe n q i cOk {} (d.modHandle n h (fun _ => {})))

/-- Complete a STOP_ENDPOINT with DEQUEUE in RESULT1; that of a stream whose context was never read is read there first (R99). -/
def stopResult (n q : Nat) (i : Dword) (e : List Dword) (d : Dev) : Dev :=
  let h := weHandle e
  let k := weEp e
  let st := (dwAt e 4).toNat
  if (d.ep n h k).unread st then
    hostRead n (d.epHalf n h) ((d.ep n h k).base + 16 * (st - 1)) 16 (.streamCtx h k st) (waitEnt n q i 4 0 d)
  else finishWe n q i cOk { r1 := d.deqResult n h k st } d

/-- STOP_ENDPOINT entries that wait for the context of stream st of an endpoint. -/
def Dev.stopReads (d : Dev) (n h e st : Nat) : List (Nat × Dword) :=
  (d.slice n).wqs.flatMap (fun w => (w.2.exec.filter (fun x => x.phase == 4 && weOp x.dws == 0x0A && weHandle x.dws == h &&
    weEp x.dws == e && (dwAt x.dws 4).toNat == st)).map (fun x => (w.1, x.idx)))

/-- What an entry that waits for its endpoints to stop does once they have (R97, R99, R145). -/
def stoppedHook (n q : Nat) (ent : WEnt) (d : Dev) : Dev :=
  let h := weHandle ent.dws
  let op := weOp ent.dws
  let mask := if op = 0x05 then (d.handle n h).live else maskBits (dwAt ent.dws 4).toNat
  if op = 0x0A then
    let e := weEp ent.dws
    if (d.ep n h e).stopping then d else stopResult n q ent.idx ent.dws d
  else if mask.any (fun e => (d.ep n h e).stopping) then d
  else
    let port := (d.handle n h).port
    if op = 0x05 && !(mask.any (fun e => (d.ep n h e).admitted)) then closeHandle n q ent.idx h d
    else (waitEnt n q ent.idx 3 0 d).modEng n (fun x => { x with
      commits := x.commits ++ [{ wq := q, idx := ent.idx, h := h, port := port, del := mask, close := op = 0x05
                                 ready := true }] })

/-- Entries of the slice that wait for endpoint e of handle h to stop. -/
def Dev.stopWaiters (d : Dev) (n h e : Nat) : List (Nat × WEnt) :=
  (d.slice n).wqs.flatMap (fun w => (w.2.exec.filter (fun x => x.phase == 2 && weHandle x.dws == h &&
    ((weOp x.dws == 0x0A && weEp x.dws == e) || weOp x.dws == 0x05 ||
     (weOp x.dws == 0x09 && (maskBits (dwAt x.dws 4).toNat).contains e)))).map (fun x => (w.1, x)))

/-- The stop of an endpoint takes effect (R99, R100), once its transfers have ended. -/
def doStop (n h e : Nat) (d : Dev) : Dev :=
  let uid := (d.ep n h e).xfer.map (fun x => x.uid)
  let ws := d.stopWaiters n h e
  let d := match uid with
    | some u => ws.foldl (fun d w => modEnt n w.1 w.2.idx (fun g => { g with uid := u }) d) d
    | none => d
  let run := (d.ep n h e).st == .running
  let d := if run then stopAllXfers n h e d else d
  if run && (d.ep n h e).xfer.isSome then d else
  let d := (if run then enterStopped n h e d else d).modEp n h e (fun x => { x with stopping := false })
  ws.foldl (fun d w => stoppedHook n w.1 w.2 d) d

/-- A stop that waited for the later entries of a transfer goes on once it has ended (R99). -/
def goStop (n h e : Nat) (d : Dev) : Dev :=
  let x := d.ep n h e
  if x.stopping && !x.service && !x.mode.periodic && !(x.xfer.any (fun t => t.ending.isSome)) then doStop n h e d else d

/-- An endpoint that has begun to stop: at once at a transaction boundary, at the next microframe boundary when it is periodic. -/
def stopNow (n h e : Nat) (d : Dev) : Dev :=
  let x := d.ep n h e
  if !x.stopping || x.mode.periodic || x.service then d else doStop n h e d

/-- A Running endpoint begins to stop. -/
def markStop (n h e : Nat) : Dev → Dev := Dev.modEp n h e (fun x => if x.st == .running then { x with stopping := true } else x)
def beginStop (n h e : Nat) (d : Dev) : Dev := stopNow n h e (markStop n h e d)

/-- Stop a set of endpoints for an entry and act once all have stopped. -/
def stopFor (n q : Nat) (i : Dword) (h : Nat) (es : List Nat) (d : Dev) : Dev :=
  let d := waitEnt n q i 2 0 d
  let wait := es.any (fun e => (d.ep n h e).st == .running)
  if wait then forEach es (stopNow n h) (forEach es (markStop n h) d)
  else match d.execEnt n q i with
    | some ent => stoppedHook n q ent d
    | none => d

/-! ### Plan commits (R129) -/

/-- The endpoint that an admitted context gives. -/
def epOfCtx (c : List Dword) (mf : Nat) (lead : List Nat) : Ep :=
  let f := cfgOf c
  let deq := (qwAt c 4).toNat
  { st := .running, cfg := f, admitted := f.type.periodic, since := mf, leadPg := lead
    base := if f.streams then deq / 32 * 32 else 0
    rings := if f.streams then [] else [(0, Ring.drop { deq := deq / 32 * 32, cyc := deq % 2 == 1 })] }

/-- Carve the lead pages of the records in order, from those taken so far; answers what is held then. -/
def carveLeads (n hf : Nat) : List PlanRec → List Nat → Dev → List Nat × Dev
  | [], _, d => ([], d)
  | r :: rest, got, d =>
    let t := carve n hf none r.lead (got.take r.lead) d
    if t.1.length < r.lead then t else
    let u := carveLeads n hf rest (got.drop r.lead) t.2
    (t.1 ++ u.1, u.2)

/-- The lead pages of each record. -/
def leadsOf : List PlanRec → List Nat → Tab (List Nat)
  | [], _ => []
  | r :: rest, pages => (r.ep, pages.take r.lead) :: leadsOf rest (pages.drop r.lead)

/-- Commit one command at a microframe boundary; a carve that must wait keeps it for the next. -/
def applyCommit (n mf : Nat) (c : Commit) (d : Dev) : Dev :=
  if !c.ready || !((d.eng n).commits.any (fun k => k.wq == c.wq && k.idx == c.idx)) then d else
  let bump := fun (d : Dev) => d.modPort c.port (fun x => { x with epoch2 := x.epoch2 + 1 })
  if c.del.length != 0 || c.close then
    let d := dropPlan n c.port (fun k => k.1 == c.h && c.del.contains k.2) (bump (forgetCommit n c.wq c.idx d))
    if c.close then closeHandle n c.wq c.idx c.h d
    else
      carves n (finishWe n c.wq c.idx cOk {} (forEach c.del (disableEp n c.h) d))
  else
    let t := carveLeads n (d.epHalf n c.h) c.add c.got d
    let new := t.1.length - c.got.length
    let d := t.2.modEng n (fun x => { x with
      reserved := x.reserved - new
      commits := x.commits.map (fun k => if k.wq == c.wq && k.idx == c.idx then { k with got := t.1, pages := k.pages - new } else k) })
    if t.1.length < sumOf (c.add.map (fun r => r.lead)) then d else
    let leads := leadsOf c.add t.1
    let d := bump (forgetCommit n c.wq c.idx d)
    let d := d.modPort c.port (fun x => { x with plan := x.plan ++ c.add })
    let d := c.ctx.foldl (fun d k =>
      touch n c.h k.1 true (d.modEp n c.h k.1 (fun _ => epOfCtx k.2 mf (tabGet [] leads k.1)))) d
    finishWe n c.wq c.idx cOk { r0 := c.mask } d

/-- The commit that takes the records of detached or reset endpoints out of a port's plan (R129, R145). -/
def commitGone (n p : Nat) (d : Dev) : Dev :=
  let gone := (d.port p).planDel
  if gone.isEmpty then d else
  dropPlan n p (fun k => gone.contains k) (d.modPort p (fun x => { x with planDel := [], epoch2 := x.epoch2 + 1 }))

/-- RETIRE_ENDPOINTS meets the endpoints as the commands before it left them (R126, R145). -/
def retireOn (n q : Nat) (i : Dword) (e : List Dword) (d : Dev) : Dev :=
  let h := weHandle e
  let es := maskBits (dwAt e 4).toNat
  if d.planBefore n (d.startTag n q i) e then waitEnt n q i 4 0 d
  else if (d.handle n h).st == .detached then finishWe n q i cDetached {} d
  else match es.find? (fun k => (d.ep n h k).st == .disabled) with
    | some k => finishWe n q i cNotPermitted { r2 := k } d
    | none => stopFor n q i h es d

/-- RETIRE_ENDPOINTS entries that waited for an earlier command go on. -/
def retireWaiters (n : Nat) (d : Dev) : Dev :=
  ((d.slice n).wqs.flatMap (fun w => (w.2.exec.filter (fun x => x.phase == 4 && weOp x.dws == 0x09)).map (fun x => (w.1, x)))).foldl
    (fun d x => retireOn n x.1 x.2.idx x.2.dws d) d

/-- Every commit of a slice, in order; then what waited for them. -/
def applyCommits (n : Nat) (d : Dev) : Dev :=
  let d := forEach (d.portsOf n) (commitGone n) d
  retireWaiters n (carves n ((d.eng n).commits.foldl (fun d c => applyCommit n (d.mf (halfOfPort c.port)) c d) d))

/-! ### Opcodes -/

/-- NOP (R85). -/
def execNop (n : SliceId) (wq : Nat) (i : Dword) (s : State) : Outc :=
  run (onEntry 0x01 n wq i (fun _ => finishWe n wq i cOk {})) s

/-- The nearest HS hub on the path of a route, with its port on the path (R94). -/
def Dev.nearestHsHub (d : Dev) (n p route : Nat) : Option (Nat × Nat) :=
  let hubs := (d.eng n).handles.filter (fun y => y.2.onSame p 3 && y.2.isHub && y.2.speed == 3 && below y.2.route route)
  (hubs.foldl (fun m y => match m with
    | none => some y
    | some z => if routeDepth z.2.route < routeDepth y.2.route then some y else some z) none).map
    (fun y => (y.1, route / 16 ^ routeDepth y.2.route % 16))

/-- The checks of OPEN_DEVICE that need no context (R94). A Detached handle is not Closed: Not permitted, as R94's row says; that R88
gives every opcode but CLOSE_DEVICE 0x12 on it is not followed here (DESIGN CHOICE, log entry 68). -/
def openCode (n : Nat) (e : List Dword) (d : Dev) : Nat :=
  match d.physPort n (wePort e) with
  | none => cDetached
  | some p =>
    let x := d.port p
    let route := bitsOf (dwAt e 6) 19 0
    let sp := bitsOf (dwAt e 6) 23 20
    let tt := bitsOf (dwAt e 7) 23 16
    let hub := bitsOf (dwAt e 7) 12 0
    let hs := d.nearestHsHub n p route
    let fsls := sp == 1 || sp == 2
    if !x.attached then cDetached
    else if x.bus.resetRequired then cNotPermitted
    else if (d.handle n (weHandle e)).st != .closed then cNotPermitted
    else if route = 0 && sp != d.busSpeed p (speedSs sp) then cNotPermitted
    else if route != 0 && !((d.eng n).handles.any (fun y => y.2.onSame p sp && y.2.isHub && y.2.route == routeParent route)) then
      cNotPermitted
    else if fsls && hs.isSome then
      (if tt = 0 || hs != some (hub, tt) || (d.handle n hub).hubMultiTt != bitOf (dwAt e 7) 24 then cNotPermitted else 0)
    else if tt != 0 then cNotPermitted
    else 0

/-- OPEN_DEVICE (R94): the checks, then the read of endpoint context 1. -/
def openAct (n q : Nat) (i : Dword) (e : List Dword) (d : Dev) : Dev :=
  let code := openCode n e d
  if code != 0 then finishWe n q i code {} d
  else hostRead n (d.wqHalf n q) ((qwAt e 4).toNat + 64) 64 (.struct q i) (waitEnt n q i 1 0 d)
def execOpenDevice (n : SliceId) (wq : Nat) (i : Dword) (s : State) : Outc :=
  run (fun d => carves n (onEntry 0x02 n wq i (openAct n.val wq i) d)) s

/-- Endpoint context 1 arrived (R92, R94). -/
def openRead (n q : Nat) (i : Dword) (e data : List Dword) (d : Dev) : Dev :=
  let h := weHandle e
  let sp := bitsOf (dwAt e 6) 23 20
  let code := openCode n e d
  let rule := ctxRule 1 sp true (d.cqActive n) (data.take 16)
  if code != 0 then finishWe n q i code {} d
  else if rule != 0 then finishWe n q i cNotPermitted { r2 := 1 + 256 * rule } d
  else
    let p := (d.physPort n (wePort e)).getD 0
    let d := d.modHandle n h (fun _ => {
      speed := sp, route := bitsOf (dwAt e 6) 19 0, port := p, hub := bitsOf (dwAt e 7) 12 0
      ttPort := bitsOf (dwAt e 7) 23 16, multiTt := bitOf (dwAt e 7) 24, ctxAddr := (qwAt e 4).toNat })
    ((waitEnt n q i 3 0 d).modEng n (fun x => { x with
      commits := x.commits ++ [{ wq := q, idx := i, h := h, port := p, ctx := [(1, data.take 16)] }] }) |>
      queueCarve n { wq := q, idx := i, h := h, ep := 1, pages := 1, opening := true })

/-- The lowest free address on the port (R95). -/
def Dev.freeAddr (d : Dev) (n p : Nat) : Option Nat :=
  ((List.range 128).drop 1).find? (fun a => !((d.eng n).handles.any (fun y => y.2.st != .closed && y.2.port == p && y.2.addr == a) ||
    (d.slice n).wqs.any (fun w => w.2.exec.any (fun x => weOp x.dws == 0x03 && x.aux == a && 2 ≤ x.phase &&
      (d.handle n (weHandle x.dws)).port == p))))

/-- ASSIGN_ADDRESS (R95): SET_ADDRESS goes to endpoint 1 as a transfer of its own. -/
def assignAct (n q : Nat) (i : Dword) (e : List Dword) (d : Dev) : Dev :=
  let h := weHandle e
  let x := d.handle n h
  let ep := x.ep 1
  let code := d.handleCode n h
  if code != 0 then finishWe n q i code {} d
  else if ep.xfer.isSome then finishWe n q i cBusy {} d
  else if x.st != .default || ep.st != .running || (ep.ring 0).held.length != 0 then finishWe n q i cNotPermitted {} d
  else match d.freeAddr n x.port with
    | none => finishWe n q i cNotPermitted {} d
    | some a =>
      let hf := d.epHalf n h
      let gen := (d.half hf).pickUnit 0
      let nt := newTag n (genAdd hf gen true d)
      let t : Xfer := { first := 0, last := 0, control := true, assign := some (q, i, a), stage := 1, half := hf, gen := gen
                        uid := nt.1, setup := [0x00, 0x05, BitVec.ofNat 8 a, 0, 0, 0, 0, 0] }
      waitEnt n q i 2 a (nt.2.modEp n h 1 (fun y => { y with xfer := some t }))
def execAssignAddress (n : SliceId) (wq : Nat) (i : Dword) (s : State) : Outc :=
  run (onHandle 0x03 n wq i (assignAct n.val wq i)) s

/-- The recovery after SET_ADDRESS ends (R95). -/
def assignEnd (n q : Nat) (i : Dword) (d : Dev) : Dev :=
  match d.execEnt n q i with
  | none => d
  | some ent =>
    if weOp ent.dws != 0x03 || ent.phase != 3 then d else
    let h := weHandle ent.dws
    let d := writeHeader n h (d.modHandle n h (fun x => { x with st := .addressed, addr := ent.aux }))
    finishWe n q i cOk { r0 := ent.aux } d
def execAssignAddressRecoveryEnd (n : SliceId) (wq : Nat) (i : Dword) (s : State) : Outc := run (assignEnd n.val wq i) s

/-- UPDATE_DEVICE (R96): read the input. -/
def updateAct (n q : Nat) (i : Dword) (e : List Dword) (d : Dev) : Dev :=
  let code := d.handleCode n (weHandle e)
  if code != 0 then finishWe n q i code {} d
  else hostRead n (d.wqHalf n q) (qwAt e 4).toNat 64 (.struct q i) (waitEnt n q i 1 0 d)
def execUpdateDevice (n : SliceId) (wq : Nat) (i : Dword) (s : State) : Outc :=
  run (onHandle 0x04 n wq i (updateAct n.val wq i)) s

/-- EP0_MPS allowed for a speed (R96). -/
def ep0Ok (sp v : Nat) : Bool :=
  if sp = 2 then v == 8 else if sp = 1 then [8, 16, 32, 64].contains v else if sp = 3 then v == 64 else v == 512

/-- The first word of an UPDATE_DEVICE input that refuses it (R96). -/
def updateBad (n h : Nat) (c : List Dword) (d : Dev) : Option Nat :=
  let f := dwAt c 0
  let x := d.handle n h
  if outside f 7 || f = 0 then some 0
  else if outside (dwAt c 1) 0x7FF || (bitOf f 0 && !(ep0Ok x.speed (bitsOf (dwAt c 1) 10 0))) then some 1
  else if outside (dwAt c 2) 0xFFF || (bitOf f 1 && (bitsOf (dwAt c 2) 11 4 = 0 ||
      (!(bitOf (dwAt c 2) 0) && d.hasBelow n h))) then some 2
  else if outside (dwAt c 3) 0x1F then some 3
  else ((List.range 16).drop 4).find? (fun k => dwAt c k != 0)

/-- The input arrived: all flagged groups in one step, or nothing (R96). -/
def updateRead (n q : Nat) (i : Dword) (e data : List Dword) (d : Dev) : Dev :=
  let h := weHandle e
  let c := data.take 16
  let f := dwAt c 0
  let code := d.handleCode n h
  if code != 0 then finishWe n q i code {} d
  else match updateBad n h c d with
    | some k => finishWe n q i cNotPermitted { r2 := k } d
    | none =>
      if bitOf f 0 && (d.ep n h 1).xfer.isSome then finishWe n q i cBusy {} d else
      finishWe n q i cOk {} (d.modHandle n h (fun x => { x with
        ep0Mps := if bitOf f 0 then bitsOf (dwAt c 1) 10 0 else x.ep0Mps
        isHub := if bitOf f 1 then bitOf (dwAt c 2) 0 else x.isHub
        hubMultiTt := if bitOf f 1 then bitOf (dwAt c 2) 1 else x.hubMultiTt
        ttThink := if bitOf f 1 then bitsOf (dwAt c 2) 3 2 else x.ttThink
        hubPorts := if bitOf f 1 then bitsOf (dwAt c 2) 11 4 else x.hubPorts
        besl := if bitOf f 2 then bitsOf (dwAt c 3) 3 0 else x.besl
        beslValid := if bitOf f 2 then bitOf (dwAt c 3) 4 else x.beslValid }))

/-- CLOSE_DEVICE (R97). -/
def closeAct (n q : Nat) (i : Dword) (e : List Dword) (d : Dev) : Dev :=
  let h := weHandle e
  if (d.handle n h).st == .closed || d.hasBelow n h then finishWe n q i cNotPermitted {} d
  else stopFor n q i h (d.handle n h).live d
def execCloseDevice (n : SliceId) (wq : Nat) (i : Dword) (s : State) : Outc :=
  run (onHandle 0x05 n wq i (closeAct n.val wq i)) s

/-- ADMIT_ENDPOINTS (R124, R125): read the input contexts, one read each; the endpoints are met once the commands before it have
their result (R126). -/
def admitAct (n q : Nat) (i : Dword) (e : List Dword) (d : Dev) : Dev :=
  let es := maskBits (dwAt e 4).toNat
  let code := admitCode n e d
  if code != 0 then finishWe n q i code {} d
  else forEach es (fun k d => hostRead n (d.wqHalf n q) ((qwAt e 5).toNat + 64 * k) 64 (.struct q i) d) (waitEnt n q i 1 0 d)
def execAdmitEndpoints (n : SliceId) (wq : Nat) (i : Dword) (s : State) : Outc :=
  run (fun d => carves n (onHandle 0x08 n wq i (admitAct n.val wq i) d)) s

/-- The input contexts arrived, in ascending index order (R125, R143). -/
def admitRead (n q : Nat) (i : Dword) (e data : List Dword) (d : Dev) : Dev :=
  let h := weHandle e
  let es := maskBits (dwAt e 4).toNat
  let cs := es.zip (groupsOf 16 es.length data)
  let code := admitCode n e d
  if code != 0 then finishWe n q i code {} d
  else
      ((waitEnt n q i 3 0 d).modEng n (fun x => { x with
        commits := x.commits ++ [{ wq := q, idx := i, h := h, port := (d.handle n h).port, mask := (dwAt e 4).toNat, ctx := cs }] }) |>
        queueCarve n { wq := q, idx := i, h := h, ep := 0, pages := 0, opening := false })

/-- RETIRE_ENDPOINTS (R145). -/
def retireAct (n q : Nat) (i : Dword) (e : List Dword) (d : Dev) : Dev :=
  retireOn n q i e (forEach (maskBits (dwAt e 4).toNat) (useCtx n (weHandle e)) d)
def execRetireEndpoints (n : SliceId) (wq : Nat) (i : Dword) (s : State) : Outc :=
  run (onHandle 0x09 n wq i (retireAct n.val wq i)) s

/-- STOP_ENDPOINT (R99). -/
def stopAct (n q : Nat) (i : Dword) (e : List Dword) (d : Dev) : Dev :=
  let h := weHandle e
  let k := weEp e
  if (d.handle n h).st == .detached then finishWe n q i cDetached {} d
  else match (d.ep n h k).st with
    | .disabled => finishWe n q i cNotPermitted {} d
    | .running => stopFor n q i h [k] d
    | .halted | .stopped | .haltedMalformed =>
      -- R89: the context is written back at the completion of STOP_ENDPOINT, whatever the state
      stopResult n q i e (writeCtx n h k d)
def execStopEndpoint (n : SliceId) (wq : Nat) (i : Dword) (s : State) : Outc :=
  run (onHandle 0x0A n wq i (stopAct n.val wq i)) s

/-- CLEAR_HALT (R101). It clears HALT_CODE and HALT_REASON with ERR_ADDR (DESIGN CHOICE, log entry 68: R101 names ERR_ADDR alone). -/
def clearHaltAct (n q : Nat) (i : Dword) (e : List Dword) (d : Dev) : Dev :=
  let h := weHandle e
  let k := weEp e
  let x := d.ep n h k
  if (d.handle n h).st == .detached then finishWe n q i cDetached {} d
  else if x.st != .halted && x.st != .haltedMalformed then finishWe n q i cNotPermitted {} d
  else if x.st == .haltedMalformed && x.haltReason = 10 then finishWe n q i cNotPermitted { r2 := k + 2560 } d
  else
    let fix := x.st == .haltedMalformed && x.errAddr != 0 && x.haltReason != 11
    finishWe n q i cOk {} (d.modEp n h k (fun y => { y with
      st := .stopped, errAddr := 0, haltCode := 0, haltReason := 0
      rings := y.rings.map (fun r => if fix && r.2.fetch == y.errAddr then
        (r.1, Ring.drop { r.2 with deq := y.errAddr, cyc := r.2.fcyc, loaded := true }) else r)
      bus := { y.bus with toggle := false, seq := 0, errors := 0, level := 0, naks := 0, ping := false, pinging := false
                          parked := false, csplit := false } }))
def execClearHalt (n : SliceId) (wq : Nat) (i : Dword) (s : State) : Outc :=
  run (onHandle 0x0B n wq i (clearHaltAct n.val wq i)) s

/-- STREAM names a ring of the endpoint (R102, R116). -/
def Ep.streamOk (x : Ep) (st : Nat) : Bool := if x.cfg.streams then 1 ≤ st && st ≤ x.cfg.numStreamsM1 + 1 else st == 0

/-- MOVE_DEQUEUE (R102). -/
def moveAct (n q : Nat) (i : Dword) (e : List Dword) (d : Dev) : Dev :=
  let h := weHandle e
  let k := weEp e
  let x := d.ep n h k
  let st := (dwAt e 6).toNat
  let a := (qwAt e 4).toNat
  if (d.handle n h).st == .detached then finishWe n q i cDetached {} d
  else if x.st == .running || x.st == .disabled || !(x.streamOk st) then finishWe n q i cNotPermitted {} d
  else finishWe n q i cOk {} ((d.modEp n h k (fun y => { y with errAddr := 0 })).modRing n h k st (fun r =>
    Ring.drop { r with deq := a / 32 * 32, cyc := a % 2 == 1, loaded := true }))
def execMoveDequeue (n : SliceId) (wq : Nat) (i : Dword) (s : State) : Outc :=
  run (onHandle 0x0C n wq i (moveAct n.val wq i)) s

/-- CARVE_POOL (R211, R213): it takes its place in the order of carves. -/
def carveAct (n q : Nat) (i : Dword) (e : List Dword) (d : Dev) : Dev :=
  carves n (queueCarve n { wq := q, idx := i, h := weHandle e, ep := weEp e, pages := bitsOf (dwAt e 4) 15 0, opening := false }
    (waitEnt n q i 3 0 d))
def execCarvePool (n : SliceId) (wq : Nat) (i : Dword) (s : State) : Outc :=
  run (onHandle 0x18 n wq i (carveAct n.val wq i)) s

/-- RELEASE_POOL (R212). -/
def releaseAct (n q : Nat) (i : Dword) (e : List Dword) (d : Dev) : Dev :=
  let h := weHandle e
  let k := weEp e
  let x := d.ep n h k
  if (d.handle n h).st == .detached then finishWe n q i cDetached {} d
  else if x.st == .disabled || x.st == .running then finishWe n q i cNotPermitted {} d
  else
    let moved := x.addedPg.length
    let d := releasePages n (d.epHalf n h) x.addedPg (d.modEp n h k (fun y => { y with addedPg := [] }))
    carves n (finishWe n q i cOk (poolRes d n h k moved) d)
def execReleasePool (n : SliceId) (wq : Nat) (i : Dword) (s : State) : Outc :=
  run (onHandle 0x19 n wq i (releaseAct n.val wq i)) s

/-! ### Result areas (R86) and QUERY_PLAN (R152) -/

/-- Write the result area and complete on the same link: truncated at AUX_LEN with Short packet (R86, R224). -/
def resultWe (n q : Nat) (i : Dword) (e : List Dword) (bytes : List Byte) (d : Dev) : Dev :=
  match d.execEnt n q i with
  | none => d
  | some ent =>
    let hf := d.wqHalf n q
    let out := bytes.take (weAuxLen e)
    let link := d.chooseLink n hf
    let d := (cuts (link.elim 512 d.wWrite) (weAuxAddr e) out.length).foldl (fun d c =>
      writeOn link n hf ent.uid c.1 ((out.drop (c.1 - weAuxAddr e)).take c.2) d) d
    let d := modEnt n q i (fun g => { g with link := some (link.getD 0xFF) }) d
    finishWe n q i (if bytes.length ≤ weAuxLen e then cOk else cShort) { r0 := bytes.length } d

/-- Insert a record by OFFSET, HANDLE, EP. -/
def insertRec (r : PlanRec) : List PlanRec → List PlanRec
  | [] => [r]
  | x :: l => if r.offset < x.offset || (r.offset == x.offset && (r.h < x.h || (r.h == x.h && r.ep < x.ep))) then r :: x :: l
    else x :: insertRec r l

/-- A record of 32 bytes (R152). -/
def recordDws (r : PlanRec) : List Dword :=
  [w32 (r.h + 0x10000 * r.ep + 2 ^ 21 * (if r.iso then 1 else 3) + 2 ^ 23 * b2n r.split + 2 ^ 24 * r.interval + 2 ^ 28 * r.speed),
   w32 (r.offset + 256 * r.txnM1 + 0x10000 * r.ssMask + 0x1000000 * r.csMask), w32 r.cost,
   w32 (r.ttStart + 0x10000 * r.ttEnd), w32 r.esit, w32 r.lead, w32 (r.ttHub + 0x10000 * r.ttIndex),
   w32 (b2n r.crossing + 2 * b2n r.contingent)]

/-- PORT_SPEED of R152: 0 while the bus has no speed. -/
def planSpeed (x : PortBus) (ss : Bool) : Nat :=
  if ss then (match x.ss with | .detached | .rxDetect | .polling | .disabled => 0 | _ => x.ssSpeed)
  else match x.usb2 with | .detached | .disconnected | .disabled => 0 | _ => x.usb2Speed

/-- The result of QUERY_PLAN (R152). -/
def planBytes (d : Dev) (p lport : Nat) (ss : Bool) : List Byte :=
  let rs := (onBus ss (d.port p).plan).foldl (fun l r => insertRec r l) []
  let sp := planSpeed (d.port p).bus ss
  let hdr := [w32 (1 + 256 * lport + 0x10000 * sp + 2 ^ 20 * b2n ss), w32 (rs.length + 0x10000 * 32), (d.port p).epoch2,
    w32 (periodicLimit sp), w32 (d.mf (halfOfPort p) % 65536 + 0x10000 * (32 + 32 * rs.length)), 0, 0, 0]
  dwBytes (hdr ++ rs.flatMap recordDws ++ (List.range 256).flatMap (fun m =>
    [w32 (sumOf (rs.map (fun r => r.down m))), w32 (sumOf (rs.map (fun r => r.up m)))]))

/-- QUERY_PLAN (R152). -/
def planAct (n q : Nat) (i : Dword) (e : List Dword) (d : Dev) : Dev :=
  match d.physPort n (wePort e) with
  | none => finishWe n q i cDetached {} d
  | some p => if (d.port p).bus.resetRequired then finishWe n q i cNotPermitted {} d else resultWe n q i e (planBytes d p (wePort e) (bitOf (dwAt e 4) 0)) d
def execQueryPlan (n : SliceId) (wq : Nat) (i : Dword) (s : State) : Outc :=
  run (onEntry 0x1C n wq i (planAct n.val wq i)) s

/-- A structure that an entry reads arrived (R94, R96, R125). -/
def structArrived (n q : Nat) (i : Dword) (data : List Dword) (d : Dev) : Dev :=
  match d.readOut n (.struct q i) with
  | none => d
  | some r =>
    let d := structReads n (fun x => x == .struct q i) (confirmBy r n d)
    let d := releaseDue n d
    match d.execEnt n q i with
    | none => d
    | some ent =>
      if ent.phase != 1 then d else
      let op := weOp ent.dws
      -- a refusal lets later carves go on (R213)
      if op = 0x02 then carves n (openRead n q i ent.dws data d)
      else if op = 0x04 then updateRead n q i ent.dws data d
      else if op = 0x08 then carves n (admitRead n q i ent.dws data d)
      else d
def execHostStructureReadComplete (n : SliceId) (wq : Nat) (i : Dword) (data : List Dword) (s : State) : Outc :=
  run (structArrived n.val wq i data) s

end Sys2Proof.Machine
end

