-- ==== Sys2Proof/Machine/Queues.lean ====
section
/-! DEFINITION. Doorbells, pushes, queue reads and timers (R53, R56, R58, R65 to R72, R76, R77, R81, R110), the reads of rings,
contexts and data (R92, R109, R112, R115, R219, R228, R239, R240, R485), Wash and bank power (R209, R230). -/
namespace Sys2Proof.Machine

/-! ### Shared operations -/

/-- The skipped opportunities of a periodic endpoint are reported once service can resume (R78, R247). -/
def reportSkips (n h e reason : Nat) (d : Dev) : Dev :=
  let x := d.ep n h e
  if x.skipped != 0 && x.skipReason = reason then
    postRun n h e cMissed (if reason = 4 then 4 else 7) x.skipMf x.skipped (d.modEp n h e (fun y => { y with skipped := 0 }))
  else d

/-- Every endpoint of a slice that is not Disabled. -/
def Dev.liveEps (d : Dev) (n : Nat) : List (Nat × Nat) := (d.eng n).handles.flatMap (fun h => h.2.live.map (fun e => (h.1, e)))

/-- Go on with an endpoint's ring where it waits. -/
def resumeEp (n h e : Nat) (d : Dev) : Dev := pump n h e (d.curStream n h e) false d

/-- Completion queue q may have taken completions: what waited on it goes on (R78). -/
def spaceBack (n q : Nat) (d : Dev) : Dev :=
  let d := releaseDue n (drainCq n q d)
  if (d.cq n q).full || (d.cq n q).held.any (fun c => !c.defer) then d else
  let d := ((d.liveEps n).filter (fun x => (d.ep n x.1 x.2).cfg.targetCq == q)).foldl (fun d x =>
    resumeEp n x.1 x.2 (reportSkips n x.1 x.2 4 d)) d
  ((d.slice n).wqs.filter (fun w => w.2.target.toNat == q)).foldl (fun d w => settleWq n w.1 d) d

/-- A freeze is complete once every write is confirmed (R286). -/
def freezeCheck (n : Nat) (d : Dev) : Dev :=
  let x := d.slice n
  if x.op.isSome && x.opCode = 0x43 && (d.eng n).unconf.isEmpty then opEnd n cOk 0 0 0 0 (setSliceSt n .frozen d)
  else d

/-- A read of the slice returned: writes before it are confirmed and what waited for them is written (R239, R240). -/
def returned (n : Nat) (x : HRead) (d : Dev) : Dev :=
  let d := releaseDue n (confirmBy x n d)
  freezeCheck n (((d.slice n).wqs).foldl (fun d w => settleWq n w.1 d) d)

/-- Act on a returned read where it was outstanding; a completion for an abandoned read is discarded (R481), and one whose
purpose has ended only confirms (R239). -/
def onRead (n : Nat) (r : ReadRef) (f : HRead → Dev → Dev) (d : Dev) : Dev :=
  match d.readOut n r with
  | some x => if x.dead then returned n x d else f x (returned n x d)
  | none => d

/-- Every endpoint of the slice goes on. -/
def resumeAll (n : Nat) (d : Dev) : Dev := (d.liveEps n).foldl (fun d x => resumeEp n x.1 x.2 d) d

/-- A slice's path may be back: reissue, write what is held, report opportunities skipped, and go on (R41, R246, R247). -/
def pathBack (n : Nat) (d : Dev) : Dev :=
  let d := drainAll n (reissueHalf n 1 (reissueHalf n 0 d))
  let d := if d.noPath n 0 && d.noPath n 1 then d else
    resumeAll n ((d.liveEps n).foldl (fun d x => if d.noPath n (d.epHalf n x.1) then d else reportSkips n x.1 x.2 7 d) d)
  releaseVectors n d

/-- Writes and reads of a slice are lost with a link: the writes reissue on the new path, then a slice event (R246, R481). -/
def loseFor (n : Nat) (lostW : HWrite → Bool) (lostR : HRead → Bool) (force : Bool) (d : Dev) : Dev :=
  let x := d.eng n
  let hit := force || x.unconf.any lostW || x.reads.any lostR
  let d := markLost n lostW lostR d
  -- a flush read on the lost link is no longer needed
  let d := d.modSlice n (fun s => { s with cqs := tabMap (fun _ c => if c.flush = 1 || c.flush = 2 then { c with flush := 3 } else c) s.cqs })
  pathBack n (doIf hit (pathChanged n) d)

/-- A link that the slice lost through a failed confirm or flush read (R239). -/
def loseLink (n f : Nat) (d : Dev) : Dev :=
  let d := d.modEng n (fun x => { x with lost := if x.lost.contains f then x.lost else x.lost ++ [f] })
  loseFor n (fun w => w.f == f) (fun r => r.f == f) true d

/-! ### Doorbells and pushes -/

def execWqDoorbell (f : FuncId) (n : SliceId) (v : Dword) (s : State) : Outc :=
  run (fun d => if d.shows f n then doorbellWq n (bitsOf v 11 0) d else d) s

/-- A wake condition of R433 on port p: its group in Port Sleep is waking, until PORT_SLEEP_WAKE brings it on. -/
def pgWake (p : Nat) (d : Dev) : Dev := if (d.pg (p / 8)).st = 1 then d.modPg (p / 8) (fun x => { x with st := 4 }) else d

/-- Leave L1 by driving K, or U1 or U2 by the exit handshake, on the bus of a handle (R147, R187, R199); the bus is in L1
until the drive ends (R186). partner: its K came first. -/
def wakeBus (p : Nat) (ss partner : Bool) (d : Dev) : Dev :=
  let b := (d.port p).bus
  if ss then
    if b.ss == .u1 || b.ss == .u2 then emit (.signal (toPort p) .ss .exitLfps) (d.modBus p (fun b => { b with ss := .recovery })) else d
  else if b.usb2 == .l1 && !b.l1Exit then
    emit (.signal (toPort p) .usb2 .kDrive) (d.modBus p (fun b => { b with l1Exit := true, wakeFirst := partner }))
  else d

/-- STOP_ENDPOINT has started for the endpoint and its completion is not yet written, or RETIRE_ENDPOINTS or CLOSE_DEVICE acts on it
(R98, R100). -/
def Dev.stopActs (d : Dev) (n h e : Nat) : Bool :=
  let x := d.slice n
  x.wqs.any (fun w => w.2.exec.any (fun g => weHandle g.dws == h &&
    ((weOp g.dws == 0x0A && weEp g.dws == e) || (g.phase != 0 && (weOp g.dws == 0x05 ||
      (weOp g.dws == 0x09 && bitOf (dwAt g.dws 4) e)))))) ||
  x.cqs.any (fun c => c.2.held.any (fun k => k.stops == some (h, e))) || (d.eng n).due.any (fun u => u.comp.stops == some (h, e))

/-- The endpoint accepts doorbells for the stream (R56, R98, R100, R116). -/
def Dev.epAccepts (d : Dev) (n h e st : Nat) : Bool :=
  let x := d.ep n h e
  (d.slice n).accepts && h < Config.shareHandles d.S && 1 ≤ e && (x.st == .running || x.st == .stopped) && !x.stopping &&
    x.streamOk st && !(d.stopActs n h e)

/-- An accepted doorbell: Stopped becomes Running and the ring is read from the fetch point; a stream becomes Pending
(R98, R110, R176). -/
def ringEp (n h e st : Nat) (d : Dev) : Dev :=
  let hd := d.handle n h
  let d := wakeBus hd.port (speedSs hd.speed) false (pgWake hd.port d)
  let d := useCtx n h e (d.modEp n h e (fun x => { x with st := .running }))
  if !(d.ep n h e).cfg.streams then pokeRing n h e 0 d else
  let d := d.modEp n h e (fun x => { x with
    rings := if (tabFind x.rings st).isSome then x.rings else tabPut x.rings st { loaded := false } })
  let r := d.ring n h e st
  if r.sst == .active then pokeRing n h e st d else d.modRing n h e st (fun r => { r with sst := .pending })

/-- EP_DOORBELL as one 64-bit write (R54, R56, R110). -/
def epRing (n : Nat) (v : Qword) (d : Dev) : Dev :=
  let h := bitsOf v 12 0
  let e := bitsOf v 20 16
  let st := bitsOf v 40 32
  if d.epAccepts n h e st then ringEp n h e st d else dbIgnored n d
def execEpDoorbell (f : FuncId) (n : SliceId) (v : Qword) (s : State) : Outc :=
  run (fun d => if d.shows f n then epRing n v d else d) s

/-- CQ_DOORBELL as one 64-bit write (R56, R59, R63, R77). -/
def cqRing (n : Nat) (v : Qword) (d : Dev) : Dev :=
  let q := bitsOf v 43 32
  let ci := w32 (bitsOf v 31 0)
  let arm := bitOf v 48
  let c := d.cq n q
  if d.share ≤ q || !((d.slice n).accepts) || c.st == .disabled || c.st == .stopped then dbIgnored n d
  else if c.st == .error then
    d.modCq n q (fun c => { c with ci := ci, armPend := c.armPend || arm, errIndex := c.errIndex })
  else if c.size < (c.pi - ci).toNat then
    d.modCq n q (fun c => { c with st := .error, errCode := BitVec.ofNat 8 cOverrun, errIndex := ci, ci := ci
                                   armPend := c.armPend || arm })
  else
    let pi := c.pi
    let d := d.modCq n q (fun c => { c with ci := ci, armed := c.armed || arm })
    -- the comparison uses PI at the arrival of the write
    let d := if arm && pi != ci then cqMessage n q d else d
    spaceBack n q d
def execCqDoorbell (f : FuncId) (n : SliceId) (v : Qword) (s : State) : Outc :=
  run (fun d => if d.shows f n then cqRing n v d else d) s

def execWqPush (f : FuncId) (n : SliceId) (q : Fin 8) (k : Fin 4) (e : List Dword) (s : State) : Outc :=
  run (fun d => if d.shows f n then pushWq n q.val k.val (e.take 16) d else d) s

/-- EP_PUSH (R70): the entry is taken at the endpoint's next fetch address with the expected cycle, or is a doorbell. While a read from
that address is outstanding it is a doorbell too (DESIGN CHOICE, log entry 68: R70 does not say which of the two the slot is for). -/
def pushEp (n : Nat) (e : List Dword) (d : Dev) : Dev :=
  let v := qwAt e 8
  let h := bitsOf v 12 0
  let k := bitsOf v 20 16
  let st := bitsOf v 40 32
  let slot := (qwAt e 10).toNat
  let r := d.ring n h k st
  let ent := e.take 8
  let live := !(d.ep n h k).cfg.streams || (d.ep n h k).bus.curStream == st
  if d.epAccepts n h k st && live && r.loaded && !r.rdOut && r.bad.isNone && r.failed.isNone && r.held.length < 8 && slot == r.fetch &&
      teCycle ent == r.fcyc && (List.range 4).all (fun i => dwAt e (12 + i) == 0) then
    let t := holdEntries (d.ep n h k).cfg (d.mf (d.epHalf n h)) false [ent] r
    let hd := d.handle n h
    let d := wakeBus hd.port (speedSs hd.speed) false (pgWake hd.port d)
    let d := useCtx n h k (d.modEp n h k (fun x => { x with st := .running }))
    pump n h k st false (d.modRing n h k st (fun _ => { t.2 with full := t.2.full && 8 ≤ t.2.held.length }))
  else epRing n v (d.modSlice n (fun x => { x with pushFallback := x.pushFallback + 1 }))
def execEpPush (f : FuncId) (n : SliceId) (e : List Dword) (s : State) : Outc :=
  run (fun d => if d.shows f n then pushEp n e d else d) s

/-- Q_SELECT (R61). -/
def execQSelect (f : FuncId) (n : SliceId) (v : Dword) (s : State) : Outc :=
  run (fun d => if d.shows f n then d.modSlice n (fun x => { x with qNum := BitVec.ofNat 12 (bitsOf v 11 0), qKind := bitOf v 12 })
    else d) s

/-! ### Queue reads and timers -/

def execPiReadComplete (n : SliceId) (wq : Nat) (pi : Dword) (s : State) : Outc :=
  run (onRead n (.pi wq) (fun _ => piArrived n wq pi)) s

def execWorkEntryReadComplete (n : SliceId) (wq : Nat) (data : List Dword) (s : State) : Outc :=
  run (onRead n (.work wq) (fun x => entriesArrived n wq x.off data)) s

def execWqArbitrationTurn (n : SliceId) (s : State) : Outc := run (wqTurn n) s

/-- MOD_TIME ends on an armed queue (R76). -/
def execModTimeExpiry (n : SliceId) (cq : Nat) (s : State) : Outc :=
  run (fun d => if (d.cq n cq).armed && (d.cq n cq).modRun then cqMessage n cq d else d) s

/-- The bound for writing an advanced CI (R53). -/
def execCiWriteDeadline (n : SliceId) (wq : Nat) (s : State) : Outc :=
  run (fun d => if (d.wq n wq).ciDirty then writeCi n wq d else d) s

/-! ### Ring, context and data reads -/

def execTransferEntryReadComplete (n : SliceId) (h ep stream : Nat) (data : List Dword) (s : State) : Outc :=
  run (onRead n (.transferEntry h ep stream) (fun x d => goStop n h ep (transferEntriesArrived n h ep stream x data d))) s

def execFragmentTableReadComplete (n : SliceId) (h ep stream : Nat) (data : List Dword) (s : State) : Outc :=
  run (onRead n (.fragment h ep stream) (fun x => fragmentTableArrived n h ep x data)) s

/-- A stream context arrived (R115, R117 REASON 11); a STOP_ENDPOINT that waits for it reports its DEQUEUE (R99). -/
def streamCtxArrived (n h e st : Nat) (data : List Dword) (d : Dev) : Dev :=
  let at_ := (qwAt data 0).toNat
  let d := (d.stopReads n h e st).foldl (fun d w => finishWe n w.1 w.2 cOk { r1 := at_ / 32 * 32 + at_ % 2 } d) d
  let x := d.ep n h e
  let d := d.modRing n h e st (fun r => { r with rdOut := false })
  if !x.acts then d
  else if streamBad data then malformed n h e st (x.base + 16 * (st - 1)) 11 false 0 d
  else
    let deq := (qwAt data 0).toNat
    pokeRing n h e st (d.modRing n h e st (fun r => { Ring.drop { r with deq := deq / 32 * 32, cyc := deq % 2 == 1 } with
      loaded := true }))
def execStreamContextReadComplete (n : SliceId) (h ep stream : Nat) (data : List Dword) (s : State) : Outc :=
  run (onRead n (.streamCtx h ep stream) (fun _ => streamCtxArrived n h ep stream data)) s

/-- A context read back from the device context area (R92, R101 REASON 10). -/
def contextArrived (n h e : Nat) (data : List Dword) (d : Dev) : Dev :=
  let x := d.ep n h e
  if e = 0 || !x.reload || x.st == .disabled then d else
  let d := d.modEp n h e (fun y => { y with reload := false, lost := false })
  if ctxRule e (d.handle n h).speed false (d.cqActive n) (data.take 16) = 0 then
    (if !x.lost then d else
      let y := epOfCtx (data.take 16) 0 []
      pokeRing n h e 0 (d.modEp n h e (fun z => { z with rings := y.rings, base := y.base })))
  else malformed n h e (d.curStream n h e) ((d.handle n h).ctxAddr + 64 * e) 10 false 0 d
def execContextLoadComplete (n : SliceId) (h ep : Nat) (data : List Dword) (s : State) : Outc :=
  run (onRead n (.context h ep) (fun _ => contextArrived n h ep data)) s

/-- The data read at a stream offset. -/
def Dev.dataRead (d : Dev) (n h e st off : Nat) : Option HRead :=
  (d.eng n).reads.find? (fun x => x.r == .data h e st && x.off == off)
def dataCompleted (n h e st off : Nat) (bytes : List Byte) (bad : Nat) (d : Dev) : Dev :=
  match d.dataRead n h e st off with
  | some x =>
    let d := returned n x d
    if x.dead then d else goStop n h e <| resumeEp n h e (dataArrived n h e off (padTo x.len (bytes.take x.len)) bad x d)
  | none => d
def execDataReadComplete (n : SliceId) (h ep stream off : Nat) (bytes : List Byte) (sealBad : Nat) (s : State) : Outc :=
  run (dataCompleted n h ep stream off bytes sealBad) s

/-- The write of a result area failed (R484): the completion that waits for it reports Data buffer error and no result. -/
def resultFailed (q : Nat) (i : Dword) (u : Due) : Due :=
  if u.comp.wqOf == some q && dwAt u.comp.dws 2 == i && u.comp.link.isSome then
    { u with mute := false, comp := { u.comp with dws := compDws (dwAt u.comp.dws 0).toNat q 0 cDataBuffer i.toNat 0 0 0 } }
  else u

/-- A read that ends without its data, on a link that is not lost (R68, R228, R483, R484, R485, R414). -/
def readFailed (n : Nat) (x0 : HRead) (d : Dev) : Dev :=
  match x0.r with
  | .pi q => wqReadFailed n q true x0.off d
  | .work q => wqReadFailed n q false x0.off d
  | .transferEntry h e st =>
    let r := d.ring n h e st
    if !r.rdOut || !(d.ep n h e).readsOn then d.modRing n h e st (fun r => { r with rdOut := false })
    else goStop n h e (pump n h e st false (d.modRing n h e st (fun r => { r with rdOut := false, failed := some r.fetch })))
  | .fragment h e _ =>
    match d.xferOf n h e x0.tag with
    | some x =>
      if (d.ep n h e).pre.any (fun p => p.uid == x.uid) then d.modXferOf n h e x.uid (fun x => { x with preBad := some 0 })
      else xferReadFailed n h e x.last x.nextCyc d
    | none => d
  | .streamCtx h e st =>
    -- the stream's ring cannot be used: the transfer that needed it ends as R485 says, with no entry read
    let d := (d.stopReads n h e st).foldl (fun d w => finishWe n w.1 w.2 cDataBuffer {} d) d
    let d := d.modRing n h e st (fun r => { r with rdOut := false })
    if !(d.ep n h e).acts then d else
    haltEp n h e cDataBuffer 0 0 false
      (post n (d.ep n h e).cfg.targetCq (xferComp h e cDataBuffer 0 0 st 0 0 ((d.ep n h e).base + 16 * (st - 1)) 0 0 false none) d)
  | .context h e =>
    let d := if e = 0 then d else d.modEp n h e (fun y => { y with reload := false })
    if !(d.ep n h e).acts then d else
    match (d.ep n h e).xfer with
    | some _ => endHalting n h e cDataBuffer none d
    | none => haltEp n h e cDataBuffer 0 0 false
        (post n (d.ep n h e).cfg.targetCq (xferComp h e cDataBuffer 0 0 0 0 0 ((d.ep n h e).ring 0).deq 0 0 false none) d)
  | .data h e _ =>
    match d.xferOf n h e x0.tag with
    | some x =>
      if (d.ep n h e).pre.any (fun p => p.uid == x.uid) then d.modXferOf n h e x.uid (fun x => { x with preBad := some 2 })
      else endHalting n h e cDataBuffer none d
    | none => d
  | .struct q i =>
    match d.execEnt n q i with
    | some ent => if ent.phase = 1 then carves n (finishWe n q i cDataBuffer {} (cancelReads n (fun x => x == .struct q i) d)) else d
    | none => d
  | .result q i => d.modEng n (fun x => { x with due := x.due.map (resultFailed q i) })
  | .confirm _ => d
  | .flush q => spaceBack n q (d.modCq n q (fun c => { c with flush := 3 }))

/-- A host read that fails on a link that is not lost; a posted write of a result area is named by its entry and is not a read
(R484). -/
def hostFailed (n : Nat) (r : ReadRef) (d : Dev) : Dev :=
  match r with
  | .result _ _ => readFailed n { r := r, f := 0xFF, addr := 0, len := 0, mark := 0 } d
  | _ => onRead n r (readFailed n) d
def execHostReadFailure (n : SliceId) (r : ReadRef) (_k : ReadFail) (s : State) : Outc := run (hostFailed n r) s

/-- A completion timeout: no completion confirms anything; a confirm or flush read makes the link lost (R239, R481). -/
def timedOut (n : Nat) (r : ReadRef) (d : Dev) : Dev :=
  match d.readOut n r with
  | none => d
  | some x =>
    let d := d.modEng n (fun e => { e with reads := e.reads.erase x })
    let fail := fun (d : Dev) => loseLink n x.f { d with sinopia := { d.sinopia with flushFailures := d.sinopia.flushFailures + 1 } }
    match r with
    | .confirm f => fail (raise { c := 69, inst := f, slice := n, half := halfOfFunc f } d)
    | .flush q => fail (raise { c := 69, inst := x.f, slice := n, half := halfOfFunc x.f }
        (d.modCq n q (fun c => { c with flush := 3 })))
    | _ => releaseDue n (if x.dead then d else readFailed n x d)
def execCompletionTimeout (n : SliceId) (r : ReadRef) (s : State) : Outc := run (timedOut n r) s

/-- A confirm read on a link with unconfirmed writes and no later read outstanding (R239). -/
def confirmIssue (n f : Nat) (d : Dev) : Dev :=
  let x := d.eng n
  match (x.unconf.filter (fun w => w.f == f && !w.wait)).getLast? with
  | none => d
  | some w => if x.reads.any (fun r => r.f == f && w.id < r.mark) then d else issueRead n w.half f w.addr 0 0 0 (.confirm (toFunc f)) d
def execConfirmReadIssue (n : SliceId) (f : FuncId) (s : State) : Outc := run (confirmIssue n f) s

/-- A confirm or flush read on function f returned: the oldest of them (R225, R239, R240). -/
def confirmDone (n f : Nat) (d : Dev) : Dev :=
  match (d.eng n).reads.find? (fun r => r.f == f && (match r.r with | .confirm _ => true | .flush _ => true | _ => false)) with
  | none => d
  | some x =>
    let d := returned n x d
    match x.r with
    | .flush q => spaceBack n q (d.modCq n q (fun c => { c with flush := 3 }))
    | _ => d
def execConfirmReadComplete (n : SliceId) (f : FuncId) (s : State) : Outc := run (confirmDone n f) s

/-- A flush read of the previous completion on its link (R225). -/
def flushIssue (n q : Nat) (d : Dev) : Dev :=
  let c := d.cq n q
  match c.lastF with
  | some f => if c.flush = 1 then issueRead n (d.cqHalf n q) f c.lastAddr 0 0 0 (.flush q) (d.modCq n q (fun c => { c with flush := 2 })) else d
  | none => d
def execFlushReadIssue (n : SliceId) (cq : Nat) (s : State) : Outc := run (flushIssue n cq) s

/-- 32 µs without a further byte: the held bytes go (R220). -/
def execFunnelHoldExpiry (n : SliceId) (h ep stream : Nat) (s : State) : Outc :=
  run (fun d => match (d.ep n h ep).xfer with
    | some x => if x.stream = stream then flushIn n h ep true false d else d
    | none => d) s

/-! ### Wash and bank power -/

/-- A slice that is being reset or removed and has nothing under Wash and no plan commit to come is done (R268, R282). -/
def washClear (n : Nat) (d : Dev) : Bool :=
  !((d.half 0).wash ++ (d.half 1).wash).any (fun w => w.slice == n) && (d.portsOf n).all (fun p => (d.port p).planDel.isEmpty)

/-- The oldest Wash of a half ends: its page is free, and waiting carves go on (R213, R230). -/
def washDone (h : Nat) (d : Dev) : Option Nat × Dev :=
  match (d.half h).wash with
  | [] => (none, d)
  | w :: r =>
    let d := d.modHalf h (fun x => { x with
      wash := r, used := x.used.erase w.page })
    (some w.slice, carves w.slice d)

/-- The bank powered up for a carve is there (R209). -/
def bankUp (h b : Nat) (d : Dev) : Dev :=
  if !((d.half h).bankWait.contains b) then d else
  let d := d.modHalf h (fun x => { x with
    bankWait := x.bankWait.filter (fun k => k != b), bankOn := x.bankOn ||| (1#16 <<< b), bankReq := x.bankReq &&& ~~~(1#16 <<< b) })
  forEach d.sliceNums carves (journalPut (0x2150 + h) 1 (d.half h).bankReq.toNat d)
def execBankPowerUpDone (h : HalfId) (b : Fin 16) (s : State) : Outc := run (bankUp h b.val) s

end Sys2Proof.Machine
end

