-- ==== Sys2Proof/Machine/Handles.lean ====
section
/-! DEFINITION. What a detach or a reset of a port does to its handles (R88, R95, R122, R127, R189, R197), port operations in progress
(R195 to R201), and what waits for a transaction boundary of a bus (R197 to R199). -/
namespace Sys2Proof.Machine

/-! ### Handles that lose their port -/

/-- End the started transfers of an endpoint with a code; a periodic run ends too (R121, R122, R197). -/
def cutXfers (n h e code : Nat) (d : Dev) : Dev :=
  let d := if (d.ep n h e).mode == .iso then endRun n h e d else d
  let cut := fun (d : Dev) => match (d.ep n h e).xfer with
    | none => d
    | some x => if x.started then endXfer n h e { code := code } d else giveUp n h e x (d.modEp n h e (fun y => { y with xfer := none }))
  (d.ep n h e).parkedX.foldl (fun d x => cut (d.modEp n h e (fun y => { y with xfer := some x, parkedX := y.parkedX.erase x }))) (cut d)

/-- Entries of the slice that act on handle h and cannot go on: ASSIGN_ADDRESS and ADMIT_ENDPOINTS before its commit, carves,
stops and retirements (R95, R127). CLOSE_DEVICE goes on. -/
def cutEntries (n h code : Nat) (d : Dev) : Dev := cutOps n h code 1 [0x03, 0x08, 0x09, 0x0A, 0x18] d

/-- CLOSE_DEVICE entries that waited for the handle's endpoints go on. -/
def closeWaiters (n h : Nat) (d : Dev) : Dev :=
  (d.slice n).wqs.foldl (fun d w => (w.2.exec.filter (fun x => x.phase == 2 && weOp x.dws == 0x05 && weHandle x.dws == h)).foldl
    (fun d x => stoppedHook n w.1 x d) d) d

/-- An endpoint loses its port: it leaves the plan at the next commit and is Disabled (R122, R129). -/
def loseEp (n h e : Nat) (d : Dev) : Dev := disableEp n h e (leavePlan n h e d)

/-- A handle enters Detached: started transfers complete with the code, everything else of its endpoints is released
(R88, R122). quiet: nothing is completed (R205). -/
def detachHandle (n h code : Nat) (quiet : Bool) (d : Dev) : Dev :=
  let x := d.handle n h
  if x.st == .closed || x.st == .detached then d else
  let es := x.live
  let d := if quiet then d else forEach es (fun e => cutXfers n h e code) d
  let d := forEach es (loseEp n h) d
  let d := d.modHandle n h (fun x => { x with st := .detached, addr := 0 })
  let d := writeHeader n h d
  carves n (closeWaiters n h (if quiet then d else cutEntries n h cDetached d))

/-- Handles of slice n on port p, of one bus or of both. -/
def Dev.portHandles (d : Dev) (n p : Nat) (bus : Option Bool) : List Nat :=
  ((d.eng n).handles.filter (fun x => x.2.st != .closed && x.2.port == p && bus.all (fun s => s == speedSs x.2.speed))).map (fun x => x.1)

/-- OPEN_DEVICE entries that wait for their page on a bus of port p, or on both, complete with a code (R94, R189). -/
def cutOpens (n p : Nat) (bus : Option Bool) (code : Nat) (d : Dev) : Dev :=
  ((d.eng n).commits.filter (fun c => c.port == p && (d.handle n c.h).st == .closed &&
    bus.all (fun s => s == speedSs (d.handle n c.h).speed))).foldl (fun d c =>
    (finishWe n c.wq c.idx code {} (dropCommit n c.wq c.idx d)).modHandle n c.h (fun _ => {})) d

/-- Every handle on a bus of port p, or on both, enters Detached (R122, R189). -/
def detachHandles (p : Nat) (bus : Option Bool) (code : Nat) (d : Dev) : Dev :=
  let n := d.owner p
  if d.S ≤ n then d else
  carves n (cutOpens n p bus cDetached (forEach (d.portHandles n p bus) (fun h => detachHandle n h code false) d))

/-- Index 1 of a handle attached to the port is initialised again: it keeps EP0_MPS and is Stopped (R197). -/
def reinitEp1 (n h : Nat) (d : Dev) : Dev :=
  dropAll n h 1 (d.modEp n h 1 (fun y => { y with
    st := .stopped, errAddr := 0, haltCode := 0, haltReason := 0, stopping := false, service := false, bus := {} }))

/-- The SET_ADDRESS of an ASSIGN_ADDRESS runs on the handle. -/
def Handle.assigning (x : Handle) : Bool := (x.ep 1).xfer.any (fun t => t.assign.isSome)

/-- PORT_RESET takes effect on one handle (R95, R127, R197): an admission that is not committed ends with it, whichever state its entry
is in. -/
def resetHandle (n h : Nat) (d : Dev) : Dev :=
  let x := d.handle n h
  if x.st == .closed || x.st == .detached then d else
  let d := cutOps n h cNotPermitted 0 [0x08] d
  if x.route != 0 then
    let d := if x.assigning then cutXfers n h 1 cDetached d else d
    detachHandle n h cAborted false (forEach x.live (fun e => cutXfers n h e cAborted) d)
  else
    let d := forEach x.live (fun e => cutXfers n h e cAborted) d
    let d := reinitEp1 n h (forEach (x.live.filter (fun e => e != 1)) (loseEp n h) d)
    let d := writeHeader n h (d.modHandle n h (fun x => { x with st := .default, addr := 0 }))
    carves n (closeWaiters n h (cutEntries n h cNotPermitted d))

/-! ### Port operations in progress (R195) -/

/-- Complete the port operation. -/
def finishPortOp (p code r0 : Nat) (d : Dev) : Dev :=
  match (d.port p).bus.op with
  | none => d
  | some o => finishWe o.slice o.wq o.idx code { r0 := r0 } (d.modBus p (fun b => { b with
      op := none, suspending := false, lpm := false, lgoDue := false, lpmDue := none, rst2 := false, rstS := false, wakeLate := false }))

/-- A bus that the operation acts on disconnected, or the port detached (R195). -/
def cutPortOp (p : Nat) (usb2 ss : Bool) (d : Dev) : Dev :=
  match (d.port p).bus.op with
  | none => d
  | some o => if o.opcode != 0x13 && ((usb2 && o.onUsb2) || (ss && o.onSs)) then finishPortOp p cDetached 0 d else d

/-- One bus of the operation is done; the operation completes with the last (R196, R198, R200). -/
def opBusDone (p : Nat) (ss : Bool) (flags : Nat) (d : Dev) : Dev :=
  match (d.port p).bus.op with
  | none => d
  | some o =>
    let o := if ss then { o with waitSs := false, flags := o.flags ||| flags } else { o with waitUsb2 := false, flags := o.flags ||| flags }
    let d := d.modBus p (fun b => { b with op := some o })
    if o.waitUsb2 || o.waitSs then d
    else if o.opcode = 0x10 then finishPortOp p cOk 0 (d.modBus p (fun b => { b with resetRequired := false }))
    else finishPortOp p (if o.opcode = 0x12 && (d.port p).bus.wakeLate then 0x17 else cOk) (o.flags % 64) d

/-- Event bits for leaving a USB 2.0 state and a SuperSpeed state (R191); a Recovery that began in U3 reports the exit. -/
def leaveBits2 : Usb2St → Nat
  | .enabled | .disabled => 2 | .suspended => 4 | .l1 => 16 | .resuming => 4 | _ => 0
def leaveBitsS : SsSt → Nat
  | .u3 => 4 | .inactive | .disabled => 32 | _ => 0
def PortBus.leaveSs (b : PortBus) : Nat :=
  leaveBitsS b.ss + (if b.ss == .recovery && b.rebus then (if b.ssWake then 12 else 4) else 0)

/-! ### What waits for a transaction boundary -/

/-- The bus of a speed can carry transactions: Enabled or U0, outside a recovery and while no suspend or reset begins (R197, R198,
R203). -/
def PortBus.runs (x : PortBus) (ss : Bool) : Bool :=
  !x.suspending && !(if ss then x.rstS else x.rst2) && (if ss then x.ss == .u0 && !x.recSs else x.usb2 == .enabled && !x.recUsb2)

/-- Endpoints of slice n on one bus of port p, in ascending order. -/
def Dev.busEps (d : Dev) (n p : Nat) (ss : Bool) : List (Nat × Nat) :=
  ((d.eng n).handles.filter (fun x => (x.2.st == .default || x.2.st == .addressed) && x.2.port == p && speedSs x.2.speed == ss)).flatMap
    (fun x => x.2.live.map (fun e => (x.1, e)))

/-- The service in progress on a bus of port p: a periodic transaction whose answer is to come. -/
def Dev.perCur (d : Dev) (p : Nat) (ss : Bool) : Option (Nat × Nat) :=
  (if ss then (d.port p).bus.perSs else (d.port p).bus.per2).filter (fun c =>
    let y := d.ep (d.owner p) c.1 c.2
    y.st == .running && (y.service || y.runIn))

/-- A transaction is in progress on a bus of port p. -/
def Dev.busBusy (d : Dev) (p : Nat) (ss : Bool) : Bool :=
  let n := d.owner p
  (d.perCur p ss).isSome || (d.busEps n p ss).any (fun x => (d.ep n x.1 x.2).service && !(d.ep n x.1 x.2).mode.periodic)

/-- PORT_RESET takes effect on the handles of a bus, and then on the bus where it is one of those that are reset (R196, R197). A
SuperSpeed bus that is Disabled is reset with the others, and the command does not wait for it (R187; DESIGN CHOICE, log entry 68: R196
does not list it). -/
def resetBus (p : Nat) (ss : Bool) (d : Dev) : Dev :=
  let n := d.owner p
  match (d.port p).bus.op with
  | none => d
  | some o =>
    let d := d.modBus p (fun b => if ss then { b with rstS := false } else { b with rst2 := false })
    let d := forEach (d.portHandles n p (some ss)) (resetHandle n) d
    let d := carves n (cutOpens n p (some ss) cNotPermitted d)
    let b := (d.port p).bus
    if ss then
      if !(o.onSs || b.ss == .disabled) then d else
      let left := b.leaveSs + b2n (b.ss == .disabled)
      let d := d.modBus p (fun b => { b with ss := .resetting, recSs := false, rebus := false, ssWake := false, startReset := false })
      let d := emit (.signal (toPort p) .ss (if o.warm || b.ss == .inactive || b.ss == .disabled then .warmReset else .hotReset)) d
      if left = 0 then d else portEvent p { bits := left } d
    else
      if !o.onUsb2 then d else
      let d := d.modBus p (fun b => { b with
        usb2 := .resetting, recUsb2 := false, l1Exit := false, ownReset := false, wakeFirst := false, wakeLate := false })
      let d := emit (.signal (toPort p) .usb2 .se0) d
      let left := leaveBits2 b.usb2
      if left = 0 then d else portEvent p { bits := left } d

/-- What waited for the transactions in progress on port p goes on (R197 to R199). -/
def settlePort (p : Nat) (d : Dev) : Dev :=
  let d := if (d.port p).bus.rst2 && !(d.busBusy p false) then resetBus p false d else d
  let d := if (d.port p).bus.rstS && !(d.busBusy p true) then resetBus p true d else d
  let b := (d.port p).bus
  let d := if b.lgoDue && b.ss == .u0 && !b.recSs && !(d.busBusy p true) then
      emit (.signal (toPort p) .ss .lgoU3) (d.modBus p (fun b => { b with lgoDue := false, lgoU3 := true }))
    else d
  match b.lpmDue with
  | some k => if d.busBusy p false then d else
      emit (.token (toPort p) .usb2 0 0 (.lpm k)) (d.modBus p (fun b => { b with lpmDue := none }))
  | none => d

end Sys2Proof.Machine
end

