-- ==== Sys2Proof/Machine/Bus.lean ====
section
/-! DEFINITION. Executing transactions (06): bus time (R154, R155, R157, R158), non-periodic service (R162 to R168, R171 to R177),
babble (R169), splits (R178 to R180), and periodic service (R121, R146 to R151, R156 to R161). -/
namespace Sys2Proof.Machine

/-! ### Readers -/

/-- Slices whose endpoints are served: Active, or draining for a quiesce (R271). -/
def Slice.serves (s : Slice) : Bool := s.st == .active || s.st == .quiescing || s.st == .quiesceStalled

/-- The endpoint is reached by split transactions (R133, R178). -/
def Dev.viaTt (d : Dev) (n h : Nat) : Bool := (d.handle n h).ttPort != 0
/-- The device is on the SuperSpeed bus of its port (R153). -/
def Dev.onSs (d : Dev) (n h : Nat) : Bool := speedSs (d.handle n h).speed
/-- Speed of the transactions that reach the device: a TT is reached at HS (R178). -/
def Dev.txnSpeed (d : Dev) (n h : Nat) : Nat := if d.viaTt n h then 3 else (d.handle n h).speed

/-- Bytes of an IN transfer that take room in the pool, to the end of a chunk no other may use: those received, but for whole chunks
whose writes are confirmed (R215, R240). -/
def Dev.poolHeld (d : Dev) (n uid total issued : Nat) : Nat :=
  chunkBytesOf total - wholeChunks (issued -
    sumOf (((d.eng n).unconf.filter (fun w => w.data && w.tag == uid)).map (fun w => w.bytes.length)))

/-- Bytes of the pool that ended transfers and other streams' transfers take (R215). -/
def Dev.poolOthers (d : Dev) (n h e : Nat) : Nat :=
  let y := d.ep n h e
  sumOf (y.olds.map (fun o => d.poolHeld n o.1 o.2 o.2)) +
    sumOf ((y.parkedX.filter (fun t => t.isIn)).map (fun t => d.poolHeld n t.uid t.recv t.issued))

/-- Bytes of the endpoint's pool that are in use beside the room left for its transfer: the rest of the transfer's own last chunk is
room for its next packet (R215). -/
def Dev.poolUsed (d : Dev) (n h e : Nat) (x : Xfer) : Nat :=
  d.poolOthers n h e + (d.poolHeld n x.uid x.recv x.issued - (chunkBytesOf x.recv - x.recv))

/-- Non-periodic split sequences outstanding at the endpoint's TT (R178). -/
def Dev.ttBusy (d : Dev) (n h : Nat) : Nat :=
  let x := d.handle n h
  sumOf ((d.eng n).handles.map (fun y => if y.2.st != .closed && y.2.ttPort != 0 && y.2.hub == x.hub &&
      (!x.multiTt || y.2.ttPort == x.ttPort) then (y.2.eps.filter (fun e => e.2.bus.csplit && !e.2.mode.periodic)).length else 0))

/-- Packets of m bytes that the transfer has ready from a stream offset on, at most k: described, on chip, and not in a chunk whose
seal failed for good (R163, R173, R217). -/
def Xfer.packets (x : Xfer) (m : Nat) : Nat → Nat → List (List Byte)
  | 0, _ => []
  | k + 1, off =>
    let len := min m (x.moved + x.left - off)
    if !(x.described || off + m ≤ x.fragSum) || x.sealDead.any (fun s => s < off + len) then [] else
    match x.busBytes off len with
    | none => []
    | some b => b :: (if off + len < x.moved + x.left then x.packets m k (off + len) else [])

/-- The transfer is ready for its next transaction: entries, tables, room, data, a partner's grant (R163, R164, R173). -/
def Dev.ready (d : Dev) (n h e : Nat) (x : Xfer) : Bool :=
  let m := d.mps n h e
  if x.ending.isSome then false
  else if x.assign.isSome || x.isSetup then true
  else if x.control && x.stage == 3 then !x.more
  else if x.control && x.stage == 2 && x.length = 0 then false
  else
    (x.described || x.done + m ≤ x.fragSum) && x.started &&
    (if x.isIn then d.poolUsed n h e x + m ≤ (d.ep n h e).poolBytes
     else !(x.packets m 1 x.moved).isEmpty && (!(d.onSs n h) || (d.ep n h e).bus.granted != 0))

/-- A control or bulk endpoint has work for the bus, whatever the link state. -/
def Dev.hasWork (d : Dev) (n h e : Nat) : Bool :=
  let y := d.ep n h e
  let hd := d.handle n h
  let p := d.port hd.port
  !y.mode.periodic && y.acts && !y.bus.waiting && !y.bus.parked && !y.reload && (d.slice n).serves && !p.bus.resetRequired &&
  !(d.spent n 5 (d.epHalf n h)) && !(d.noPath n (d.epHalf n h)) && (halfOfPort hd.port == d.epHalf n h || d.sinopia.up) &&
  (!(d.viaTt n h) || y.bus.csplit || d.ttBusy n h < 2) &&
  match y.xfer with
  | some x => d.ready n h e x
  | none => y.cfg.streams && y.bus.curStream = 0 && y.rings.any (fun r => r.2.sst == .pending)

/-- A control or bulk endpoint is eligible (R163, R203). -/
def Dev.eligible (d : Dev) (n h e : Nat) : Bool :=
  (d.port (d.handle n h).port).bus.runs (d.onSs n h) && d.hasWork n h e

/-! ### Bus time (R154, R155, R157, R158): what was on the bus, at its actual length (DESIGN CHOICE, log entry 68) -/

/-- Bit times of n bytes of data at a speed, LS data in FS bit times (R130). -/
def dataBits (sp n : Nat) : Nat := if sp = 2 then 8 * stuff n else stuff n
/-- Bit times of a transaction beside its data (R130, R155). -/
def frameBits (sp : Nat) (iso : Bool) : Nat :=
  if sp = 3 then (if iso then 320 else 456) else if sp = 1 then (if iso then 100 else 130) else 1000
/-- Bit times of a split beside its data: a start-split carries the data of an OUT (R136). -/
def splitBits (cs isIn iso : Bool) : Nat := if cs then 556 else if isIn then 340 else if iso then 420 else 556

/-- The guard of a USB 2.0 bus begins here (R154). -/
def guardAt (sp : Nat) : Nat := if sp = 3 then 59000 else 11850
/-- Bytes of one direction of a SuperSpeed bus in a microframe (R132). -/
def ssBytes (sp : Nat) : Nat := if sp = 5 then 151515 else 62500

/-- Bit times used on the USB 2.0 bus of port p. -/
def spend2 (p c : Nat) : Dev → Dev := Dev.modBus p (fun b => { b with time2 := b.time2 + c })
/-- Bytes used on the SuperSpeed bus of port p: in the data direction of an IN or OUT, and in the other. -/
def spendSs (p : Nat) (isIn : Bool) (data back : Nat) : Dev → Dev := Dev.modBus p (fun b =>
  if isIn then { b with timeUp := b.timeUp + data, timeDn := b.timeDn + back }
  else { b with timeDn := b.timeDn + data, timeUp := b.timeUp + back })

/-- A burst of k packets with n bytes ends before the next boundary (R131, R158). -/
def PortBus.fitsSs (b : PortBus) (isIn : Bool) (n k : Nat) : Bool :=
  let data := if isIn then b.timeUp else b.timeDn
  let back := if isIn then b.timeDn else b.timeUp
  data + (n + 40 * k + 64) ≤ ssBytes b.ssSpeed && back + (32 * k + 64) ≤ ssBytes b.ssSpeed
/-- A USB 2.0 transaction of this cost ends before the guard (R155). -/
def PortBus.fits2 (b : PortBus) (c : Nat) : Bool := b.time2 + c ≤ guardAt b.usb2Speed

/-- Bytes that cross with the endpoint's next transaction, MAX_PACKET for an IN (R155). -/
def Dev.nextBytes (d : Dev) (n h e : Nat) (x : Xfer) : Nat :=
  if x.isSetup then 8 else if x.dirIn then d.mps n h e else x.outLen (d.mps n h e)

/-- The next transaction of a control or bulk endpoint fits (R155, R158). -/
def Dev.fits (d : Dev) (n h e : Nat) (x : Xfer) : Bool :=
  let y := d.ep n h e
  let b := (d.port (d.handle n h).port).bus
  let k := d.nextBytes n h e x
  if d.onSs n h then b.fitsSs x.dirIn k 1
  else if d.viaTt n h then
    b.fits2 (splitBits y.bus.csplit x.dirIn false + (if y.bus.csplit == x.dirIn then stuff k else 0))
  else b.fits2 (frameBits (d.handle n h).speed false + dataBits (d.handle n h).speed (if y.bus.ping then 0 else k))

/-- IN data of n bytes in this many packets took its time on the bus. -/
def arrivedIn (n h len pkts : Nat) (d : Dev) : Dev :=
  let p := (d.handle n h).port
  if d.onSs n h then spendSs p true (len + 40 * pkts) 0 d else spend2 p (dataBits (d.txnSpeed n h) len) d

/-! ### Stages and streams -/

/-- Take the Data or Status entry that a control transfer is due (R113, R114). -/
def ctlFeed (n h e : Nat) (d : Dev) : Dev :=
  match (d.ep n h e).xfer with
  | none => d
  | some x =>
    let want := if x.stage == 2 && x.length = 0 then 3 else if x.stage == 3 && x.more then 4 else 0
    if !x.control || x.assign.isSome || x.ending.isSome || want = 0 then d else
    (List.range 5).foldl (fun d _ =>
      match (d.ep n h e).xfer with
      | none => d
      | some x =>
        if (if x.stage == 2 then x.length != 0 else !x.more) then d else
        match (d.ring n h e 0).held with
        | t :: _ =>
          let d := popHeld n h e 0 t d
          if teType t.dws = 5 then d.modXfer n h e (fun x => { x with
            nextDeq := tePtr t.dws, nextCyc := if teToggle t.dws then !x.nextCyc else x.nextCyc })
          else if teType t.dws = 3 then
            if x.stage == 3 then d.modXfer n h e (fun x => { x with last := t.addr, nextDeq := t.addr + 32 }) else useData n h e t d
          else d.modXfer n h e (fun x => { x with last := t.addr, nextDeq := t.addr + 32, more := false })
        | [] =>
          let r := d.ring n h e 0
          match r.bad, r.failed with
          | some b, _ => malformed n h e 0 b.1 b.2.1 r.fcyc b.2.2 d
          | none, some a => xferReadFailed n h e a r.fcyc d
          | none, none => d) d

/-- Everything that lets the endpoint go on. -/
def goOn (n h e : Nat) (d : Dev) : Dev := fillOut n h e (ctlFeed n h e (resumeEp n h e d))

/-- The stream that wins (R177): the oldest ERDY, then the lowest ID above the last one, wrapping. -/
def pickStream (x : Ep) : Option Nat :=
  let pend := (x.rings.filter (fun r => r.2.sst == .pending)).map (fun r => r.1)
  match x.bus.erdyQ.find? (fun k => pend.contains k) with
  | some k => some k
  | none => ((pend.filter (fun k => x.bus.lastStream < k)) ++ pend).head?

/-- Select a stream for the endpoint (R176, R177). -/
def selectStream (n h e : Nat) (d : Dev) : Dev :=
  let x := d.ep n h e
  match pickStream x with
  | none => d
  | some k =>
    let own := x.parkedX.find? (fun t => t.stream == k)
    let d := d.modEp n h e (fun y => { y with
      xfer := own, parkedX := y.parkedX.filter (fun t => t.stream != k)
      bus := { y.bus with curStream := k, strDone := false, erdyQ := y.bus.erdyQ.filter (fun q => q != k) } })
    pokeRing n h e k (d.modRing n h e k (fun r => { r with sst := .active }))

/-! ### Turns and transactions of control and bulk endpoints -/

/-- The data PID of a toggle. -/
def togglePid (t : Bool) : DPid := if t then .data1 else .data0

/-- Packets granted to a SuperSpeed IN endpoint in one acknowledgement (R173): one while a control transfer runs. -/
def Dev.grantOf (d : Dev) (n h e : Nat) (x : Xfer) : Nat :=
  let y := d.ep n h e
  let m := d.mps n h e
  let room := (y.poolBytes - d.poolUsed n h e x) / m
  let k := if x.control then 1 else max 1 (min (min (y.cfg.maxBurst + 1) y.bus.pkts) (min room (cdiv x.left m)))
  max 1 ((List.range k).filter (fun i => (d.port (d.handle n h).port).bus.fitsSs true (m * (i + 1)) (i + 1))).length

/-- Packets that a SuperSpeed OUT endpoint sends in one burst (R173). -/
def Dev.burstOf (d : Dev) (n h e : Nat) (x : Xfer) : List (List Byte) :=
  let y := d.ep n h e
  let k := if x.control then 1 else max 1 (min (min (y.cfg.maxBurst + 1) y.bus.pkts) y.bus.granted)
  let l := if x.control && x.stage == 3 then [[]] else x.packets (d.mps n h e) k x.moved
  l.take (max 1 ((List.range l.length).filter (fun i => (d.port (d.handle n h).port).bus.fitsSs false
    (sumOf ((l.take (i + 1)).map (fun b => b.length))) (i + 1))).length)

/-- Put the endpoint's next transaction on the bus. -/
def issueTxn (n h e : Nat) (d : Dev) : Dev :=
  let y := d.ep n h e
  match y.xfer with
  | none => d
  | some x =>
    let hd := d.handle n h
    let m := d.mps n h e
    let tok := fun b t => emit (.token (toPort hd.port) b h e t)
    let d := d.modEp n h e (fun z => { z with service := true, bus := { z.bus with inFlight := 1 } })
    let out := if x.isSetup then x.setup else if x.dirIn || (x.control && x.stage == 3) then [] else (x.packet (x.outLen m)).getD []
    let pid := if x.isSetup then .data0 else togglePid y.bus.toggle
    if d.onSs n h then
      if x.isSetup then tok .ss (.setup out) (spendSs hd.port false (out.length + 104) 96 d)
      else if x.dirIn then
        let k := d.grantOf n h e x
        tok .ss (.grant k y.bus.seq y.bus.retry) (spendSs hd.port true 64 (32 * k + 64)
          (d.modEpBus n h e (fun z => { z with inFlight := k, retry := false })))
      else
        let l := d.burstOf n h e x
        let d := spendSs hd.port false (sumOf (l.map (fun b => b.length)) + 40 * l.length + 64) (32 * l.length + 64)
          (d.modEpBus n h e (fun z => { z with inFlight := max 1 l.length, granted := z.granted - l.length }))
        (l.foldl (fun (a : Nat × Dev) b => (a.1 + 1, tok .ss (.ssOut ((y.bus.seq + a.1) % 32) b) a.2)) (0, d)).2
    else if d.viaTt n h then
      let d := spend2 hd.port (splitBits y.bus.csplit x.dirIn false + (if y.bus.csplit then 0 else stuff out.length)) d
      if y.bus.csplit then tok .usb2 .csplit d else tok .usb2 (.ssplit pid out) d
    else
      let ping := y.bus.ping && hd.speed = 3 && !x.dirIn && !x.isSetup
      let d := spend2 hd.port (frameBits hd.speed false + dataBits hd.speed (if ping then 0 else out.length)) d
      if x.isSetup then tok .usb2 (.setup out) d
      else if x.dirIn then tok .usb2 (.inTok m) d
      else if ping then tok .usb2 .ping (d.modEpBus n h e (fun z => { z with pinging := true }))
      else tok .usb2 (.outTok pid out) d

/-- End the endpoint's turn; what is left of its round goes where it is no longer eligible (R162). -/
def endTurn (n h e : Nat) (d : Dev) : Dev :=
  let d := d.modEp n h e (fun y => { y with
    service := false, bus := { y.bus with pkts := 0, inFlight := 0, pinging := false } })
  if d.eligible n h e then d else d.modEpBus n h e (fun b => { b with turns := 0 })

/-- A periodic transaction of the microframe is on the bus or remains to be issued (R157). -/
def Dev.perBusy (d : Dev) (p : Nat) (ss : Bool) : Bool :=
  (d.perCur p ss).isSome || (d.port p).bus.agenda.any (fun i => i.r.ss == ss)

/-- Go on with the endpoint's turn: no transaction starts while periodic ones remain, nor one that does not end in time, and the turn
then goes on in the next window (R155, R157, R162). An endpoint without an active stream selects one first (R177). -/
def startTurn (n h e : Nat) (d : Dev) : Dev :=
  let d := useCtx n h e d
  let d := if (d.ep n h e).xfer.isNone && (d.ep n h e).acts then goOn n h e (selectStream n h e d) else d
  match (d.ep n h e).xfer with
  | none => d
  | some x =>
    if (d.ep n h e).reload || d.perBusy (d.handle n h).port (d.onSs n h) || !(d.fits n h e x) then d
    else if d.eligible n h e then issueTxn n h e d else endTurn n h e d

/-- One transaction of the turn is over: the next follows while packets are left (R162). A stop takes effect here (R99). -/
def nextInTurn (n h e : Nat) (d : Dev) : Dev :=
  let d := d.modEp n h e (fun y => { y with service := false, bus := { y.bus with pkts := y.bus.pkts - 1, inFlight := 0 } })
  if (d.ep n h e).stopping then doStop n h e d else
  let d := goOn n h e d
  if (d.ep n h e).bus.pkts = 0 || !(d.eligible n h e) then endTurn n h e d else startTurn n h e d

/-- One packet of a burst is through: the burst goes on, or the turn does. -/
def nextInBurst (n h e : Nat) (d : Dev) : Dev :=
  if 1 < (d.ep n h e).bus.inFlight then
    goOn n h e (d.modEpBus n h e (fun b => { b with inFlight := b.inFlight - 1, pkts := b.pkts - 1 }))
  else nextInTurn n h e d

/-- The turn ends here. A stop takes effect (R99). -/
def turnOver (n h e : Nat) (d : Dev) : Dev :=
  let d := endTurn n h e d
  if (d.ep n h e).stopping then doStop n h e d else d

def pairAfter (a b : Nat × Nat) : Bool := a.1 < b.1 || (a.1 == b.1 && a.2 < b.2)

/-- Eligible endpoints that are not in the round join it with WEIGHT + 1 turns (R162). -/
def joinRound (n : Nat) (ok : List (Nat × Nat)) (d : Dev) : Dev :=
  ok.foldl (fun d x => if (d.ep n x.1 x.2).bus.inRound then d else
    d.modEp n x.1 x.2 (fun y => { y with bus := { y.bus with inRound := true, turns := y.cfg.weight + 1 } })) d

/-- A new round starts once no eligible endpoint has turns left (R162). -/
def newRound (n : Nat) (es ok : List (Nat × Nat)) (d : Dev) : Dev :=
  if ok.any (fun x => (d.ep n x.1 x.2).bus.turns != 0) then d else
  joinRound n ok (es.foldl (fun d x => d.modEpBus n x.1 x.2 (fun b => { b with inRound := false, turns := 0 })) d)

/-- A turn of the non-periodic window (R162): an endpoint whose turn goes on, or the next one with turns left. -/
def npTurn (p : Nat) (ss : Bool) (d : Dev) : Dev :=
  let n := d.owner p
  let es := d.busEps n p ss
  if d.S ≤ n || d.perBusy p ss || es.any (fun x => (d.ep n x.1 x.2).service && !(d.ep n x.1 x.2).mode.periodic) then d else
  let ok := es.filter (fun x => d.eligible n x.1 x.2)
  match ok.find? (fun x => (d.ep n x.1 x.2).bus.pkts != 0) with
  | some x => startTurn n x.1 x.2 d
  | none =>
    if ok.isEmpty then
      -- R187: pending work ends U1 and U2
      (if ss && !(d.port p).bus.suspending && es.any (fun x => d.hasWork n x.1 x.2) then wakeBus p true false d else d)
    else
    let d := newRound n es ok (joinRound n ok d)
    let left := ok.filter (fun x => (d.ep n x.1 x.2).bus.turns != 0)
    let last := if ss then (d.port p).bus.lastEpSs else (d.port p).bus.lastEp
    match (left.filter (fun x => pairAfter last x) ++ left).head? with
    | none => d
    | some x =>
      let d := d.modBus p (fun b => if ss then { b with lastEpSs := x } else { b with lastEp := x })
      startTurn n x.1 x.2 (d.modEp n x.1 x.2 (fun y => { y with bus := { y.bus with
        turns := y.bus.turns - 1, pkts := y.cfg.burstPkts + 1 } }))
def execNonperiodicTurn (p : PortId) (b : Bus) (s : State) : Outc := run (npTurn p.val (b == .ss)) s

/-! ### Outcomes -/

/-- A valid handshake or data packet: the error counter and the repoll level go to 0 (R168, R171). -/
def good (n h e : Nat) : Dev → Dev :=
  Dev.modEpBus n h e (fun b => { b with errors := 0, level := 0, naks := 0 })

/-- One transaction error, a TT failure or another (R168, R180): the third halts. NAKs around it are not consecutive (R171). -/
def countError (n h e : Nat) (tt : Bool) (d : Dev) : Dev :=
  let d := d.modCnt (d.handle n h).port (fun c => { c with
    txnErrors := c.txnErrors + 1, ttFailures := if tt then c.ttFailures + 1 else c.ttFailures })
  let d := d.modEpBus n h e (fun b => { b with errors := b.errors + 1, naks := 0, csplit := if tt then false else b.csplit })
  if 3 ≤ (d.ep n h e).bus.errors then endHalting n h e (if tt then 0x0F else 0x05) none (d.modEpBus n h e (fun b => { b with csplit := false }))
  else d

/-- A NAK is counted on its port (R184). -/
def countNak (n h : Nat) (d : Dev) : Dev := d.modCnt (d.handle n h).port (fun c => { c with naks := c.naks + 1 })

/-- NAK, or what is handled as one (R165, R171, R172). -/
def nakked (n h e : Nat) (count ping : Bool) (d : Dev) : Dev :=
  turnOver n h e ((doIf count (countNak n h) d).modEpBus n h e (fun b =>
    let up := 63 ≤ b.naks
    { b with errors := 0, waiting := true, naks := if up then 0 else b.naks + 1, level := if up then min 6 (b.level + 1) else b.level
             ping := b.ping || ping }))

/-- A transaction error of a control or bulk endpoint; at SuperSpeed an IN packet is requested again at once, with the retry flag,
within the same burst (R165, R175). -/
def npError (n h e : Nat) (tt : Bool) (d : Dev) : Dev :=
  let again := d.onSs n h && ((d.ep n h e).xfer.map (fun x => x.dirIn && !x.isSetup)).getD false
  let d := countError n h e tt d
  if (d.ep n h e).xfer.isSome && again && !(d.ep n h e).stopping then
    startTurn n h e (d.modEp n h e (fun y => { y with service := false, bus := { y.bus with retry := true } }))
  else turnOver n h e d

/-- The transfer ends well: Success, or Short packet (R114, R166). -/
def npEnd (n h e : Nat) (code : Nat) (d : Dev) : Dev := nextInTurn n h e (endXfer n h e { code := code } d)

/-- A bulk transfer ended by a short packet: later entries of it are passed over, those not yet read once they are (R166). -/
def shortEnd (n h e : Nat) (d : Dev) : Dev :=
  match (d.ep n h e).xfer with
  | none => d
  | some x => nextInTurn n h e (endPast n h e { code := if x.done < x.length || x.more then cShort else cOk } d)

/-- The stage after one that is complete: data, status, or the end (R113, R114). The status stage uses DATA1 (R167). -/
def nextStage (n h e : Nat) (d : Dev) : Dev :=
  match (d.ep n h e).xfer with
  | none => d
  | some x =>
    if x.stage == 3 then npEnd n h e (if x.short then cShort else cOk) d
    else
      let k := if x.stage == 1 && x.trt != 0 then 2 else 3
      nextInTurn n h e ((d.modEpBus n h e (fun b => { b with toggle := true })).modXfer n h e (fun x => { x with
        stage := k, short := x.short || (k == 3 && x.trt != 0 && x.done < x.length) }))

/-- IN bytes that passed the checks enter the pool, sealed (R216, R217); sealBad: mismatches of their chunk's seal. -/
def takeIn (n h e sealBad : Nat) (bytes : List Byte) (d : Dev) : Dev :=
  let d := flushIn n h e false false (d.modXfer n h e (fun x => { x with
    seals := sealBytes x.seals x.recv bytes, buf := x.buf ++ bytes, svcBytes := x.svcBytes + bytes.length }))
  doIf (decide (1 ≤ sealBad)) (sealEvent n h e) d

/-- The seal of the chunk that these IN bytes fill failed twice: nothing of the chunk is written (R217). -/
def inSealDead (n h e : Nat) (d : Dev) : Dev :=
  match (d.ep n h e).xfer with
  | none => d
  | some x => endHalting n h e cIntegrity (some (wholeChunks x.recv)) (sealEvent n h e (sealEvent n h e d))

/-- A data packet is acknowledged (R165). -/
def ackIn (n h e : Nat) (d : Dev) : Dev :=
  emit (.token (toPort (d.handle n h).port) (if d.onSs n h then .ss else .usb2) h e .ack) d

/-- Data answers an IN transaction (R165, R166, R169). -/
def npData (n h e sealBad : Nat) (bytes : List Byte) (d : Dev) : Dev :=
  match (d.ep n h e).xfer with
  | none => turnOver n h e d
  | some x =>
    let m := d.mps n h e
    let fit := min m x.left
    let d := good n h e (d.modEpBus n h e (fun b => { b with toggle := !b.toggle, seq := (b.seq + 1) % 32, csplit := false }))
    if fit < bytes.length then
      let d := d.modCnt (d.handle n h).port (fun c => { c with babble := c.babble + 1 })
      turnOver n h e (endHalting n h e 0x04 none (takeIn n h e sealBad (bytes.take fit) d))
    else
    let d := ackIn n h e d
    if x.control && x.stage == 3 then nextStage n h e d
    else if 2 ≤ sealBad then turnOver n h e (inSealDead n h e d)
    else
      let d := takeIn n h e sealBad bytes d
      match (d.ep n h e).xfer with
      | none => d
      | some x =>
        if bytes.length < m || x.full then (if x.control then nextStage n h e d else shortEnd n h e d) else nextInBurst n h e d

/-- An OUT transaction or SETUP was acknowledged (R165, R167). -/
def npAck (n h e : Nat) (nyet : Bool) (granted : Nat) (d : Dev) : Dev :=
  match (d.ep n h e).xfer with
  | none => turnOver n h e d
  | some x =>
    let y := d.ep n h e
    if x.dirIn && !x.isSetup then npError n h e false d else
    let d := good n h e (d.modEpBus n h e (fun b => { b with csplit := false }))
    if y.bus.pinging then
      nextInTurn n h e (d.modEpBus n h e (fun b => { b with ping := false, pinging := false, pkts := b.pkts + 1 }))
    else
      let d := d.modEpBus n h e (fun b => { b with
        toggle := if x.isSetup then true else !b.toggle, seq := (b.seq + 1) % 32, ping := if nyet then true else b.ping && x.isSetup
        granted := granted })
      if x.isSetup || (x.control && x.stage == 3) then nextStage n h e d
      else
        let k := x.outLen (d.mps n h e)
        let d := d.modXfer n h e (fun x => { x with
          moved := x.moved + k, segs := x.segs.filter (fun s => x.moved + k ≤ s.1 + s.2.length + 4)
          seals := x.seals.filter (fun s => chunkOf (x.moved + k) ≤ s.1) })
        match (d.ep n h e).xfer with
        | none => d
        | some x => if x.full then (if x.control then nextStage n h e d else npEnd n h e cOk d) else sealDue n h e (nextInBurst n h e d)

/-- STALL ends the transfer and halts, but for index 1 (R114, R165). -/
def npStall (n h e : Nat) (d : Dev) : Dev :=
  turnOver n h e (endHalting n h e 0x07 none (d.modEpBus n h e (fun b => { b with errors := 0, csplit := false })))

/-- The partner's answer to a control or bulk transaction (R165, R172). -/
def npResponse (n h e : Nat) (r : NpResp) (sealBad : Nat) (d : Dev) : Dev :=
  let y := d.ep n h e
  match y.xfer with
  | none => d
  | some x =>
    if !y.service || y.mode.periodic then d else
    let hsOut := (d.handle n h).speed = 3 && !(d.viaTt n h) && !x.dirIn && !x.isSetup
    match r with
    | .data ok bytes =>
      let d := arrivedIn n h bytes.length 1 d
      if x.isSetup || !x.dirIn then npError n h e false d
      else if ok then npData n h e sealBad bytes d
      else nakked n h e false false (ackIn n h e (d.modEpBus n h e (fun b => { b with csplit := false })))
    | .ack g => npAck n h e false g d
    | .nyet => if hsOut && !y.bus.pinging then npAck n h e true 1 d else npError n h e false d
    | .nak => if x.isSetup then npError n h e false (countNak n h d) else nakked n h e true hsOut d
    | .stall => npStall n h e d
    | .crcError => npError n h e false d

/-- A fence is complete once no port of the slice is inside a transaction (R277 step 5). -/
def fenceCheck (n : Nat) (d : Dev) : Dev :=
  if (d.slice n).st != .fencing || (d.portsOf n).any (fun p => (d.port p).fenceWait) then d else
  let d := forEach (d.portsOf n) (fun p => Dev.modBus p (fun b => { b with resetRequired := true })) d
  let d := setSliceSt n .quiescedFenced (d.modSlice n (fun x => { x with lastCode := BitVec.ofNat 8 cOk }))
  fenceAnswers n (raise { c := 97, inst := n, slice := n, half := b2n ((d.slice n).half == 1) } d)

/-- A fenced port reached a transaction boundary. -/
def fencePortDone (p : Nat) (d : Dev) : Dev := fenceCheck (d.owner p) (d.modPort p (fun x => { x with fenceWait := false }))

/-- The slice that owns the port, when its handle is on the port. -/
def onPortEp (p h e : Nat) (f : Nat → Dev → Dev) (d : Dev) : Dev :=
  let n := d.owner p
  if (d.port p).fenceWait then fencePortDone p d else
  let x := d.handle n h
  if n < d.S && (x.st == .default || x.st == .addressed) && x.port = p && (x.ep e).st != .disabled then f n d else d

def execUsb2TransactionResponse (p : PortId) (h ep : Nat) (r : NpResp) (sealBad : Nat) (s : State) : Outc :=
  run (fun d => settlePort p.val (onPortEp p.val h ep (fun n => npResponse n h ep r sealBad) d)) s

/-! ### Periodic service -/

/-- The most bytes of one USB 2.0 transaction or SuperSpeed burst (R158). -/
def Dev.perCap (d : Dev) (n h e : Nat) : Nat :=
  let c := (d.ep n h e).cfg
  if d.onSs n h then c.maxPacket * (c.maxBurst + 1) else c.maxPacket

/-- Transactions of one service (R130, R158, R161); one through a TT. -/
def Dev.perTxns (d : Dev) (n h e : Nat) : Nat :=
  let c := (d.ep n h e).cfg
  if d.viaTt n h then 1 else if c.type == .iso || !(d.onSs n h) then c.mult + 1 else 1

/-- Bytes of the next transaction of an OUT service. -/
def Dev.perOut (d : Dev) (n h e : Nat) (x : Xfer) : Nat :=
  min (d.perCap n h e) (min (x.length - x.moved) ((d.ep n h e).cfg.esit - x.svcBytes))

/-- Packets of the next transaction of an IN service (R158, R160). -/
def Dev.perPkts (d : Dev) (n h e : Nat) (x : Xfer) : Nat :=
  let c := (d.ep n h e).cfg
  if d.onSs n h then max 1 (min (c.maxBurst + 1) (cdiv (min (c.esit - x.svcBytes) (x.length - x.recv)) c.maxPacket)) else 1

/-- Sequence of high-bandwidth PIDs: the service's transactions are as few as its data needs, MDATA but for the last (R161). -/
def isoOutPid (txns j : Nat) : DPid := if j + 1 < txns then .mdata else if txns ≤ 1 then .data0 else if txns = 2 then .data1 else .data2

/-- An isochronous IN endpoint whose services' length the data PIDs tell (R161). -/
def Dev.highBand (d : Dev) (n h e : Nat) : Bool :=
  let c := (d.ep n h e).cfg
  c.type == .iso && !(d.onSs n h) && !(d.viaTt n h) && c.mult != 0

/-- Number of a data PID in its sequence. -/
def pidNum : DPid → Nat
  | .data0 => 0 | .data1 => 1 | .data2 => 2 | .mdata => 3

/-- The PID follows the sequence of R161: DATA0 at any time, else one that the transactions left allow, and then one less each time
(DEDUCED, log entry 68: a service whose first PID is DATA1 has two transactions). -/
def Xfer.pidOk (x : Xfer) (mult : Nat) (p : DPid) : Bool :=
  match x.svcPid with
  | none => pidNum p ≤ mult
  | some k => pidNum p = 0 || pidNum p + 1 = k

/-- The answer to what the endpoint has on the bus is awaited (R156, R157). -/
def awaitPer (p : Nat) (ss : Bool) (h e : Nat) : Dev → Dev :=
  Dev.modBus p (fun b => if ss then { b with perSs := some (h, e) } else { b with per2 := some (h, e) })

/-- The packets of a periodic OUT burst. -/
def burstPackets (m : Nat) : Nat → List Byte → List (List Byte)
  | 0, _ => []
  | k + 1, b => if b.length ≤ m then [b] else b.take m :: burstPackets m k (b.drop m)

/-- The service is over; the transfer stays held (R151, R160). A stop takes effect at the next boundary (R99). -/
def perRest (n h e : Nat) (late : Bool) (d : Dev) : Dev :=
  (d.modEp n h e (fun y => { y with service := false })).modXfer n h e (fun x => { x with late := x.late || late })

/-- The transfer of a periodic endpoint completes; Late replaces Success and Short packet (R149). -/
def perEnd (n h e code reason : Nat) (d : Dev) : Dev :=
  let late := ((d.ep n h e).xfer.map (fun x => x.late)).getD false
  let code := if late && (code = cOk || code = cShort) then 0x13 else code
  let keep := if code = cMissed || code = 0x04 then some 0 else none
  resumeEp n h e (endPast n h e { code := code, reason := reason, keep := keep } (d.modEp n h e (fun y => { y with service := false })))

/-- What cuts a service short that is not the partner's doing: isochronous transfers are missed, interrupt transfers held (R150,
R151). -/
def perMiss (n h e reason : Nat) (d : Dev) : Dev :=
  if (d.ep n h e).mode == .iso then perEnd n h e cMissed reason d else perRest n h e true d

/-- Put the next transaction of a periodic service on the bus. What no longer fits, after a partner that overran its own packets, is
not issued (R155). -/
def perIssue (n h e : Nat) (d : Dev) : Dev :=
  let y := d.ep n h e
  match y.xfer with
  | none => d
  | some x =>
    let hd := d.handle n h
    let m := y.cfg.maxPacket
    let iso := y.mode == .iso
    let b := (d.port hd.port).bus
    let out := if x.isIn then [] else (x.packet (d.perOut n h e x)).getD []
    let tok := fun b t => emit (.token (toPort hd.port) b h e t)
    if !(b.runs (d.onSs n h)) then perMiss n h e 5 d else
    let d0 := awaitPer hd.port (d.onSs n h) h e (d.modXfer n h e (fun x => { x with svcTxn := x.svcTxn + 1 }))
    if d.onSs n h then
      let k := if x.isIn then d.perPkts n h e x else max 1 (cdiv out.length m)
      let len := if x.isIn then min (k * m) (y.cfg.esit - x.svcBytes) else out.length
      if !(b.fitsSs x.isIn len k) then perMiss n h e 2 d
      else if x.isIn then tok .ss (.grant k y.bus.seq false) (spendSs hd.port true 64 (32 * k + 64) d0)
      else
        let l := burstPackets m k out
        (l.foldl (fun (a : Nat × Dev) p => (a.1 + 1, tok .ss (.ssOut ((y.bus.seq + a.1) % 32) p) a.2))
          (0, spendSs hd.port false (out.length + 40 * k + 64) (32 * k + 64) d0)).2
    else
      let c := frameBits hd.speed iso
      if !(b.fits2 (c + dataBits hd.speed (if x.isIn then m else out.length))) then perMiss n h e 2 d
      else if x.isIn then tok .usb2 (.inTok m) (spend2 hd.port c d0)
      else
        let pid := if iso then isoOutPid (max 1 (cdiv (min y.cfg.esit x.length) m)) x.svcTxn else togglePid y.bus.toggle
        tok .usb2 (.outTok pid out) (spend2 hd.port (c + dataBits hd.speed out.length) d0)

/-- The opportunity is skipped and counted (R78, R247). -/
def skipOpp (n h e reason mf : Nat) : Dev → Dev :=
  Dev.modEp n h e (fun y => { y with
    skipMf := if y.skipped = 0 then mf else y.skipMf, skipReason := if y.skipped = 0 then reason else y.skipReason
    skipped := y.skipped + 1 })

/-- Opportunity of the service of record r whose first microframe on the bus is t: for splits the microframe of R128 that begins the
frame. -/
def PlanRec.oppOf (r : PlanRec) (t : Nat) : Nat :=
  if r.split then (match r.ssIn (t % 256) with | some k => t + 1 - k | none => t) else t

/-- Complete-splits and start-splits of a service. -/
def PlanRec.csCount (r : PlanRec) : Nat := ((List.range 8).filter (fun k => r.csMask / 2 ^ k % 2 == 1)).length
def PlanRec.ssCount (r : PlanRec) : Nat := ((List.range 8).filter (fun k => r.ssMask / 2 ^ k % 2 == 1)).length

/-- A zero-length packet of an isochronous OUT opportunity without data (R121, R150). -/
def zeroPacket (n : Nat) (r : PlanRec) (d : Dev) : Dev :=
  let p := (d.handle n r.h).port
  let tok := fun b t => emit (.token (toPort p) b r.h r.ep t)
  if r.ss then tok .ss (.ssOut 0 []) (spendSs p false 104 96 d)
  else if r.split then tok .usb2 (.ssplit .data0 []) (spend2 p (splitBits false false true) d)
  else tok .usb2 (.outTok .data0 []) (spend2 p (frameBits r.speed true) d)

/-- The token of an isochronous IN opportunity with no transfer: what the partner sends is discarded (R121). -/
def runToken (n : Nat) (r : PlanRec) (d : Dev) : Dev :=
  let p := (d.handle n r.h).port
  let c := (d.ep n r.h r.ep).cfg
  let tok := fun b t => emit (.token (toPort p) b r.h r.ep t)
  if r.ss then
    let k := max 1 (min (c.maxBurst + 1) (cdiv c.esit c.maxPacket))
    tok .ss (.grant k 0 false) (spendSs p true 64 (32 * k + 64) (awaitPer p true r.h r.ep d))
  else if r.split then tok .usb2 (.ssplit .data0 []) (spend2 p (splitBits false true true) d)
  else tok .usb2 (.inTok c.maxPacket) (spend2 p (frameBits r.speed true) (awaitPer p false r.h r.ep d))

/-- An isochronous opportunity with no transfer held and validated (R121, R148). -/
def runOpp (n t : Nat) (r : PlanRec) (d : Dev) : Dev :=
  let p := (d.handle n r.h).port
  let d := d.modEp n r.h r.ep (fun z => { z with runLen := z.runLen + 1, runMf := if z.runLen = 0 then r.oppOf t else z.runMf })
  if !((d.port p).bus.runs r.ss) || (d.port p).bus.resetRequired || (halfOfPort p != d.epHalf n r.h && !d.sinopia.up) then d
  else if !r.isIn then zeroPacket n r d
  else runToken n r (d.modEp n r.h r.ep (fun z => { z with
    runIn := true, bus := { z.bus with csLeft := if r.split then r.csCount else d.perTxns n r.h r.ep - 1 } }))

/-- Begin the service of record r at microframe t (R121, R147 to R151). -/
def beginService (n t : Nat) (r : PlanRec) (d : Dev) : Dev :=
  let y := d.ep n r.h r.ep
  if !y.acts || !((d.slice n).serves) || r.oppOf t < y.since + 4 then d else
  let d := useCtx n r.h r.ep d
  let y := d.ep n r.h r.ep
  let hd := d.handle n r.h
  let p := d.port hd.port
  let cq := d.cq n y.cfg.targetCq
  let miss := fun (reason : Nat) (d : Dev) =>
    perMiss n r.h r.ep reason (d.modXfer n r.h r.ep (fun x => { x with serviceMf := r.oppOf t }))
  if y.reload then d
  else if cq.full || cq.held.length != 0 then skipOpp n r.h r.ep 4 (r.oppOf t) d
  else if d.noPath n (d.epHalf n r.h) then skipOpp n r.h r.ep 7 (r.oppOf t) d
  else match y.xfer.filter (fun x => x.started && x.ending.isNone) with
    | none => if r.iso then runOpp n t r d else d
    | some x =>
      let d := endRun n r.h r.ep d
      if !(p.bus.runs r.ss) || p.bus.resetRequired then miss 5 d
      else if d.pgDrain hd.port && x.done = 0 then (if r.iso then miss 5 d else d)
      else if halfOfPort hd.port != d.epHalf n r.h && !d.sinopia.up then miss 7 d
      else if r.isIn && Config.pageBytes * y.leadPg.length < d.poolUsed n r.h r.ep x + r.esit then miss 3 d
      else if !r.isIn && (x.packet (min r.esit (x.length - x.moved))).isNone then miss 1 (if r.iso then zeroPacket n r d else d)
      else if y.bus.parked then d
      else
        let d := (d.modEp n r.h r.ep (fun z => { z with
            service := true, runIn := false, bus := { z.bus with csLeft := r.csCount, ssLeft := r.ssCount } })).modXfer n r.h r.ep
          (fun x => { x with serviceMf := t, svcBytes := 0, svcTxn := 0, svcPid := none })
        if r.split then d else perIssue n r.h r.ep d

/-- The service moves data: the terms of R147 on the entry and its links are judged (R149). -/
def perMoved (n h e : Nat) : Dev → Dev :=
  Dev.modXfer n h e (fun x => { x with
    late := x.late || (x.done = 0 && decide (x.serviceMf < x.heldMf + 4)) || decide (1 < x.links) })

/-- Go on with the service or let it rest: bytes and transactions left (R160, R161). -/
def perMore (n h e : Nat) (d : Dev) : Dev :=
  match (d.ep n h e).xfer with
  | none => d
  | some x =>
    if x.svcTxn < d.perTxns n h e && x.svcBytes < (d.ep n h e).cfg.esit && !(d.viaTt n h) then perIssue n h e d
    else if (d.ep n h e).mode == .iso then perEnd n h e cOk 0 d
    else perRest n h e false d

/-- A packet of these bytes is short: below MAX_PACKET, the last one of a burst (R160). -/
def Dev.shortIn (d : Dev) (n h e len : Nat) : Bool :=
  let m := (d.ep n h e).cfg.maxPacket
  if d.onSs n h then len = 0 || len % m != 0 else len < m

/-- IN data of a periodic service (R159 to R161, R169, R217). more: another packet of the service follows (a split's MDATA). -/
def perData (n h e : Nat) (bytes : List Byte) (pid : DPid) (sealBad : Nat) (more : Bool) (d : Dev) : Dev :=
  let y := d.ep n h e
  match y.xfer with
  | none => d
  | some x =>
    let iso := y.mode == .iso
    let room := min (y.cfg.esit - x.svcBytes) (x.length - x.recv)
    let fit := min (y.cfg.maxPacket * d.perPkts n h e x) (x.length - x.recv)
    let babble := (d.modCnt (d.handle n h).port (fun c => { c with babble := c.babble + 1 }))
    if iso && (d.perCap n h e < bytes.length || room < bytes.length) then perEnd n h e 0x04 0 babble
    else if !iso && fit < bytes.length then endHalting n h e 0x04 none (takeIn n h e 0 (bytes.take fit) babble)
    else
      let d := good n h e (d.modEpBus n h e (fun b => { b with
        toggle := !b.toggle, seq := (b.seq + cdiv bytes.length y.cfg.maxPacket) % 32 }))
      let d := perMoved n h e (if iso then d else ackIn n h e d)
      if 2 ≤ sealBad then inSealDead n h e d else
      let d := takeIn n h e sealBad bytes (d.modXfer n h e (fun x => { x with svcPid := some (pidNum pid) }))
      if more then d
      else match (d.ep n h e).xfer with
        | none => d
        | some x =>
          if d.highBand n h e then
            (if pid == .data0 || d.perTxns n h e ≤ x.svcTxn then perEnd n h e cOk 0 d else perIssue n h e d)
          else if d.shortIn n h e bytes.length || x.full then
            perEnd n h e (if iso || !(x.recv < x.length || x.more) then cOk else cShort) 0 d
          else perMore n h e d

/-- OUT bytes of a periodic transaction went or were acknowledged. -/
def perSent (n h e : Nat) (d : Dev) : Dev :=
  match (d.ep n h e).xfer with
  | none => d
  | some x =>
    let k := d.perOut n h e x
    let m := (d.ep n h e).cfg.maxPacket
    let d := good n h e (d.modEpBus n h e (fun b => { b with toggle := !b.toggle, seq := (b.seq + max 1 (cdiv k m)) % 32 }))
    let d := (perMoved n h e d).modXfer n h e (fun x => { x with moved := x.moved + k, svcBytes := x.svcBytes + k })
    match (d.ep n h e).xfer with
    | none => d
    | some x => if x.full then perEnd n h e cOk 0 d else perMore n h e d

/-- A bus error of a periodic service: Missed service for isochronous, counted and held for interrupt (R150, R151, R159); a failure
at the TT leaves the transfer its own code (R181). -/
def perError (n h e : Nat) (tt : Bool) (d : Dev) : Dev :=
  if (d.ep n h e).mode == .iso then perEnd n h e cMissed 2 d
  else
    let d := countError n h e tt d
    if (d.ep n h e).xfer.isNone then d else perRest n h e (!tt) d

/-- NAK of a periodic transaction: an isochronous endpoint has none (R159, R184). -/
def perNak (n h e : Nat) (d : Dev) : Dev :=
  let d := countNak n h d
  if (d.ep n h e).mode == .iso then perError n h e false d
  else perRest n h e false (d.modEpBus n h e (fun b => { b with errors := 0 }))

/-! ### The plan of a microframe on the bus (R146, R156, R157) -/

/-- First microframe of the service whose opportunity is m0 (R146): one before its start-split's Y, or m0. -/
def PlanRec.first (r : PlanRec) (t : Nat) : Bool :=
  if r.split then (match r.ssIn (t % 256) with | some k => r.ssOrder k == 0 | none => false) else r.opp (t % 256)

/-- What record r does ahead of its service: its entry from the lead point on, and its OUT data (R146, R147). -/
def perLead (n t : Nat) (r : PlanRec) (d : Dev) : Dev :=
  let d := if r.first (t + 4) then pokeRing n r.h r.ep 0 (wakeBus (d.handle n r.h).port r.ss false d) else d
  if r.first (t + 1) && !r.isIn then pump n r.h r.ep 0 true d else d

/-- A complete-split of the plan goes onto the bus; on a bus that no longer runs the service ends (R170). -/
def csItem (n : Nat) (r : PlanRec) (d : Dev) : Dev :=
  let y := d.ep n r.h r.ep
  let p := (d.handle n r.h).port
  if !y.service && !y.runIn then d
  else if !((d.port p).bus.runs false) then
    (if y.service then perMiss n r.h r.ep 2 d else d.modEp n r.h r.ep (fun z => { z with runIn := false }))
  else emit (.token (toPort p) .usb2 r.h r.ep .csplit) (spend2 p (splitBits true r.isIn r.iso) (awaitPer p false r.h r.ep
    (d.modEpBus n r.h r.ep (fun b => { b with csLeft := b.csLeft - 1 }))))

/-- A start-split of a service (R135). The last one ends an isochronous OUT (R179). -/
def ssItem (n : Nat) (r : PlanRec) (d : Dev) : Dev :=
  let y := d.ep n r.h r.ep
  let p := (d.handle n r.h).port
  match y.xfer with
  | none => d
  | some x =>
    if !y.service then d
    else if !((d.port p).bus.runs false) then perMiss n r.h r.ep 2 d else
    let k := if r.iso then splitBytes x.length x.svcTxn else min r.esit (x.length - x.moved)
    let bytes := if r.isIn then [] else (x.packet k).getD []
    let pid := if r.iso then .data0 else togglePid y.bus.toggle
    let d := (d.modXfer n r.h r.ep (fun x => { x with svcTxn := x.svcTxn + 1 })).modEpBus n r.h r.ep
      (fun b => { b with ssLeft := b.ssLeft - 1 })
    let d := emit (.token (toPort p) .usb2 r.h r.ep (.ssplit pid bytes)) (spend2 p (splitBits false r.isIn r.iso + stuff bytes.length) d)
    if r.iso && !r.isIn then
      let d := (perMoved n r.h r.ep d).modXfer n r.h r.ep (fun x => { x with
        moved := x.moved + bytes.length, svcBytes := x.svcBytes + bytes.length })
      if (d.ep n r.h r.ep).bus.ssLeft = 0 then perEnd n r.h r.ep cOk 0 d else d
    else d

/-- One item of the plan goes onto the bus. -/
def perItem (n : Nat) (i : PerItem) (d : Dev) : Dev :=
  if i.cs then csItem n i.r d else
  let d := if i.r.first i.t then beginService n i.t i.r d else d
  if i.r.split && (i.r.ssIn (i.t % 256)).isSome then ssItem n i.r d else d

/-- Issue items until an answer is awaited: the transactions of one service are consecutive (R156). -/
def runAgenda (n p : Nat) (ss : Bool) : List PerItem → Dev → List PerItem × Dev
  | [], d => ([], d)
  | i :: rest, d =>
    let d := perItem n i d
    if (d.perCur p ss).isSome then (rest, d) else runAgenda n p ss rest d

/-- The bus goes on with the plan once no answer is awaited. -/
def nextPer (p : Nat) (ss : Bool) (d : Dev) : Dev :=
  if (d.perCur p ss).isSome then d else
  let l := (d.port p).bus.agenda
  let x := runAgenda (d.owner p) p ss (l.filter (fun i => i.r.ss == ss)) (d.modBus p (fun b => { b with agenda := [] }))
  x.2.modBus p (fun b => { b with agenda := l.filter (fun i => i.r.ss != ss) ++ x.1 })

/-- What the endpoint had on the bus is answered. -/
def answered (p h e : Nat) : Dev → Dev := Dev.modBus p (fun b => { b with
  per2 := b.per2.filter (fun c => c != (h, e)), perSs := b.perSs.filter (fun c => c != (h, e)) })

/-- An answer on the bus, after which the plan goes on. -/
def onPortPer (p h e : Nat) (f : Nat → Dev → Dev) (d : Dev) : Dev :=
  settlePort p (nextPer p true (nextPer p false (onPortEp p h e (fun n d => f n (answered p h e d)) d)))

/-- Transaction translator that a record's splits address (R133). -/
def PlanRec.tt (r : PlanRec) : Nat × Nat := (r.ttHub, if r.multiTt then r.ttIndex else 0)

/-- Order of the splits of one TT: complete-splits, then start-splits, in ascending TT_START (R156). -/
def insertTt (i : PerItem) : List PerItem → List PerItem
  | [] => [i]
  | x :: l =>
    if (i.cs && !x.cs) || (i.cs == x.cs && i.r.ttStart < x.r.ttStart) then i :: x :: l else x :: insertTt i l

/-- Each TT's splits take the places of that TT's splits in the order of R156; done: the items already passed. -/
def arrangeTt (all done : List PerItem) : List PerItem → List PerItem
  | [] => []
  | i :: l =>
    let same := fun (j : PerItem) => j.r.split && j.r.tt == i.r.tt
    let own := if i.r.split then ((all.filter same).foldl (fun o j => insertTt j o) []).getD (done.filter same).length i else i
    own :: arrangeTt all (done ++ [i]) l

/-- What the plan of port p has its buses do in microframe t, in order (R152, R156). -/
def agendaOf (t : Nat) (plan : List PlanRec) : List PerItem :=
  let all := plan.flatMap (fun r =>
    (if r.split && (r.csIn (t % 256)).isSome then [{ t := t, r := r, cs := true }] else []) ++
    (if r.first t || (r.split && (r.ssIn (t % 256)).isSome) then [{ t := t, r := r }] else []))
  arrangeTt all [] all

/-- The partner answers an opportunity of a run: its data is discarded, and the rest of the service's transactions follow (R121). -/
def runAnswer (n h e len : Nat) (more : Bool) (d : Dev) : Dev :=
  let d := arrivedIn n h len 1 d
  let y := d.ep n h e
  if d.viaTt n h then (if more && y.bus.csLeft != 0 then d else d.modEp n h e (fun z => { z with runIn := false }))
  else if more && y.bus.csLeft != 0 then
    let p := (d.handle n h).port
    let d := awaitPer p (d.onSs n h) h e (d.modEpBus n h e (fun b => { b with csLeft := b.csLeft - 1 }))
    let t := fun b t => emit (.token (toPort p) b h e t)
    if d.onSs n h then t .ss (.grant (y.cfg.maxBurst + 1) 0 false) (spendSs p true 64 (32 * (y.cfg.maxBurst + 1) + 64) d)
    else t .usb2 (.inTok y.cfg.maxPacket) (spend2 p (frameBits (d.handle n h).speed true) d)
  else d.modEp n h e (fun z => { z with runIn := false })

/-- The partner's answer to a periodic transaction (R159). -/
def perResponse (n h e : Nat) (r : PerResp) (sealBad : Nat) (d : Dev) : Dev :=
  let y := d.ep n h e
  if y.runIn then
    (match r with
      | .data _ pid b => runAnswer n h e b.length (if d.onSs n h then !(d.shortIn n h e b.length) else pid != .data0) d
      | _ => runAnswer n h e 0 false d)
  else match y.xfer with
  | none => d
  | some x =>
    if !y.service || !y.mode.periodic then d else
    let iso := y.mode == .iso
    if 1 ≤ sealBad && !x.isIn then
      -- R217, periodic OUT: no retry, the rest of the service is not issued
      endHalting n h e cIntegrity none (sealEvent n h e d)
    else match r with
      | .data ok pid bytes =>
        let d := arrivedIn n h bytes.length (max 1 (cdiv bytes.length y.cfg.maxPacket)) d
        if !x.isIn then perError n h e false d
        else if d.highBand n h e && !(x.pidOk y.cfg.mult pid) then perError n h e false d
        else if ok then perData n h e bytes pid sealBad false d
        else if iso then perError n h e false d
        else perRest n h e false (ackIn n h e (d.modEpBus n h e (fun b => { b with errors := 0 })))
      | .ack => if x.isIn || iso then perError n h e false d else perSent n h e d
      | .nyet => if x.isIn || iso || (d.handle n h).speed != 3 then perError n h e false d else perSent n h e d
      | .sent => if iso && !x.isIn then perSent n h e d else d
      | .nak => perNak n h e d
      | .stall => if iso then perError n h e false d else endHalting n h e 0x07 none d
      | .busError => perError n h e false d
def execPeriodicTransactionResponse (p : PortId) (h ep : Nat) (r : PerResp) (sealBad : Nat) (s : State) : Outc :=
  run (onPortPer p.val h ep (fun n => perResponse n h ep r sealBad)) s

/-! ### Splits (R178 to R180) -/

/-- A hub's answer to a non-periodic split (R178); after the ACK to a start-split, the complete-split is of the next turn. -/
def npSplit (n h e : Nat) (r : SplitResp) (d : Dev) : Dev :=
  let y := d.ep n h e
  match y.xfer with
  | none => d
  | some _ =>
    if !y.bus.csplit then
      match r with
      | .ack => turnOver n h e (d.modEpBus n h e (fun b => { b with errors := 0, csplit := true }))
      | .nak => nakked n h e true false d
      | _ => npError n h e false d
    else
      match r with
      | .nyet => nakked n h e true false d
      | .err => npError n h e true d
      | .crcError => npError n h e false d
      | .ack => npResponse n h e (.ack 1) 0 d
      | .nak => npResponse n h e .nak 0 (d.modEpBus n h e (fun b => { b with csplit := false }))
      | .stall => npStall n h e d
      | .data ok bytes sealBad => npResponse n h e (.data ok bytes) sealBad d
      | .mdata _ _ => npError n h e false d

/-- The last planned complete-split gave no result (R179). -/
def splitOut (n h e : Nat) (d : Dev) : Dev :=
  if (d.ep n h e).mode == .iso then perEnd n h e cMissed 6 d else perError n h e true d

/-- A hub's answer to a periodic complete-split (R179). -/
def perSplit (n h e : Nat) (r : SplitResp) (d : Dev) : Dev :=
  let y := d.ep n h e
  if y.runIn then
    (match r with
      | .mdata b _ => runAnswer n h e b.length true d
      | .data _ b _ => runAnswer n h e b.length false d
      | .nyet => runAnswer n h e 0 true (countNak n h d)
      | _ => runAnswer n h e 0 false d)
  else match y.xfer with
  | none => d
  | some x =>
    let last := y.bus.csLeft = 0
    let iso := y.mode == .iso
    match r with
    | .mdata bytes sealBad =>
      let d := arrivedIn n h bytes.length 1 d
      if !x.isIn || !iso then perError n h e false d else
      let d := perData n h e bytes .mdata sealBad true d
      if last && (d.ep n h e).service then splitOut n h e d else d
    | .data ok bytes sealBad =>
      let d := arrivedIn n h bytes.length 1 d
      if !x.isIn then perError n h e false d
      else if ok then perData n h e bytes .data0 sealBad false (d.modXfer n h e (fun x => { x with svcTxn := 1 }))
      else if iso then perError n h e false d
      else perRest n h e false (ackIn n h e (d.modEpBus n h e (fun b => { b with errors := 0 })))
    | .ack => if x.isIn || iso then perError n h e false d else perSent n h e d
    | .nak => perNak n h e d
    | .stall => if iso then perError n h e false d else endHalting n h e 0x07 none d
    | .nyet =>
      let d := countNak n h d
      if last then splitOut n h e d else d
    | .err => perError n h e true d
    | .crcError => perError n h e false d

def splitAnswer (n h e : Nat) (r : SplitResp) (d : Dev) : Dev :=
  if !((d.ep n h e).service || (d.ep n h e).runIn) || !(d.viaTt n h) then d
  else if (d.ep n h e).mode.periodic then perSplit n h e r d else npSplit n h e r d
def execSplitResponse (p : PortId) (h ep : Nat) (r : SplitResp) (s : State) : Outc :=
  run (onPortPer p.val h ep (fun n => splitAnswer n h ep r)) s

/-- No response in the bus's time (R168). -/
def noResponse (n h e : Nat) (d : Dev) : Dev :=
  if d.viaTt n h then splitAnswer n h e .crcError d
  else if (d.ep n h e).mode.periodic then perResponse n h e .busError 0 d
  else if !(d.ep n h e).service then d
  else npError n h e false d
def execTransactionTimeout (p : PortId) (h ep : Nat) (s : State) : Outc :=
  run (onPortPer p.val h ep (fun n => noResponse n h ep)) s

/-- The repoll interval elapsed (R171). -/
def execRepollIntervalExpiry (p : PortId) (h ep : Nat) (s : State) : Outc :=
  run (onPortEp p.val h ep (fun n => Dev.modEpBus n h ep (fun b => { b with waiting := false }))) s

/-! ### NRDY and ERDY (R174, R176) -/

def nrdy (n h e : Nat) (d : Dev) : Dev :=
  let y := d.ep n h e
  if !(d.onSs n h) then d
  else if y.mode == .iso then perResponse n h e .busError 0 d
  else
    let d := d.modEpBus n h e (fun b => { b with parked := true, errors := 0 })
    if y.mode.periodic then perRest n h e false d
    else turnOver n h e (if y.cfg.streams then leaveStream n h e .pending d else d)
def execNrdyReceived (p : PortId) (h ep _stream : Nat) (s : State) : Outc :=
  run (onPortPer p.val h ep (fun n => nrdy n h ep)) s

def strayErdy (p : Nat) : Dev → Dev := Dev.modCnt p (fun c => { c with strayErdy := c.strayErdy + 1 })
def erdy (p h e st : Nat) (d : Dev) : Dev :=
  let n := d.owner p
  let hd := d.handle n h
  let y := hd.ep e
  let dev := n < d.S && (hd.st == .default || hd.st == .addressed) && hd.port = p && speedSs hd.speed
  if !dev || !y.acts || (y.cfg.streams && !(y.streamOk st)) then strayErdy p d
  else
    let d := d.modEpBus n h e (fun b => { b with parked := false, erdySeen := true, granted := max 1 b.granted })
    if !y.cfg.streams || (y.ring st).sst == .active then d else
    let d := d.modEp n h e (fun z => { z with
      rings := if (tabFind z.rings st).isSome then z.rings else tabPut z.rings st { loaded := false }
      bus := { z.bus with erdyQ := if z.bus.erdyQ.contains st then z.bus.erdyQ else z.bus.erdyQ ++ [st] } })
    d.modRing n h e st (fun r => { r with sst := .pending })
def execErdyReceived (p : PortId) (h ep stream : Nat) (s : State) : Outc := run (erdy p.val h ep stream) s

/-! ### The microframe on one port (R146, R154, R156, R158, R182) -/

/-- SOF, keep-alive or timestamp of port p (R154, R158, R182), and the bus time of what begins. -/
def startOfFrame (p t : Nat) (d : Dev) : Dev :=
  let b := (d.port p).bus
  let hs := b.usb2Speed == 3
  let d := d.modBus p (fun b => { b with
    time2 := if hs then 200 else if t % 8 = 0 then 50 else b.time2, timeDn := 0, timeUp := 0 })
  let d := if !(b.usb2 == .enabled || (b.usb2 == .resuming && b.recUsb2)) || (b.suspending && !b.lpm) then d
    else if hs then emit (.token (toPort p) .usb2 0 0 (.sof (t / 8 % 2048))) d
    else if t % 8 != 0 then d
    else emit (.token (toPort p) .usb2 0 0 (if b.usb2Speed = 2 then .keepAlive else .sof (t / 8 % 2048))) d
  if b.ss == .u0 then emit (.token (toPort p) .ss 0 0 (.itp (t % 16384) (Config.itpDelay p t))) d else d

/-- The boundary on one port: the frame starts, then its services in plan order (R152, R156). -/
def portMicro (p : Nat) (d : Dev) : Dev :=
  let n := d.owner p
  let t := d.mf (halfOfPort p)
  let d := startOfFrame p t d
  if d.S ≤ n then d else
  let plan := (d.port p).plan.foldl (fun l r => insertRec r l) []
  let d := plan.foldl (fun d r => perLead n t r d) d
  settlePort p (nextPer p true (nextPer p false (d.modBus p (fun b => { b with agenda := b.agenda ++ agendaOf t plan }))))

end Sys2Proof.Machine
end

