-- ==== Sys2Proof/Machine/Ports.lean ====
section
/-! DEFINITION. Bus states (R185 to R190), port events (R191 to R193) and port operations (R195 to R204). -/
namespace Sys2Proof.Machine

/-! ### USB 2.0 bus (R186, R188) -/

def pullup (p : Nat) (low : Bool) (d : Dev) : Dev :=
  pgWake p (d.modBus p (fun b => if b.usb2 == .disconnected then { b with debounce := true, lowSpeed := low } else b))
def execPullupSeen (p : PortId) (lowSpeed : Bool) (s : State) : Outc := run (pullup p lowSpeed) s

def debounced (p : Nat) (d : Dev) : Dev :=
  let b := (d.port p).bus
  if b.usb2 == .disconnected && b.debounce then
    portEvent p { bits := 1 } (d.modBus p (fun b => { b with
      usb2 := .connected, debounce := false, usb2Speed := if b.lowSpeed then 2 else 1 }))
  else d
def execConnectDebounceEnd (p : PortId) (s : State) : Outc := run (debounced p) s

/-- The pull-up is lost (R186, R189). -/
def disconnect2 (p : Nat) (d : Dev) : Dev :=
  let b := (d.port p).bus
  if b.usb2 == .disconnected then d.modBus p (fun b => { b with debounce := false })
  else if !(usb2Conn b.usb2) then d else
  let bits := 1 + leaveBits2 b.usb2
  let d := d.modBus p (fun b => { b with
    usb2 := .disconnected, usb2Speed := 0, recUsb2 := false, ownReset := false, l1Exit := false, debounce := false
    wakeFirst := false, wakeLate := false })
  let d := detachHandles p (some false) cDetached d
  cutPortOp p true false (portEvent p { bits := bits, cause := 7, detach := true } d)
def execUsb2Disconnect (p : PortId) (s : State) : Outc := run (disconnect2 p) s

/-- The reset drive ends at the detected speed, the bus is Enabled (ENABLE_CHANGE, R191), and the recovery begins (R186, R188). -/
def resetDriven (p : Nat) (chirped : Bool) (d : Dev) : Dev :=
  if (d.port p).bus.usb2 != .resetting then d else
  portEvent p { bits := 2 } (d.modBus p (fun b => { b with
    usb2 := .enabled, recUsb2 := true, usb2Speed := if b.lowSpeed then 2 else if chirped then 3 else 1 }))
def execResetDriveEnd (p : PortId) (chirped : Bool) (s : State) : Outc := run (resetDriven p chirped) s

/-- The recovery of a resume ends on the USB 2.0 bus: Enabled, the event of the change, then the operation (R186, R192, R200, R201). -/
def resumed2 (p : Nat) (d : Dev) : Dev :=
  let b := (d.port p).bus
  let d := portEvent p { bits := 4 + (if b.wakeFirst then 8 else 0) } (d.modBus p (fun b => { b with
    usb2 := .enabled, recUsb2 := false, wakeFirst := false }))
  if b.op.any (fun o => o.opcode = 0x12 && o.waitUsb2) then opBusDone p false 8 d else d

/-- A recovery ends (R188): on the SuperSpeed bus also the Recovery of R187, after which an LGO_U3 that waits goes out. -/
def recovered (p : Nat) (ss : Bool) (d : Dev) : Dev :=
  let b := (d.port p).bus
  let reset := b.op.any (fun o => o.opcode = 0x10)
  if ss then
    if b.ss == .recovery then
      let d := d.modBus p (fun b => { b with ss := .u0, u3Fails := 0, rebus := false, ssWake := false })
      if b.rebus then
        -- the exit came from U3
        let d := portEvent p { bits := 4 + (if b.ssWake then 8 else 0) } d
        if b.op.any (fun o => o.opcode = 0x12 && o.waitSs) then opBusDone p true 16 d else d
      else settlePort p d
    else if b.recSs then
      let d := d.modBus p (fun b => { b with recSs := false })
      if reset && b.op.any (fun o => o.waitSs) then opBusDone p true 0 d else d
    else d
  else if !b.recUsb2 then d
  else if b.usb2 == .resuming then resumed2 p d
  else
    let d := d.modBus p (fun b => { b with recUsb2 := false, ownReset := false })
    if reset && b.op.any (fun o => o.waitUsb2) && !b.ownReset then opBusDone p false 0 d else d
def execRecoveryEnd (p : PortId) (b : Bus) (s : State) : Outc := run (recovered p.val (b == .ss)) s

/-- The K drive ends: Enabled after L1; after a resume the bus stays Resuming for its recovery (R186, R199, R200). -/
def driven (p : Nat) (d : Dev) : Dev :=
  let b := (d.port p).bus
  if !((b.usb2 == .resuming && !b.recUsb2) || (b.usb2 == .l1 && b.l1Exit)) then d else
  let d := emit (.signal (toPort p) .usb2 .eop) d
  if b.usb2 == .l1 then
    let d := portEvent p { bits := 16 + (if b.wakeFirst then 8 else 0) } (d.modBus p (fun b => { b with
      usb2 := .enabled, l1Exit := false, wakeFirst := false }))
    match b.op with
    | some o => if o.opcode = 0x12 && o.waitUsb2 then opBusDone p false 8 d else d
    | none => d
  else d.modBus p (fun b => { b with recUsb2 := true })
def execResumeDriveEnd (p : PortId) (s : State) : Outc := run (driven p) s

/-- Suspended, 3 ms after the last SOF (R188, R198). -/
def suspended (p : Nat) (d : Dev) : Dev :=
  let b := (d.port p).bus
  match b.op with
  | some o =>
    if o.opcode = 0x11 && o.waitUsb2 && !b.lpm && b.usb2 == .enabled then
      opBusDone p false 0 (portEvent p { bits := 4 } (d.modBus p (fun b => { b with usb2 := .suspended })))
    else d
  | none => d
def execSuspendReached (p : PortId) (s : State) : Outc := run (suspended p) s

/-- K from the partner (R199, R201). within1ms: a PORT_RESUME that begins during this wake begins within 1 ms of the K; while
the port already drives: the K came within 1 ms after the drive began. -/
def partnerK (p : Nat) (within : Bool) (d : Dev) : Dev :=
  let b := (d.port p).bus
  if b.usb2 == .l1 then wakeBus p false true d
  else if b.usb2 == .suspended then
    pgWake p (emit (.signal (toPort p) .usb2 .kDrive)
      (d.modBus p (fun b => { b with usb2 := .resuming, wakeFirst := true, kWithin1ms := within })))
  else if b.usb2 == .resuming && !b.wakeFirst && !b.recUsb2 && within then
    d.modBus p (fun b => { b with op := b.op.map (fun o => if o.opcode = 0x12 then { o with flags := o.flags ||| 1 } else o) })
  else d
def execPartnerKDetected (p : PortId) (within1ms : Bool) (s : State) : Outc := run (partnerK p within1ms) s

/-- The answer to the LPM token (R199). -/
def lpmDone (p : Nat) (a : LpmAns) (d : Dev) : Dev :=
  let b := (d.port p).bus
  if !b.lpm || b.lpmDue.isSome then d else
  match a with
  | .ack => finishPortOp p cOk 1 (portEvent p { bits := 16 } (d.modBus p (fun b => { b with usb2 := .l1 })))
  | .nyet => finishPortOp p cNotPermitted 2 d
  | .stall => finishPortOp p 0x07 3 d
  | .none => finishPortOp p cNotPermitted 4 d
def execLpmAnswer (p : PortId) (a : LpmAns) (s : State) : Outc := run (lpmDone p a) s

/-- The partner still transmits as the guard begins: Babble, and the USB 2.0 bus is Disabled (R170). -/
def portBabbled (p h e : Nat) (d : Dev) : Dev :=
  let n := d.owner p
  if (d.port p).bus.usb2 != .enabled then d else
  let d := d.modCnt p (fun c => { c with babble := c.babble + 1 })
  let hit := n < d.S && (d.handle n h).port = p && (d.ep n h e).service
  let d := if !hit then d
    else if (d.ep n h e).mode == .iso then perEnd n h e 0x04 0 d
    else turnOver n h e (endHalting n h e 0x04 none d)
  settlePort p (portEvent p { bits := 2, cause := 5 } (answered p h e (d.modBus p (fun b => { b with usb2 := .disabled }))))
def execPortBabble (p : PortId) (h ep : Nat) (s : State) : Outc := run (portBabbled p h ep) s

/-! ### SuperSpeed bus (R187, R190, R202) -/

def terminations (p : Nat) (d : Dev) : Dev :=
  pgWake p (d.modBus p (fun b => if b.ss == .rxDetect then { b with ss := .polling, probes := 0 } else b))
def execSsTerminationsDetected (p : PortId) (s : State) : Outc := run (terminations p) s

/-- One probe without terminations; the eighth disables the bus (R187). -/
def probe (p : Nat) (d : Dev) : Dev :=
  let b := (d.port p).bus
  if b.ss != .rxDetect then d
  else if 7 ≤ b.probes then portEvent p { bits := 32 } (d.modBus p (fun b => { b with ss := .disabled, probes := 0 }))
  else emit (.signal (toPort p) .ss .probe) (d.modBus p (fun b => { b with probes := b.probes + 1 }))
def execRxDetectProbe (p : PortId) (s : State) : Outc := run (probe p) s

def trained (p : Nat) (gen2 : Bool) (d : Dev) : Dev :=
  if (d.port p).bus.ss != .polling then d else
  portEvent p { bits := 1 } (d.modBus p (fun b => { b with ss := .u0, ssSpeed := if gen2 then 5 else 4, trainFails := 0 }))
def execSsTrainingComplete (p : PortId) (gen2 : Bool) (s : State) : Outc := run (trained p gen2) s

/-- Training did not complete: Rx-detect, after the third failure Disabled (R187). -/
def pollTimeout (p : Nat) (d : Dev) : Dev :=
  let b := (d.port p).bus
  if b.ss != .polling then d
  else if 2 ≤ b.trainFails then portEvent p { bits := 32 } (d.modBus p (fun b => { b with ss := .disabled, trainFails := 0 }))
  else d.modBus p (fun b => { b with ss := .rxDetect, trainFails := b.trainFails + 1, probes := 0 })
def execPollingTimeout (p : PortId) (s : State) : Outc := run (pollTimeout p) s

/-- U1_TIMEOUT or U2_TIMEOUT in use (R190). -/
def Dev.uTimeout (d : Dev) (p : Nat) (u2 : Bool) : Nat := d.cfg (0x3000 + p) (if u2 then 0x11 else 0x10)

def inactive (p : Nat) (u2 : Bool) (d : Dev) : Dev :=
  if (d.port p).bus.ss == .u0 && d.uTimeout p u2 != 0 then
    emit (.signal (toPort p) .ss (if u2 then .lgoU2 else .lgoU1)) (d.modBus p (fun b => { b with ss := if u2 then .u2 else .u1 }))
  else d
def execU1U2InactivityTimeout (p : PortId) (u2 : Bool) (s : State) : Outc := run (inactive p u2) s

def partnerLgoU (p : Nat) (u2 : Bool) (d : Dev) : Dev :=
  if (d.port p).bus.ss != .u0 then d
  else if d.uTimeout p u2 != 0 then
    emit (.signal (toPort p) .ss .lau) (d.modBus p (fun b => { b with ss := if u2 then .u2 else .u1 }))
  else emit (.signal (toPort p) .ss .lxu) d
def execPartnerLgo (p : PortId) (u2 : Bool) (s : State) : Outc := run (partnerLgoU p u2) s

def execPartnerU1U2Exit (p : PortId) (s : State) : Outc :=
  run (Dev.modBus p (fun b => if b.ss == .u1 || b.ss == .u2 then { b with ss := .recovery } else b)) s

/-- The partner answers LGO_U3 (R198). -/
def lau (p : Nat) (d : Dev) : Dev :=
  let b := (d.port p).bus
  if !b.lgoU3 then d else
  opBusDone p true 0 (portEvent p { bits := 4 } (d.modBus p (fun b => { b with ss := .u3, lgoU3 := false })))
def execLauReceived (p : PortId) (s : State) : Outc := run (lau p) s

/-- No LAU within 10 ms: the bus stays in U0 and RESULT0 [0] is set (R198). -/
def u3Timeout (p : Nat) (d : Dev) : Dev :=
  if (d.port p).bus.lgoU3 then opBusDone p true 1 (d.modBus p (fun b => { b with lgoU3 := false })) else d
def execU3EntryTimeout (p : PortId) (s : State) : Outc := run (u3Timeout p) s

/-- U3 exit LFPS from either side (R202): Recovery; INITIATOR where the partner's came before the port's. -/
def u3Exit (p : Nat) (partner : Bool) (d : Dev) : Dev :=
  let b := (d.port p).bus
  if b.ss != .u3 then d else
  let own := match b.op with
    | some o => o.opcode = 0x12 && o.waitSs
    | none => false
  (doIf partner (pgWake p) d).modBus p (fun b => { b with
    ss := .recovery, rebus := true, ssWake := partner
    op := b.op.map (fun o => if own && partner then { o with flags := o.flags ||| 2 } else o) })
def execU3ExitLfps (p : PortId) (partner : Bool) (s : State) : Outc := run (u3Exit p partner) s

/-- The SuperSpeed bus enters Inactive: its handles are lost (R187, R189). -/
def ssInactive (p : Nat) (d : Dev) : Dev :=
  -- a PORT_RESET or PORT_SUSPEND that acts on the bus ends here; a PORT_RESUME reports SS_FAILED (R195, R196, R200)
  let cut := (d.port p).bus.op.any (fun o => o.opcode != 0x12)
  let left := (d.port p).bus.leaveSs
  let d := d.modBus p (fun b => { b with
    ss := .inactive, ssSpeed := 0, recSs := false, rebus := false, ssWake := false, u3Fails := 0, lgoU3 := false })
  let d := portEvent p { bits := 33 ||| left, cause := 6, detach := true } (detachHandles p (some true) cDetached d)
  if cut then cutPortOp p false true d else d

/-- Recovery fails, or one attempt of the port's U3 exit, the second of which ends it (R187): Inactive. A PORT_RESUME that acts on the
bus has SS_FAILED (R200; DESIGN CHOICE, log entry 68: also where the Recovery after the exit fails). -/
def ssRecFailed (p : Nat) (d : Dev) : Dev :=
  let b := (d.port p).bus
  let own := match b.op with
    | some o => o.opcode = 0x12 && o.waitSs
    | none => false
  if b.ss == .u3 && own && b.u3Fails = 0 then emit (.signal (toPort p) .ss .exitLfps) (d.modBus p (fun b => { b with u3Fails := 1 }))
  else if b.ss == .recovery || b.recSs || (b.ss == .u3 && own) then
    let d := ssInactive p d
    if own then opBusDone p true 32 d else d
  else d
def execSsRecoveryFailed (p : PortId) (s : State) : Outc := run (ssRecFailed p) s

/-- Terminations lost while Type-C stays attached (R187, R189). -/
def terminationsLost (p : Nat) (d : Dev) : Dev :=
  let b := (d.port p).bus
  if b.ss == .detached || b.ss == .rxDetect then d else
  let conn := ssConn b.ss
  let bits := (if conn then 1 else 0) + (if b.startReset then 32 else b.leaveSs)
  let d := d.modBus p (fun b => { b with
    ss := .rxDetect, ssSpeed := 0, probes := 0, recSs := false, startReset := false, rebus := false, ssWake := false, lgoU3 := false })
  let d := if conn then detachHandles p (some true) cDetached d else d
  let d := if bits = 0 then d else portEvent p { bits := bits, cause := if conn then 7 else 0, detach := conn } d
  cutPortOp p false true d
def execSsTerminationsLost (p : PortId) (s : State) : Outc := run (terminationsLost p) s

/-- The reset ends and training completes: U0. The owner is told where a start reset a bus in Inactive (R187, R443). -/
def ssResetDone (p : Nat) (gen2 : Bool) (d : Dev) : Dev :=
  if (d.port p).bus.ss != .resetting then d else
  let again := (d.port p).bus.startReset
  let d := d.modBus p (fun b => { b with ss := .u0, ssSpeed := if gen2 then 5 else 4, recSs := true, startReset := false })
  if again then portEvent p { bits := 32 } d else d
def execSsResetEnd (p : PortId) (gen2 : Bool) (s : State) : Outc := run (ssResetDone p gen2) s

/-- A Function Wake notification in U0 (R202). -/
def execFunctionWakeReceived (p : PortId) (intf : Byte) (s : State) : Outc :=
  run (fun d => if (d.port p).bus.ss == .u0 then portEvent p { bits := 64 } (d.modBus p (fun b => { b with funcIntf := intf })) else d) s

/-! ### The port detaches (R122, R185) -/

/-- Both buses leave for Detached: events, handles, and the operation in progress (R185, R189, R192, R195); extra: event bits
of the attach side that changed with it. -/
def detachBuses (p cause code extra : Nat) (d : Dev) : Dev :=
  let b := (d.port p).bus
  if b.usb2 == .detached && b.ss == .detached then
    (let d := d.modBus p (fun b => { b with resetRequired := false })
     if extra = 0 then d else portEvent p { bits := extra, cause := cause, detach := true } d) else
  let conn := usb2Conn b.usb2 || ssConn b.ss
  let bits := (if conn then 1 else 0) + (leaveBits2 b.usb2 ||| b.leaveSs) + extra
  let d := d.modBus p (fun b => { b with
    usb2 := .detached, ss := .detached, usb2Speed := 0, ssSpeed := 0, debounce := false, recUsb2 := false, recSs := false
    suspending := false, lgoU3 := false, lgoDue := false, lpmDue := none, rst2 := false, rstS := false, l1Exit := false, lpm := false
    rebus := false, probes := 0, trainFails := 0, u3Fails := 0
    wakeFirst := false, wakeLate := false, ssWake := false, ownReset := false, startReset := false, resetRequired := false })
  let d := detachHandles p none code d
  let d := portEvent p { bits := bits, cause := cause, detach := true } d
  match b.op with
  | some o => if o.opcode = 0x13 then d else finishPortOp p cDetached 0 d
  | none => d

/-- The buses of an attachment with a data path leave Detached where VBUS is up (R300) and a slice owns the port: a partner of an
unowned port is offered none (R47), and has it from the assignment on (log entry 68). -/
def openBuses (p : Nat) (d : Dev) : Dev :=
  let x := d.port p
  let shut := x.bus.usb2 == .detached && x.bus.ss == .detached && !x.tc.ppeRestart
  doIf (x.tc.dataPath && x.tc.busesOut && d.owner p < d.S && shut)
    (fun d => pgWake p (d.modBus p (fun b => { b with usb2 := .disconnected, ss := .rxDetect }))) d

/-! ### Port operations (R195 to R201) -/

/-- The first code that keeps a port operation from running, 0 for none (R195). -/
def portOpCode (op p : Nat) (d : Dev) : Nat :=
  let b := (d.port p).bus
  if b.usb2 == .detached && b.ss == .detached then cDetached
  else if d.pgDrain p then cBusy
  else if b.op.isSome then cNotPermitted
  else if b.resetRequired && (op = 0x11 || op = 0x12) then cNotPermitted
  else 0

/-- The checks shared by port operations, then the operation on its physical port. -/
def onPort (op n q : Nat) (i : Dword) (f : Nat → List Dword → Dev → Dev) : Dev → Dev :=
  onEntry op n q i (fun e d =>
    match d.physPort n (wePort e) with
    | none => finishWe n q i cDetached {} d
    | some p =>
      let c := portOpCode op p d
      if c != 0 then finishWe n q i c {} d else f p e (pgWake p d))

/-- PORT_RESET (R196, R197): it takes effect at the next transaction boundary of each bus. -/
def resetAct (n q : Nat) (i : Dword) (p : Nat) (e : List Dword) (d : Dev) : Dev :=
  let b := (d.port p).bus
  let u := match b.usb2 with | .connected | .enabled | .l1 | .suspended | .disabled => true | _ => false
  let s := match b.ss with | .u0 | .u1 | .u2 | .u3 | .recovery | .inactive => true | _ => false
  if !u && !s then finishWe n q i cOk {} (d.modBus p (fun b => { b with resetRequired := false })) else
  settlePort p ((waitEnt n q i 2 0 d).modBus p (fun b => { b with
    rst2 := true, rstS := true
    op := some { opcode := 0x10, slice := n, wq := q, idx := i, waitUsb2 := u, waitSs := s, onUsb2 := u, onSs := s
                 warm := bitOf (dwAt e 4) 0 } }))
def execPortReset (n : SliceId) (wq : Nat) (i : Dword) (s : State) : Outc :=
  run (onPort 0x10 n wq i (resetAct n.val wq i)) s

/-- The BESL of the device attached to the port's USB 2.0 bus, where it allows L1 (R199). -/
def Dev.l1Besl (d : Dev) (n p : Nat) : Option Nat :=
  ((d.eng n).handles.find? (fun x => (x.2.st == .default || x.2.st == .addressed) && x.2.port == p && x.2.route == 0 &&
    !(speedSs x.2.speed) && x.2.beslValid)).map (fun x => x.2.besl)

/-- PORT_SUSPEND (R198, R199). -/
def suspendAct (n q : Nat) (i : Dword) (p : Nat) (e : List Dword) (d : Dev) : Dev :=
  let b := (d.port p).bus
  if dwAt e 4 = 0 then
    let u := b.usb2 == .enabled
    let s := match b.ss with | .u0 | .u1 | .u2 => true | _ => false
    if !u && !s then finishWe n q i cNotPermitted {} d else
    let d := (waitEnt n q i 2 0 d).modBus p (fun b => { b with
      suspending := true, lgoDue := s
      op := some { opcode := 0x11, slice := n, wq := q, idx := i, waitUsb2 := u, waitSs := s, onUsb2 := u, onSs := s } })
    -- R187: U3 is entered from U0, so U1 and U2 are left first
    settlePort p (wakeBus p true false d)
  else
    match d.l1Besl n p with
    | none => finishWe n q i cNotPermitted {} d
    | some k =>
      if b.usb2 != .enabled || b.usb2Speed = 2 || d.cfg (0x3000 + p) 0x12 = 0 then finishWe n q i cNotPermitted {} d else
      settlePort p ((waitEnt n q i 2 0 d).modBus p (fun b => { b with
        suspending := true, lpm := true, lpmDue := some k
        op := some { opcode := 0x11, slice := n, wq := q, idx := i, waitUsb2 := true, onUsb2 := true } }))
def execPortSuspend (n : SliceId) (wq : Nat) (i : Dword) (s : State) : Outc :=
  run (onPort 0x11 n wq i (suspendAct n.val wq i)) s

/-- PORT_RESUME (R200 to R202). -/
def resumeAct (n q : Nat) (i : Dword) (p : Nat) (_e : List Dword) (d : Dev) : Dev :=
  let b := (d.port p).bus
  let u := match b.usb2 with | .suspended | .l1 | .resuming => true | _ => false
  let wake := b.usb2 == .resuming
  let s := b.ss == .u3
  if !u && !s then finishWe n q i cOk { r0 := 4 } d else
  -- R201 is of Suspended; an exit from L1 that the partner began sets INITIATOR alone (R200)
  let flags := if wake && b.wakeFirst then (if b.kWithin1ms then 3 else 2) else if b.usb2 == .l1 && b.l1Exit && b.wakeFirst then 2 else 0
  let d := (waitEnt n q i 2 0 d).modBus p (fun b => { b with
    wakeLate := wake && b.wakeFirst && !b.kWithin1ms
    op := some { opcode := 0x12, slice := n, wq := q, idx := i, waitUsb2 := u, waitSs := s, onUsb2 := u, onSs := s, flags := flags } })
  let d := if b.usb2 == .suspended then
      emit (.signal (toPort p) .usb2 .kDrive) (d.modBus p (fun b => { b with usb2 := .resuming, wakeFirst := false }))
    else wakeBus p false false d
  doIf s (emit (.signal (toPort p) .ss .exitLfps)) d
def execPortResume (n : SliceId) (wq : Nat) (i : Dword) (s : State) : Outc :=
  run (onPort 0x12 n wq i (resumeAct n.val wq i)) s

end Sys2Proof.Machine
end

