-- ==== Sys2Proof/Machine/Image.lean ====
section
/-! DEFINITION. The image of an exported slice (R216, R291 to R294): its parts as words, its CRC-32C, the rules that an
imported image must keep, and the slice that an image describes. -/
namespace Sys2Proof.Machine

/-! ### Writing (R292) -/

/-- The queue's state in a record: what it held before Stopped. -/
def recSt (st prev : QSt) : Nat :=
  match (if st = .stopped then prev else st) with | .active => 1 | .draining => 2 | .error => 3 | _ => 0

/-- Sixteen words from a list of the first ones. -/
def fill16 (ws : List Dword) : List Dword := ws ++ List.replicate (16 - ws.length) 0

def wqRecord (q : Nat) (w : WQ) : List Dword :=
  fill16 [w32 (q + 2 ^ 13 * recSt w.st w.prev + 2 ^ 17 * b2n w.lc.pushEn),
    w32 (w.sizeLog + 32 * w.lc.weight.toNat + 512 * w.lc.burst.toNat + 0x10000 * w.target.toNat),
    w32 w.base.toNat, w32 (w.base.toNat / 2 ^ 32), w.ci, 0, 0, w.errIndex, w32 (w.errCode.toNat + 256 * w.reason.toNat)]

def cqRecord (q : Nat) (c : CQ) : List Dword :=
  fill16 [w32 (q + 2 ^ 12 + 2 ^ 13 * recSt c.st c.prev + 2 ^ 16 * b2n c.armed), w32 c.sizeLog,
    w32 c.base.toNat, w32 (c.base.toNat / 2 ^ 32), c.pi, c.ci,
    w32 (c.lc.vector.toNat + 0x10000 * c.lc.modCount.toNat + 0x1000000 * c.lc.modTime.toNat), c.errIndex, w32 c.errCode.toNat]

def handleRecord (h : Nat) (x : Handle) : List Dword :=
  [w32 (h + 0x10000 * devStCode x.st), 0, w32 x.ctxAddr, w32 (x.ctxAddr / 2 ^ 32)]

def vecRecord (v : Vec) : List Dword := [w32 v.addr.toNat, w32 (v.addr.toNat / 2 ^ 32), v.data, w32 (b2n v.mask)]

/-- The words of the pending bits, n of them. -/
def pendWords (t : Tab Vec) (k : Nat) : List Dword :=
  (List.range k).map (fun i => w32 ((List.range 32).foldl (fun a b => a + 2 ^ b * b2n (tabGet {} t (32 * i + b)).pend) 0))

/-- Insert a held item in the order in which it became due. -/
def insertHeld (x : Nat × Comp) : List (Nat × Comp) → List (Nat × Comp)
  | [] => [x]
  | y :: r => if x.2.seq < y.2.seq then x :: y :: r else y :: insertHeld x r

/-- The held completions of a slice in that order (R275). -/
def heldItems (s : Slice) : List (Nat × Comp) :=
  (s.cqs.flatMap (fun c => c.2.held.map (fun x => (c.1, x)))).foldl (fun l x => insertHeld x l) []

/-- TOTAL_LEN (R292). -/
def imageLen (queues handles vectors held : Nat) : Nat :=
  136 + 64 * queues + 16 * handles + 16 * vectors + 8 * cdiv vectors 64 + 48 * held

/-- The image of slice n; seq: exports since the last start. -/
def imageWords (d : Dev) (n seq : Nat) : List Dword :=
  let s := d.slice n
  let ws := s.wqs.filter (fun q => q.2.st != .disabled)
  let cs := s.cqs.filter (fun q => q.2.st != .disabled)
  let hs := (d.eng n).handles.filter (fun h => h.2.st != .closed)
  let vc := Config.shareVectors d.S
  let held := heldItems s
  let total := imageLen (ws.length + cs.length) hs.length vc held.length
  let idx := fun k => tabGet (0 : Qword) s.idxBase k
  let body := fill16 [0x4C535844, w32 0xA001, w32 total, w32 d.S, w32 (ws.length + 0x10000 * cs.length),
      w32 (hs.length + 0x10000 * held.length), w32 vc, w32 seq] ++
    (List.range 6).flatMap (fun k => [w32 (idx k).toNat, w32 ((idx k).toNat / 2 ^ 32)]) ++
    [s.dbIgnored, s.pushFallback, 0, 0] ++
    ws.flatMap (fun q => wqRecord q.1 q.2) ++ cs.flatMap (fun q => cqRecord q.1 q.2) ++
    hs.flatMap (fun h => handleRecord h.1 h.2) ++
    (List.range vc).flatMap (fun v => vecRecord (tabGet {} s.vecs v)) ++ pendWords s.vecs (2 * cdiv vc 64) ++
    held.flatMap (fun x => [w32 x.1, 0, 0, 0] ++ x.2.dws)
  body ++ [crc32c (dwBytes body), 0]

/-! ### Reading (R293) -/

/-- An image split into its parts. -/
structure Image where
  head : List Dword
  regs : List Dword
  queues : List (List Dword)
  handles : List (List Dword)
  vecs : List (List Dword)
  pend : List Dword
  held : List (List Dword)

def Image.wqCount (w : List Dword) : Nat := bitsOf (dwAt w 4) 15 0
def Image.cqCount (w : List Dword) : Nat := bitsOf (dwAt w 4) 31 16
def Image.hCount (w : List Dword) : Nat := bitsOf (dwAt w 5) 15 0
def Image.heldCount (w : List Dword) : Nat := bitsOf (dwAt w 5) 31 16
def Image.vCount (w : List Dword) : Nat := bitsOf (dwAt w 6) 15 0
def Image.total (w : List Dword) : Nat := (dwAt w 2).toNat
def Image.formula (w : List Dword) : Nat :=
  imageLen (Image.wqCount w + Image.cqCount w) (Image.hCount w) (Image.vCount w) (Image.heldCount w)

/-- Split an image whose counts are its header's. -/
def parseImage (w : List Dword) : Image :=
  let q := Image.wqCount w + Image.cqCount w
  let p := 2 * cdiv (Image.vCount w) 64
  let r0 := w.drop 32
  let r1 := r0.drop (16 * q)
  let r2 := r1.drop (4 * Image.hCount w)
  let r3 := r2.drop (4 * Image.vCount w)
  { head := w.take 16, regs := (w.drop 16).take 16, queues := groupsOf 16 q r0, handles := groupsOf 4 (Image.hCount w) r1
    vecs := groupsOf 4 (Image.vCount w) r2, pend := r3.take p, held := groupsOf 12 (Image.heldCount w) (r3.drop p) }

def qrNum (q : List Dword) : Nat := bitsOf (dwAt q 0) 11 0
def qrCq (q : List Dword) : Bool := bitOf (dwAt q 0) 12
def qrState (q : List Dword) : Nat := bitsOf (dwAt q 0) 15 13
def qrSize (q : List Dword) : Nat := bitsOf (dwAt q 1) 4 0
def qrTarget (q : List Dword) : Nat := bitsOf (dwAt q 1) 27 16
def hrNum (h : List Dword) : Nat := bitsOf (dwAt h 0) 12 0

/-- Byte offsets of the parts. -/
def Image.offQ (k : Nat) : Nat := 128 + 64 * k
def Image.offH (m : Image) (k : Nat) : Nat := Image.offQ m.queues.length + 16 * k
def Image.offV (m : Image) (k : Nat) : Nat := m.offH m.handles.length + 16 * k
def Image.offP (m : Image) (k : Nat) : Nat := m.offV m.vecs.length + 4 * k
def Image.offE (m : Image) (k : Nat) : Nat := m.offP m.pend.length + 48 * k

/-- A check: the byte offset of its field, and whether the rule is broken there. -/
abbrev Chk := Nat × Bool
/-- The first broken field. -/
def firstBad (l : List Chk) : Option Nat := (l.find? (fun c => c.2)).map (fun c => c.1)

/-- Checks over the records of a part, each with its number. -/
def eachRec {α : Type} (l : List α) (f : Nat → α → List Chk) : List Chk :=
  (l.zipIdx).flatMap (fun x => f x.2 x.1)

/-- Words i to j-1 of a record at offset o must be 0. -/
def zeroFrom (o i j : Nat) (r : List Dword) : List Chk :=
  ((List.range j).drop i).map (fun k => (o + 4 * k, dwAt r k != 0))

/-- Rule 3: reserved fields and bytes. -/
def rule3 (m : Image) (w : List Dword) : List Chk :=
  [(6, outside (dwAt m.head 1) 0xFFFF), (14, outside (dwAt m.head 3) 0xFFFF), (26, outside (dwAt m.head 6) 0xFFFF)] ++
  zeroFrom 0 8 16 m.head ++ zeroFrom 64 14 16 m.regs ++
  eachRec m.queues (fun k r =>
    let o := Image.offQ k
    [(o + 2, outside (dwAt r 0) 0x3FFFF), (o + 5, bitOf (dwAt r 1) 15), (o + 7, outside (dwAt r 1) 0x0FFFFFFF),
     (o + 25, outside (dwAt r 6) 0xFFFF3FFF), (o + 34, outside (dwAt r 8) 0xFFFF)] ++ zeroFrom o 9 16 r) ++
  eachRec m.handles (fun k r =>
    [(m.offH k + 1, outside (dwAt r 0) 0xFFFF1FFF), (m.offH k + 2, outside (dwAt r 0) 0x7FFFF), (m.offH k + 4, dwAt r 1 != 0)]) ++
  eachRec m.vecs (fun k r => [(m.offV k + 12, outside (dwAt r 3) 1)]) ++
  eachRec m.pend (fun k v =>
    [(m.offP k, (List.range 32).any (fun b => m.vecs.length ≤ 32 * k + b && bitOf v b))]) ++
  eachRec m.held (fun k r => (m.offE k + 1, outside (dwAt r 0) 0xFFF) :: zeroFrom (m.offE k) 1 4 r) ++
  [(Image.total w - 4, dwAt w (Image.total w / 4 - 1) != 0)]

/-- Rule 4: numbers at or above the share of a slice at slice count S. -/
def rule4 (S : Nat) (m : Image) (w : List Dword) : List Chk :=
  (24, Config.shareVectors S ≤ Image.vCount w) ::
  (eachRec m.queues (fun k r =>
    [(Image.offQ k, Config.shareQueues S ≤ qrNum r),
     (Image.offQ k + 24, qrCq r && Config.shareVectors S ≤ bitsOf (dwAt r 6) 13 0)]) ++
   eachRec m.handles (fun k r => [(m.offH k, Config.shareHandles S ≤ hrNum r)]))

/-- Rule 5: work queues, completion queues and handles, each in ascending order. -/
def rule5 (m : Image) (w : List Dword) : List Chk :=
  let key := fun r => 4096 * b2n (qrCq r) + qrNum r
  eachRec m.queues (fun k r => [(Image.offQ k, (qrCq r != (Image.wqCount w ≤ k)) || (k != 0 && key r ≤ key (m.queues.getD (k - 1) [])))]) ++
  eachRec m.handles (fun k r => [(m.offH k, k != 0 && hrNum r ≤ hrNum (m.handles.getD (k - 1) []))])

def Image.hasCq (m : Image) (q : Nat) : Bool := m.queues.any (fun r => qrCq r && qrNum r == q)

/-- Rule 6: queue records. PUSH_EN belongs to work queues 0 to 7, ARMED to completion queues (R61). -/
def rule6 (m : Image) : List Chk :=
  let idx := fun k => (qwAt m.regs (2 * k)).toNat
  (List.range 6).map (fun k => (64 + 8 * k, idx k % 4096 != 0)) ++
  eachRec m.queues (fun k r =>
    let o := Image.offQ k
    let blk := qrNum r / 512
    [(o + 1, !([1, 2, 3].contains (qrState r)) || (qrCq r && qrState r == 2)),
     (o + 2, (bitOf (dwAt r 0) 16 && !(qrCq r)) || (bitOf (dwAt r 0) 17 && (qrCq r || 8 ≤ qrNum r))),
     (o + 4, qrSize r < 4 || 16 < qrSize r),
     (o + 6, !(qrCq r) && !(m.hasCq (qrTarget r))),
     (o + 8, (qwAt r 2).toNat = 0 || (qwAt r 2).toNat % 4096 != 0),
     (64 + 8 * blk, !(qrCq r) && idx blk == 0),
     (o + 20, qrCq r && 2 ^ qrSize r < (dwAt r 4 - dwAt r 5).toNat)])

/-- Rule 7: handle records. -/
def rule7 (m : Image) : List Chk :=
  eachRec m.handles (fun k r =>
    let st := bitsOf (dwAt r 0) 18 16
    [(m.offH k + 2, st = 0 || 3 < st), (m.offH k + 8, (qwAt r 2).toNat = 0 || (qwAt r 2).toNat % 64 != 0)])

/-- Codes that R123 gives to a KIND 0 and to a KIND 1 completion. -/
def kindCodes : Nat → List Nat
  | 0 => [0x01, 0x02, 0x03, 0x05, 0x06, 0x07, 0x08, 0x09, 0x10, 0x12, 0x14, 0x16, 0x17, 0x18]
  | 1 => [0x01, 0x02, 0x03, 0x04, 0x05, 0x06, 0x07, 0x08, 0x0A, 0x0B, 0x0C, 0x0D, 0x0E, 0x0F, 0x10, 0x12, 0x13, 0x19, 0x1A]
  | _ => []

/-- Rule 8: held items. -/
def rule8 (m : Image) : List Chk :=
  eachRec m.held (fun k r =>
    let o := m.offE k
    let kind := bitsOf (dwAt r 5) 17 16
    [(o, !(m.hasCq (bitsOf (dwAt r 0) 11 0))), (o + 22, 1 < kind),
     (o + 23, !((kindCodes kind).contains (bitsOf (dwAt r 5) 31 24))), (o + 47, bitOf (dwAt r 11) 31)])

/-- The first failing rule of R293 with the byte offset of its field; length is the LENGTH operand. -/
def imageBad (S length : Nat) (w : List Dword) : Option (Nat × Nat) :=
  let m := parseImage w
  let r1 := [(0, dwAt w 0 != 0x4C535844), (4, bitsOf (dwAt w 1) 7 0 != 1),
    (8, length < Image.total w || Image.total w != Image.formula w)]
  match firstBad r1 with
  | some o => some (1, o)
  | none =>
    let crcAt := Image.total w / 4 - 2
    let rules := [(2, [(4 * crcAt, crc32c (dwBytes (w.take crcAt)) != dwAt w crcAt)]), (3, rule3 m w), (4, rule4 S m w),
      (5, rule5 m w), (6, rule6 m), (7, rule7 m), (8, rule8 m)]
    (rules.filterMap (fun r => (firstBad r.2).map (fun o => (r.1, o)))).head?

/-! ### The slice that an image describes (R294) -/

def qstOf (v : Nat) : QSt := if v = 1 then .active else if v = 2 then .draining else .error

def wqOfRec (r : List Dword) : WQ :=
  let l : WqL := {
    enable := true, pushEn := bitOf (dwAt r 0) 17, weight := BitVec.ofNat 4 (bitsOf (dwAt r 1) 8 5)
    burst := BitVec.ofNat 6 (bitsOf (dwAt r 1) 14 9) }
  { base := qwAt r 2, sh := l, lc := l, sizeLog := qrSize r, target := BitVec.ofNat 12 (qrTarget r), st := .stopped
    prev := qstOf (qrState r), errCode := BitVec.ofNat 8 (bitsOf (dwAt r 8) 7 0), reason := BitVec.ofNat 8 (bitsOf (dwAt r 8) 15 8)
    errIndex := dwAt r 7, ci := dwAt r 4, f := dwAt r 4, s := dwAt r 4, lastPi := dwAt r 4, lim := dwAt r 4 }

def cqOfRec (m : Image) (r : List Dword) : CQ :=
  let l : CqL := {
    enable := true, vector := BitVec.ofNat 14 (bitsOf (dwAt r 6) 13 0), modCount := BitVec.ofNat 8 (bitsOf (dwAt r 6) 23 16)
    modTime := BitVec.ofNat 8 (bitsOf (dwAt r 6) 31 24) }
  { base := qwAt r 2, sh := l, lc := l, sizeLog := qrSize r, st := .stopped, prev := qstOf (qrState r)
    errCode := BitVec.ofNat 8 (bitsOf (dwAt r 8) 7 0), errIndex := dwAt r 7, pi := dwAt r 4, ci := dwAt r 5
    armed := bitOf (dwAt r 0) 16
    held := ((m.held.zipIdx).filter (fun e => bitsOf (dwAt e.1 0) 11 0 == qrNum r)).map (fun e =>
      { dws := e.1.drop 4, seq := e.2 }) }

/-- A vector; the image does not say for which queues its message pends, and every queue that names it is taken (DESIGN CHOICE,
log entry 68). -/
def vecOfRec (m : Image) (k : Nat) (r : List Dword) : Vec :=
  let qs := (m.queues.filter (fun r => qrCq r && bitsOf (dwAt r 6) 13 0 == k)).map qrNum
  { addr := qwAt r 0, data := dwAt r 2, mask := true, pend := bitOf (m.pend.getD (k / 32) 0) (k % 32)
    qs := if qs.isEmpty then [0] else qs }

/-- The slice's registers, queues and vectors; the binding is set beside it. -/
def sliceOfImage (m : Image) : Slice :=
  { imported := true
    idxBase := (List.range 6).map (fun k => (k, qwAt m.regs (2 * k)))
    dbIgnored := dwAt m.regs 12, pushFallback := dwAt m.regs 13
    wqs := (m.queues.filter (fun r => !(qrCq r))).map (fun r => (qrNum r, wqOfRec r))
    cqs := (m.queues.filter qrCq).map (fun r => (qrNum r, cqOfRec m r))
    vecs := (m.vecs.zipIdx).map (fun r => (r.2, vecOfRec m r.2 r.1)) }

/-- Every recorded handle, Detached, its endpoints Disabled. -/
def handlesOfImage (m : Image) : Tab Handle :=
  m.handles.map (fun r => (hrNum r, { st := .detached, ctxAddr := (qwAt r 2).toNat }))

end Sys2Proof.Machine
end

