-- ==== Sys2Proof/Machine/Slices.lean ====
section
/-! DEFINITION. Slice states and manager operations (R34, R45, R205, R206, R232, R252, R267 to R294): create, quiesce, fence, freeze,
re-home, thaw, export, import, reset, remove, and the assignment of ports. -/
namespace Sys2Proof.Machine

/-! ### Binding (R34, R232, R252, R289) -/

/-- Slices other than n that are not Free and live on half h. -/
def Dev.hosted (d : Dev) (n h : Nat) : Nat :=
  (d.sliceNums.filter (fun k => k != n && (d.slice k).st != .free && (d.slice k).half == h)).length

/-- Home half that Mordant takes for slice n (R232); 0xFF at S = 1. -/
def Dev.homeHalf (d : Dev) (n : Nat) : Nat :=
  let pin := d.cfg (0x4000 + n) 0x10
  if d.S = 1 then 0xFF else if pin = 1 || pin = 2 then pin - 1
  else
    let h := n / (d.S / 2) % 2
    if d.S / 2 ≤ d.hosted n h then 1 - h else h

/-- Largest charge to budget r in one microframe of the slice's plan (R139). -/
def Dev.peak (d : Dev) (n r : Nat) : Nat := maxOf ((List.range 256).map (fun m => chargesAt r m (d.slicePlan n)))

/-- The binding of slice n to group g would lower E of another slice below what its plan needs (R252). -/
def Dev.starves (d : Dev) (n g : Nat) : Bool :=
  let ks := (d.boundTo g).filter (fun k => k != n)
  ks.any (fun k => [1, 2].any (fun r =>
    let e := d.budgetAt g (ks.length + 1) r
    e < d.budgetOf k r && e * d.cfg 0x2240 1 < 100 * d.peak k r))

/-- R34 or R252 refuses the binding; fresh: the home half is chosen with it (SLICE_CREATE, SLICE_IMPORT). -/
def Dev.bindBad (d : Dev) (n g : Nat) (pasid : Dword) (fresh : Bool) : Bool :=
  let pin := d.cfg (0x4000 + n) 0x10
  3 < g || d.cfg (0x2010 + g) 1 = 0xFF || (d.twoPort g && d.hgSt g != .proven) ||
  (pasid != 0xFFFFFFFF && 0xFFFFF < pasid.toNat) ||
  d.sliceNums.any (fun k => k != n && (d.slice k).group == g && (d.slice k).pasid == pasid) ||
  (pasid == 0xFFFFFFFF && 1 < d.S) ||
  (fresh && 1 < d.S && (pin = 1 || pin = 2) && d.S / 2 ≤ d.hosted n (pin - 1)) ||
  d.starves n g

/-- A record on the path of group g (R140). -/
def Dev.onGroup (d : Dev) (n g p : Nat) (r : PlanRec) : PlanRec :=
  let hf := d.pageHalf n p
  { r with
    crossing := halfOfPort p != hf || !((d.members g).any (fun f => halfOfFunc f == hf))
    contingent := (d.members g).length == 2 }

/-- Checks 7 to 10 for one record among all records of the slice, with N slices bound to g (R289): check and shortfall. -/
def Dev.pathCheck (d : Dev) (g N : Nat) (rs : List PlanRec) (r : PlanRec) : Nat × Nat :=
  let ms := (List.range 256).filter r.opp
  let excess := fun k => maxOf (ms.map (fun m => chargesAt k m rs)) - d.budgetAt g N k * d.cfg 0x2240 1 / 100
  if excess 1 != 0 then (7, excess 1)
  else if excess 2 != 0 then (8, excess 2)
  else if excess 3 != 0 then (9, excess 3)
  else if r.crossing && !d.sinopia.up then (10, r.charge 4)
  else if r.charge 4 != 0 && excess 4 != 0 then (10, excess 4)
  else (0, 0)

/-- R289: the first endpoint that fails on the new path: handle, check, shortfall. -/
def Dev.rehomeBad (d : Dev) (n g : Nat) : Option (Nat × Nat × Nat) :=
  let rs := (d.portsOf n).flatMap (fun p => ((d.port p).plan).map (d.onGroup n g p))
  let N := ((d.boundTo g).filter (fun k => k != n)).length + 1
  (rs.map (fun r => (r.h, d.pathCheck g N rs r))).find? (fun x => x.2.1 != 0)

/-! ### Starting an operation (R269, R270, R413) -/

def opStart (n : Nat) (p : Path) (op : Nat) (tag : Dword) : Dev → Dev :=
  Dev.modSlice n (fun x => { x with op := some p, opCode := op, opTag := tag })

/-- An operation that began and ends in the same command. -/
def opNow (n code r0 r1 r2 : Nat) : Dev → Dev := opEnd n code 0 r0 r1 r2

/-- States that R269 permits for an operation. -/
def opPermitted (op : Nat) (x : Slice) : Bool :=
  if op = 0x41 then x.st == .active || x.st == .quiescing || x.st == .quiesced || x.st == .frozen
  else if op = 0x43 then x.st == .quiesced && x.bound
  else if op = 0x44 then x.st == .frozen || (x.st == .quiesced && !x.bound)
  else if op = 0x45 then (x.st == .quiesced && x.bound) || x.st == .frozen
  else if op = 0x46 then x.st == .frozen
  else true

/-- The first code of R270 before the binding, with its REASON; 0 for none. A quiesce that meets Quiescing is no refusal
(R269). -/
def opCode (op : Nat) (b : OpBlock) (d : Dev) : Nat × Nat :=
  let n := b.slice
  let x := d.slice n
  let make := op = 0x40 || op = 0x47
  if d.S ≤ n then (cNotPermitted, 6)
  else if (x.op.isSome || d.fenceOp n) && op != 0x42 && !(op = 0x41 && x.st == .quiescing) then (cBusy, 3)
  else if (x.st == .free) != make then (cNotPermitted, 11)
  else if (x.st == .quiescedFenced || x.st == .fencing) && op != 0x42 && op != 0x48 && op != 0x49 then (0x11, 0)
  else if (op = 0x48 || op = 0x49) && x.st != .quiesced && x.st != .frozen && x.st != .quiescedFenced then (cNotQuiesced, 0)
  else if !(opPermitted op x) then (cNotPermitted, 11)
  else if (op = 0x40 || op = 0x44) && d.bindBad n b.hostGroup b.pasid (op = 0x40) then (cNotPermitted, 11)
  else (0, 0)

/-- A refusal: the result object and LAST_CODE hold the code, nothing else changes (R270, R281, R414). -/
def opRefuse (p : Path) (op : Nat) (b : OpBlock) (code reason r1 r2 : Nat) (d : Dev) : Dev :=
  let n := if op = 0x4A then b.target else b.slice
  let d := if op = 0x4A || d.S ≤ n then d else d.modSlice n (fun x => { x with lastCode := BitVec.ofNat 8 code })
  opDone p op n b.tag code reason 0 r1 r2 d

/-! ### Create (R232, R268) -/

def createOp (p : Path) (b : OpBlock) (d : Dev) : Dev :=
  let n := b.slice
  let h := d.homeHalf n
  let x : Slice := { group := b.hostGroup, pasid := b.pasid, half := h, lastCode := (d.slice n).lastCode }
  let d := (d.modSlice n (fun _ => x)).modEng n (fun _ => {})
  opDone p 0x40 n b.tag cOk 0 (b2n (h == 1)) 0 0 (setSliceSt n .active d)

/-! ### Quiesce (R271 to R276) -/

/-- The links in use, by half (R290). -/
def Dev.pathCode (d : Dev) (n : Nat) : Nat :=
  let f := fun h => (d.pickLink n h).getD 0xFF
  if d.S = 1 then f 0 + 256 * f 1 else f (d.slice n).half

/-- Deferred operations: port operations and PD_REQUEST that have begun (R274). -/
def Slice.deferrable (x : Slice) : List (Nat × Dword) :=
  x.wqs.flatMap (fun w => (w.2.exec.filter (fun e => 0x10 ≤ weOp e.dws && weOp e.dws ≤ 0x14 && e.phase != 0)).map (fun e => (w.1, e.idx)))

/-- Steps 3 and 4: every Running endpoint stops (R273). -/
def stopAll (n : Nat) (d : Dev) : Dev :=
  ((d.liveEps n).filter (fun x => (d.ep n x.1 x.2).st == .running && !(d.ep n x.1 x.2).stopping)).foldl
    (fun d x => beginStop n x.1 x.2 d) d

def quiesceOp (p : Path) (b : OpBlock) (d : Dev) : Dev :=
  let n := b.slice
  let x := d.slice n
  if x.st != .active then opDone p 0x41 n b.tag cOk 0 0 0 0 d else
  let ds := x.deferrable
  let path := d.pathCode n + 1
  let d := (opStart n p 0x41 b.tag d).modSlice n (fun x => { x with deferOps := ds, deferred := ds.length, stall := 0, qPath := path })
  stopAll n (setSliceSt n .quiescing d)

/-- Work queue q has finished what it fetched, or is held back by a full completion queue (R272). -/
def Dev.wqQuiet (d : Dev) (n q : Nat) : Bool :=
  let w := d.wq n q
  w.rds.isEmpty && !w.piOut && !w.ciDirty && w.exec.all (fun e => (d.slice n).deferOps.contains (q, e.idx)) &&
    (w.held.isEmpty || d.wqCompHeld n q || (d.cq n w.target.toNat).full)

/-- Every step of the quiesce has ended (R271, R275). -/
def Dev.drained (d : Dev) (n : Nat) : Bool :=
  let e := d.eng n
  let x := d.slice n
  (d.liveEps n).all (fun y => let z := d.ep n y.1 y.2; z.st != .running && !z.stopping && !z.service) &&
  x.wqs.all (fun w => d.wqQuiet n w.1) &&
  e.reads.isEmpty && e.waitReads.isEmpty && e.unconf.isEmpty && e.commits.isEmpty && e.carves.isEmpty &&
  e.due.all (fun u => e.tagDone u.tag && (d.cq n u.cq).full) &&
  x.cqs.all (fun c => c.2.full || c.2.held.all (fun h => h.defer))

/-- Step 6: the queues enter Stopped (R63). -/
def stopQueues (n : Nat) : Dev → Dev :=
  Dev.modSlice n (fun x => { x with
    wqs := tabMap (fun _ w => if w.st = .disabled then w else { w with prev := w.st, st := .stopped }) x.wqs
    cqs := tabMap (fun _ c => if c.st = .disabled then c else { c with prev := c.st, st := .stopped }) x.cqs })

/-- Completions that wait behind one of their source on a full queue are held with it from step 6 on (R275). -/
def holdRest (n : Nat) (d : Dev) : Dev :=
  (d.eng n).due.foldl (fun d u => if u.mute then d else postNow n u.cq u.comp d) (d.modEng n (fun x => { x with due := [] }))

/-- The quiesce goes on: what still runs stops, what is due is written; Quiesced once every step has ended. -/
def quiesceEnd (n : Nat) (d : Dev) : Dev :=
  let st := (d.slice n).st
  if st != .quiescing && st != .quiesceStalled then d else
  let d := drainAll n (stopAll n d)
  let d := ((d.slice n).wqs.filter (fun w => w.2.ciDirty)).foldl (fun d w => writeCi n w.1 d) d
  if !(d.drained n) then d else
  opEnd n cOk 0 0 0 0 (setSliceSt n .quiesced ((stopQueues n (holdRest n d)).modSlice n (fun x => { x with stall := 0 })))
def execQuiesceDrainEnd (n : SliceId) (s : State) : Outc := run (quiesceEnd n) s

/-- STALL_CAUSE (R276): a port inside a transaction or an engine at work, no path, writes, reads (log entry 28). -/
def Dev.stallCause (d : Dev) (n : Nat) (engines : Bool) : Nat :=
  let e := d.eng n
  if (d.liveEps n).any (fun y => (d.ep n y.1 y.2).service || (d.ep n y.1 y.2).stopping) then 4
  else if d.noPath n 0 || d.noPath n 1 then 3
  else if e.unconf.length != 0 then 1
  else if e.reads.length != 0 then 2
  else if engines then 4 else 1

def quiesceTimeout (n : Nat) (engines : Bool) (d : Dev) : Dev :=
  if (d.slice n).st != .quiescing then d else
  let c := d.stallCause n engines
  let d := setSliceSt n .quiesceStalled (d.modSlice n (fun x => { x with stall := c }))
  raise { c := 96, inst := n, slice := n, code := c, half := b2n ((d.slice n).half == 1) } d
def execQuiesceTimeoutExpiry (n : SliceId) (enginesBusy : Bool) (s : State) : Outc := run (quiesceTimeout n enginesBusy) s

/-! ### Fence (R277 to R281) -/

/-- Every transfer of the slice is forgotten, and pages that a carve has taken so far are released. -/
def dropXfers (n : Nat) (d : Dev) : Dev :=
  let d := ((d.eng n).handles.flatMap (fun h => h.2.eps.flatMap (fun e => e.2.xfer.toList ++ e.2.parkedX ++ e.2.pre))).foldl
    (fun d x => freeUnits x d) d
  ((d.eng n).commits.map (fun c => (c.h, c.got)) ++ (d.eng n).carves.map (fun c => (c.h, c.got))).foldl
    (fun d c => if c.2.isEmpty then d else releasePages n (d.epHalf n c.1) c.2 d) d

/-- An endpoint enters Disabled and keeps its admission and pages (R277 step 4, R278). -/
def fenceEp (e : Ep) : Ep :=
  { e with
    st := .disabled, rings := [], xfer := none, parkedX := [], pre := [], olds := [], bus := {}, stopping := false, runLen := 0
    runIn := false, skipped := 0, reload := false, service := false }

/-- Steps 1 to 4 of a fence; the ports inside a transaction are waited for. -/
def fenceSlice (n : Nat) (d : Dev) : Dev :=
  let d := opEnd n 0x11 0 0 0 0 d
  let busy := (d.portsOf n).filter (fun p => (d.eng n).handles.any (fun h => h.2.port == p && h.2.eps.any (fun e => e.2.service)))
  let d := dropXfers n d
  let d := d.modEng n (fun x => { x with
    handles := tabMap (fun _ h => { h with eps := tabMap (fun _ e => fenceEp e) h.eps }) x.handles
    reserved := 0, unconf := [], reads := [], waitReads := [], due := [], evBits := 0, evPending := false, commits := [], carves := []
    cached := [] })
  let d := d.modSlice n (fun x => { x with
    wqs := [], cqs := [], vecs := tabMap (fun _ v => { v with pend := false, qs := [] }) x.vecs, wasFenced := true, deferOps := [], stall := 0 })
  let d := forEach (d.portsOf n) (fun p => Dev.modPort p (fun x => { x with
    bus := { x.bus with evPending := false, evBits := 0, evDetach := false, evPgOff := false }, pd := { x.pd with sliceLimit := 0 } })) d
  let d := forEach busy (fun p => Dev.modPort p (fun x => { x with fenceWait := true })) d
  setSliceSt n .fencing d

/-- A fence of some slices: those that can be fenced are, and the asker is answered when the last is done (R270, R280). -/
def fence (ns : List Nat) (who : Option FenceWho) (d : Dev) : Dev :=
  let act := fun st => st == SliceSt.active || st == .quiescing || st == .quiesceStalled || st == .quiesced || st == .frozen
  let go := ns.filter (fun n => act (d.slice n).st)
  let d := forEach go fenceSlice d
  let left := ns.filter (fun n => (d.slice n).st == .fencing)
  let d := match who with
    | none => d
    | some w => if left.isEmpty then fenceAnswer w d
        else { d with sys := { d.sys with fenceReqs := d.sys.fenceReqs ++ [{ who := w, left := left }] } }
  forEach go fenceCheck d

/-- Every slice that is not Free. -/
def Dev.notFree (d : Dev) : List Nat := d.sliceNums.filter (fun n => (d.slice n).st != .free)

def fenceOp (p : Path) (b : OpBlock) (d : Dev) : Dev :=
  let ns := if b.all then d.notFree else [b.slice]
  fence ns (some (.op p b.all b.slice b.tag)) (forEach ns (fun n => Dev.modSlice n (fun x => { x with lastCode := BitVec.ofNat 8 cOk })) d)

/-- The buses of a fenced port that does not reach a transaction boundary are reset (R277 step 3). -/
def fenceReset (p : Nat) (d : Dev) : Dev :=
  if !(d.port p).fenceWait then d else
  let b := (d.port p).bus
  let u := usb2Conn b.usb2
  let s := ssConn b.ss
  let d := d.modBus p (fun b => { b with
    usb2 := if u then .resetting else b.usb2, ownReset := u, recUsb2 := false, l1Exit := false
    ss := if s then .resetting else b.ss, recSs := false, rebus := false, ssWake := false })
  let left := leaveBits2 b.usb2 ||| (if s then b.leaveSs else 0)
  let d := if left = 0 then d else portEvent p { bits := left } d
  let d := doIf u (emit (.signal (toPort p) .usb2 .se0)) d
  fencePortDone p (doIf s (emit (.signal (toPort p) .ss .warmReset)) d)
def execFenceBusResetTimeout (p : PortId) (s : State) : Outc := run (fenceReset p) s

/-- A write of FENCE_REQ on the manager port (R22, R281). -/
def fenceReq (f : Nat) (v : Dword) (d : Dev) : Dev :=
  if f != d.cfg 0x2002 1 then d
  else if bitOf v 8 then fence d.notFree none d
  else
    let n := bitsOf v 7 0
    if n < d.S && (d.slice n).st != .free then fence [n] none d else d

/-! ### Freeze, re-home, thaw (R286 to R290) -/

/-- Write back what is cached, and CI of every work queue that is not Disabled (R286). -/
def freezeOp (p : Path) (b : OpBlock) (d : Dev) : Dev :=
  let n := b.slice
  let d := opStart n p 0x43 b.tag d
  let d := (d.eng n).cached.foldl (fun d c => if c.2 = 0 then writeHeader n c.1 d else writeCtx n c.1 c.2 d) d
  let d := ((d.slice n).wqs.filter (fun w => w.2.st != .disabled)).foldl (fun d w => writeCi n w.1 d) d
  freezeCheck n d

/-- Bind to the new group and PASID (R287, R288), or refuse under R289. A SLICE_EVT bit of the slice that is set on the old group's
functions stays set until it is written with 1, here as at SLICE_REMOVE (DESIGN CHOICE, log entry 68: R23 does not say). -/
def rehomeOp (p : Path) (b : OpBlock) (d : Dev) : Dev :=
  let n := b.slice
  match d.rehomeBad n b.hostGroup with
  | some (h, c, short) => opRefuse p 0x44 b 0x09 0 short (h % 256 + 256 * c) d
  | none =>
    let d := d.modSlice n (fun x => { x with
      group := b.hostGroup, pasid := b.pasid, vecs := tabMap (fun _ v => { v with mask := true }) x.vecs
      cqs := tabMap (fun _ c => { c with lastF := none, flush := 0 }) x.cqs })
    let d := setObj (0x4000 + n) 0x11 0xFF (d.modEng n (fun x => { x with lost := [] }))
    let d := forEach (d.portsOf n) (fun p d => d.modPort p (fun x => { x with plan := x.plan.map (d.onGroup n b.hostGroup p) })) d
    opDone p 0x44 n b.tag cOk 0 0 0 0 d

/-- Queues return from Stopped to the state they held (R63). -/
def startQueues (n : Nat) : Dev → Dev :=
  Dev.modSlice n (fun x => { x with
    wqs := tabMap (fun _ w => if w.st = .stopped then { w with st := w.prev, prev := .disabled } else w) x.wqs
    cqs := tabMap (fun _ c => if c.st = .stopped then { c with st := c.prev, prev := .disabled } else c) x.cqs })

/-- Some bus of the port is in a connected state (R185). -/
def PortBus.connected (b : PortBus) : Bool := usb2Conn b.usb2 || ssConn b.ss

/-- Port events of a slice that leaves Quiesced: ports gained (R206), and connected ports after a reset (R285). -/
def thawPorts (n : Nat) (d : Dev) : Dev :=
  let gained := (d.eng n).gained
  let fresh := (d.slice n).afterReset
  let d := (d.modEng n (fun x => { x with gained := [], portsChanged := false })).modSlice n (fun x => { x with afterReset := false })
  (d.portsOf n).foldl (fun d p =>
    let c := (d.port p).bus.connected
    if gained.contains p then portEvent p { bits := b2n c, cause := 9 } d
    else if fresh && c then portEvent p { bits := 1 } d
    else d) d

/-- The slice serves again (R272, R275, R285, R290): headers of an imported slice first, then what is held, then the slice event. -/
def thawOp (p : Path) (b : OpBlock) (d : Dev) : Dev :=
  let n := b.slice
  let x := d.slice n
  let d := setSliceSt n .active d
  let d := reissueHalf n 1 (reissueHalf n 0 d)
  let d := if x.imported then
      (d.modSlice n (fun x => { x with imported := false })) |> forEach ((d.eng n).handles.map (fun h => h.1)) (writeHeader n)
    else d
  let d := (startQueues n d).modSlice n (fun x => { x with deferOps := [], deferred := 0, qPath := 0 })
  let d := drainAll n (eventsLast n d)
  let moved := x.qPath != 0 && x.qPath != d.pathCode n + 1
  let d := sliceEvent n (8 + 4 * b2n moved + 2 * b2n (d.eng n).portsChanged) d
  let d := thawPorts n d
  let d := ((d.slice n).wqs.filter (fun w => w.2.st == .active)).foldl (fun d w => readPi n w.1 d) d
  let d := ((d.slice n).cqs).foldl (fun d c => spaceBack n c.1 d) d
  opDone p 0x45 n b.tag cOk 0 0 0 0 (releaseVectors n (((d.slice n).wqs).foldl (fun d w => settleWq n w.1 d) d))

/-! ### Export and import (R291 to R294) -/

/-- The member that carries the manager's image traffic: on the half, or the other one (R291, R293). -/
def Dev.imageLink (d : Dev) (g h : Nat) : Option Nat :=
  let ms := d.members g
  let up := fun f => (d.func f).linkUp && (d.func f).upState == 0
  (ms.filter (fun f => halfOfFunc f == h) ++ ms).find? up

def exportOp (p : Path) (b : OpBlock) (d : Dev) : Dev :=
  let n := b.slice
  let x := d.slice n
  if x.deferred != 0 || x.wqs.any (fun w => w.2.held.length != 0) then opRefuse p 0x46 b cBusy 3 0 0 d
  else if b.imageAddr.toNat % 8 != 0 then opRefuse p 0x46 b cNotPermitted 11 0 0 d
  else
    let w := imageWords d n d.start.exportSeq.toNat
    let total := 4 * w.length
    if b.length < total then opDone p 0x46 n b.tag cShort 0 total 0 0 (d.modSlice n (fun x => { x with lastCode := BitVec.ofNat 8 cShort }))
    else match d.imageLink x.group (if d.S = 1 then 0 else x.half) with
      | none => opRefuse p 0x46 b cDataBuffer 0 0 0 d
      | some f =>
        let bytes := dwBytes w
        let a := b.imageAddr.toNat
        let d := (cuts (d.wWrite f) a total).foldl (fun d c =>
          emit (.memWrite (toFunc f) b.imagePasid c.1 ((bytes.drop (c.1 - a)).take c.2) false) d) d
        opDone p 0x46 n b.tag cOk 0 total 0 0 { d with start := { d.start with exportSeq := d.start.exportSeq + 1 } }

/-- Import: the image is what the read returned, empty when the read failed. -/
def importOp (p : Path) (b : OpBlock) (image : List Dword) (d : Dev) : Dev :=
  let n := b.slice
  let h := d.homeHalf n
  if (d.imageLink b.hostGroup (if d.S = 1 then 0 else h)).isNone || image.isEmpty then opRefuse p 0x47 b cDataBuffer 0 0 0 d
  else match imageBad d.S b.length image with
  | some (rule, off) => opRefuse p 0x47 b cNotPermitted 11 off rule d
  | none =>
    if d.bindBad n b.hostGroup b.pasid true then opRefuse p 0x47 b cNotPermitted 11 0 0 d else
    let m := parseImage image
    let x := sliceOfImage m
    let d := d.modSlice n (fun y => { x with group := b.hostGroup, pasid := b.pasid, half := h, lastCode := y.lastCode })
    let d := d.modEng n (fun _ => { handles := handlesOfImage m, cseq := m.held.length })
    opDone p 0x47 n b.tag cOk 0 (b2n (h == 1)) 0 0 (setSliceSt n .frozen d)

/-! ### Reset and remove (R282 to R285) -/

/-- Everything of the slice is released and goes under Wash, without host traffic (R229, R282). -/
def clearSlice (n : Nat) (d : Dev) : Dev :=
  let d := dropXfers n d
  let hs := (d.eng n).handles
  let d := hs.foldl (fun d h => h.2.eps.foldl (fun d e =>
    releasePages n (d.pageHalf n h.2.port) (e.2.basePg ++ e.2.leadPg ++ e.2.addedPg) d) d) d
  -- the context cache and plan slots of the slice, at least one item on each half, whose end ends the operation (R229, R230)
  let d := (d.eng n).cached.foldl (fun d c => washSlot n (d.pageHalf n (d.handle n c.1).port) d) d
  let halves := if d.S = 1 then [0, 1] else [(d.slice n).half]
  let d := forEach halves (fun h => washSlot n h) d
  let d := forEach (d.portsOf n) (fun p => Dev.modPort p (fun x => { x with
    -- the admissions leave in one plan commit at the next boundary (R129)
    planDel := x.plan.map (fun r => (r.h, r.ep)), pd := { x.pd with sliceLimit := 0 }
    -- deferred operations run on, for no entry
    seq := { x.seq with req := x.seq.req.map (fun r => { r with slice := 0xFF }) }
    bus := { x.bus with op := x.bus.op.map (fun o => { o with slice := 0xFF }), resetRequired := true, evPending := false, evBits := 0, evDetach := false, evPgOff := false } })) d
  let d := d.modEng n (fun x => { portsChanged := x.portsChanged, gained := x.gained })
  d.modSlice n (fun x => {
    st := x.st, group := x.group, pasid := x.pasid, half := x.half, op := x.op, opCode := x.opCode, opTag := x.opTag
    lastCode := x.lastCode, wasFenced := x.wasFenced, afterReset := true, qPath := x.qPath })

def resetOp (p : Path) (b : OpBlock) (d : Dev) : Dev :=
  clearSlice b.slice (setSliceSt b.slice .resetting (opStart b.slice p 0x48 b.tag d))
def removeOp (p : Path) (b : OpBlock) (d : Dev) : Dev :=
  clearSlice b.slice (setSliceSt b.slice .removing (opStart b.slice p 0x49 b.tag d))

/-- The last Wash of a slice ended: its reset or remove is complete (R268, R282, R283). -/
def sliceWashed (n : Nat) (d : Dev) : Dev :=
  let x := d.slice n
  if x.st == .resetting then
    let d := if x.wasFenced then
        d.modSlice n (fun x => { x with group := 0xFF, pasid := 0xFFFFFFFF, wasFenced := false })
      else d
    opEnd n cOk 0 0 0 0 (setSliceSt n .quiesced d)
  else if x.st == .removing then
    let d := forEach (d.portsOf n) (fun p => Dev.modPort p (fun x => { x with owner := 0xFF })) d
    let d := setObj (0x4000 + n) 0x10 0 (setObj (0x4000 + n) 0x11 0xFF d)
    let d := d.modSlice n (fun x => { x with group := 0xFF, pasid := 0xFFFFFFFF, half := 0xFF })
    let d := opEnd n cOk 0 0 0 0 (setSliceSt n .free d)
    (d.modSlice n (fun x => { lastCode := x.lastCode })).modEng n (fun _ => {})
  else d

/-- The oldest Wash of a half ends (R230). -/
def washEnd (h : Nat) (d : Dev) : Dev :=
  match washDone h d with
  | (none, d) => d
  | (some n, d) => if washClear n d then sliceWashed n d else d
def execWashEnd (h : HalfId) (s : State) : Outc := run (washEnd h) s

/-! ### Ports (R45, R46, R205) -/

def assignOp (p : Path) (b : OpBlock) (d : Dev) : Dev :=
  let q := b.port
  let t := b.target
  let busy := fun k => k < d.S && (d.slice k).bound && (d.slice k).st != .quiesced && (d.slice k).st != .quiescedFenced
  let old := d.owner q
  if 192 ≤ q then opRefuse p 0x4A b cNotPermitted 6 0 0 d
  else if busy old || busy t then opRefuse p 0x4A b cNotQuiesced 0 0 0 d
  else if t != 0xFF && (d.S ≤ t || (d.slice t).st == .free) then opRefuse p 0x4A b cNotPermitted 11 0 0 d
  else
    -- the plan of the port leaves with the owner it was made for (R205)
    let d := if old < d.S then commitGone old q (forEach (d.portHandles old q none) (fun h => detachHandle old h cDetached true) d) else d
    let d := d.modPort q (fun x => { x with
      owner := t, pd := { x.pd with sliceLimit := 0 }
      bus := { x.bus with resetRequired := true, evPending := false, evBits := 0, evDetach := false, evPgOff := false } })
    let drop := fun (x : SliceEng) => { x with portsChanged := true, gained := x.gained.filter (fun k => k != q) }
    let d := if old < d.S && old != t then d.modEng old drop else d
    let d := if t < d.S && old != t then d.modEng t (fun x => { drop x with gained := (drop x).gained ++ [q] }) else d
    let cross := t < d.S && 1 < d.S && halfOfPort q != (d.slice t).half
    opDone p 0x4A t b.tag cOk 0 (b2n cross) 0 0 (openBuses q d)

/-! ### All operations -/

/-- A block that is no operation: only the result object changes (R413). -/
def blockRefuse (p : Path) (op : Nat) (b : OpBlock) (reason : Nat) (d : Dev) : Dev :=
  refuse p cNotPermitted reason { d with sys := { d.sys with opResult := opWords cNotPermitted op (if op = 0x4A then b.target else b.slice) b.tag 0 0 0 } }

/-- A manager operation that arrived by path p; image: what SLICE_IMPORT reads (R269, R270, R413, R416). -/
def managerOp (p : Path) (op : Nat) (b : OpBlock) (image : List Dword) (d : Dev) : Dev :=
  if !(d.isOwner p) && op != 0x42 then refuse p cNotPermitted 7 d
  else if op < 0x40 || 0x4A < op then blockRefuse p op b 6 d
  else if blockUnused op b then blockRefuse p op b 12 d
  else if op = 0x4A then assignOp p b d
  else if op = 0x42 && b.all then fenceOp p b d
  else
    let c := opCode op b d
    if c.1 != 0 then opRefuse p op b c.1 c.2 0 0 d
    else if op = 0x40 then createOp p b d
    else if op = 0x41 then quiesceOp p b d
    else if op = 0x42 then fenceOp p b d
    else if op = 0x43 then freezeOp p b d
    else if op = 0x44 then rehomeOp p b d
    else if op = 0x45 then thawOp p b d
    else if op = 0x46 then exportOp p b d
    else if op = 0x47 then importOp p b image d
    else if op = 0x48 then resetOp p b d
    else removeOp p b d

end Sys2Proof.Machine
end

