-- ==== Sys2Proof/Machine/Palette.lean ====
section
/-! DEFINITION. Palette (R250 to R266): the counters of the slices and of the device reserve, the period, arbitration, lend mode
and QUERY_BUDGET. -/
namespace Sys2Proof.Machine

/-! ### Counters and the period (R251, R252, R255, R258) -/

/-- Budget of one counter of slice n: at S = 1 half of the share on each half, and E / m at each member. -/
def Dev.palBudget (d : Dev) (n r h : Nat) : Nat :=
  if d.S != 1 then d.budgetOf n r
  else if r = 1 || r = 2 then
    let ms := d.members (d.slice n).group
    d.budgetOf n r / max 1 ms.length * (ms.filter (fun f => halfOfFunc f == h)).length
  else d.budgetOf n r / 2

def debtOf (v : Int) : Nat := (-v).toNat

/-- One counter at the boundary. -/
def Pal.renew (p : Pal) (budget : Nat) : Pal :=
  let debt := debtOf p.counter + debtOf p.far
  { counter := (budget : Int) - debt, far := 0, debtIn := debt, consumed := 0, consumedLast := p.consumed
    exhausted := if p.reached then p.exhausted + 1 else p.exhausted, reached := (budget : Int) ≤ debt
    lent := 0, lentLast := p.lent }

/-- Resource codes and the halves that hold a counter of each. -/
def Dev.palCounters (d : Dev) : List (Nat × Nat) :=
  ((List.range 8).drop 1).flatMap (fun r => if d.S = 1 then [(r, 0), (r, 1)] else [(r, 0)])

/-- The boundary for slice n. -/
def renewSlice (n : Nat) (d : Dev) : Dev :=
  d.palCounters.foldl (fun d c => d.modPal n (d.palKey c.1 c.2) (fun p => p.renew (d.palBudget n c.1 c.2))) d

/-- 4 % of a capacity: the device's counters of a half, by key: a resource, 16 + f and 32 + f for the links (R251). -/
def reserveBudget (key : Nat) : Nat :=
  if 16 ≤ key then 295000
  else match key with
    | 3 => 1280000 | 4 => 320000 | 5 => 96000 | 6 => 1500 | 7 => 40000 | _ => 0

/-- The boundary for the reserve of a half; a period in which some counter reached 0 counts once (R266). -/
def renewReserve (d : Dev) : Dev :=
  let low := [0, 1].any (fun h => (d.half h).reserve.any (fun v => v.2 ≤ 0))
  let d := { d with sinopia := { d.sinopia with reserveExhausted := d.sinopia.reserveExhausted + (if low then 1 else 0) } }
  forEach [0, 1] (fun h => Dev.modHalf h (fun x => { x with
    reserve := tabMap (fun k v => (reserveBudget k : Int) - debtOf v) x.reserve })) d

/-- Palette at a microframe boundary (R255). -/
def palPeriod (d : Dev) : Dev := renewReserve (forEach d.notFree renewSlice d)

/-! ### Charging (R256, R258) -/

/-- Charge a counter, or the far credit. -/
def Pal.charge (p : Pal) (far : Bool) (amt : Nat) : Pal :=
  if far then { p with far := p.far - amt, consumed := p.consumed + amt }
  else { p with counter := p.counter - amt, consumed := p.consumed + amt, reached := p.reached || p.counter ≤ amt }

/-- The home half grants credit to a far arbiter (R258). -/
def Pal.credit (p : Pal) : Pal :=
  if p.counter ≤ 0 then p else
  let g : Int := min 4096 p.counter
  { p with counter := p.counter - g, far := p.far + g, reached := p.reached || p.counter ≤ g }

/-! ### Arbiters (R262 to R264) -/

/-- Half of an arbiter, the resources it consults with the share of a charge that each takes, its key of the device's counters,
and its number among the arbiters of its half. -/
structure ArbInfo where
  half : Nat
  uses : List (Nat × (Nat → Nat))
  key : Nat
  num : Nat

def arbInfo : Arbiter → ArbInfo
  | .engine h => ⟨h.val, [(6, id)], 6, 0⟩
  | .dma h => ⟨h.val, [(3, id), (5, fun c => cdiv c 32)], 3, 1⟩
  | .ppeCanvas p => ⟨(portHalf p).val, [(5, id)], 5, 8 + p.val⟩
  | .easel h => ⟨h.val, [(7, fun _ => 0)], 7, 2⟩
  | .upWrite f => ⟨(funcHalf f).val, [(1, id)], 16 + f.val, 3 + f.val % 2⟩
  | .upRead f => ⟨(funcHalf f).val, [(2, id)], 32 + f.val, 5 + f.val % 2⟩
  | .sinopia h => ⟨h.val, [(4, id)], 4, 7⟩

/-- An arbiter charges the far credit: the link of the far member and the far half's Sinopia sender, at S > 1 (R258). -/
def Dev.farArb (d : Dev) (a : Arbiter) (n : Nat) : Bool :=
  d.S != 1 && (arbInfo a).half != (d.slice n).half &&
    (match a with | .upWrite _ => true | .upRead _ => true | .sinopia _ => true | _ => false)

/-- Every counter that a request of slice n charges is above 0 (R256). -/
def Dev.arbOk (d : Dev) (a : Arbiter) (n : Nat) : Bool :=
  let i := arbInfo a
  i.uses.all (fun u =>
    let p := d.pal n (d.palKey u.1 i.half)
    0 < (if d.farArb a n then p.far else p.counter))

/-- The device reserve's counter at an arbiter. -/
def Dev.reserveOf (d : Dev) (i : ArbInfo) : Int := tabGet (reserveBudget i.key : Int) (d.half i.half).reserve i.key

/-- Participants in round robin order after the last granted: slices by number, then the device as 192. -/
def arbOrder (last : Nat) (ps : List Nat) : List Nat := ps.filter (fun p => last < p) ++ ps.filter (fun p => p ≤ last)

def whoOf (r : ArbReq) : Nat := r.who.elim 192 (fun n => n.val)

/-- Numbers that occur, ascending. -/
def participants (rs : List ArbReq) : List Nat := (List.range 193).filter (fun k => rs.any (fun r => whoOf r == k))

/-- The request of a participant that goes first: periodic, then in order (R262). -/
def firstReq (rs : List ArbReq) (k : Nat) : Option ArbReq :=
  let mine := rs.filter (fun r => whoOf r == k)
  match mine.find? (fun r => r.periodic) with
  | some r => some r
  | none => mine.head?

/-- Requests that stand before the others on a link that carries a two-port group alone: the non-periodic ones of its slices come
after the periodic ones; the device takes its turns as before (R253, R263). -/
def Dev.arbReqs (d : Dev) (a : Arbiter) (rs : List ArbReq) : List ArbReq :=
  let alone : Bool := match a with
    | .upWrite f => rs.any (fun r => r.periodic && r.who.any (fun n =>
        d.degraded n.val && (d.members (d.slice n.val).group).contains f.val && d.arbOk a n.val))
    | .upRead f => rs.any (fun r => r.periodic && r.who.any (fun n =>
        d.degraded n.val && (d.members (d.slice n.val).group).contains f.val && d.arbOk a n.val))
    | _ => false
  if alone then rs.filter (fun r => r.periodic || r.who.isNone) else rs

/-- Grant a request: charge it and move the round robin on. -/
def grant (a : Arbiter) (r : ArbReq) (d : Dev) : Dev :=
  let i := arbInfo a
  let d := d.modHalf i.half (fun x => { x with lastGrant := tabPut x.lastGrant i.num (whoOf r) })
  match r.who with
  | none => d.modHalf i.half (fun x => { x with
      reserve := tabPut x.reserve i.key (tabGet (reserveBudget i.key : Int) x.reserve i.key - r.charge) })
  | some n => i.uses.foldl (fun d u => d.modPal n.val (d.palKey u.1 i.half) (fun p => p.charge (d.farArb a n.val) (u.2 r.charge))) d

/-- Lend a grant to a slice whose counter is at or below 0 (R264). -/
def lend (a : Arbiter) (r : ArbReq) (d : Dev) : Dev :=
  let i := arbInfo a
  match r.who with
  | none => d
  | some n =>
    let d := d.modHalf i.half (fun x => { x with lastGrant := tabPut x.lastGrant i.num n.val })
    i.uses.foldl (fun d u => d.modPal n.val (d.palKey u.1 i.half) (fun p => { p with lent := p.lent + u.2 r.charge })) d

/-- A far arbiter whose credit is below 1,024 bytes asks the home half of each slice that has a request for more (R258). -/
def askCredit (a : Arbiter) (rs : List ArbReq) (d : Dev) : Dev :=
  let i := arbInfo a
  (participants rs).foldl (fun d n =>
    i.uses.foldl (fun d u => doIf (n < d.S && d.farArb a n && (d.pal n u.1).far < 1024 && d.sinopia.up)
      (emit (.sinopiaCtrl (toHalf i.half) (.creditRequest (toSlice n) u.1))) d) d) d

/-- One turn of an arbiter (R263, R264). -/
def arbTurn (a : Arbiter) (rs0 : List ArbReq) (d0 : Dev) : Dev :=
  let i := arbInfo a
  let d := askCredit a rs0 d0
  let pick := fun (rs : List ArbReq) =>
    (arbOrder (tabGet 192 (d.half i.half).lastGrant i.num) (participants rs)).find? (fun k =>
      if k = 192 then decide (0 < d.reserveOf i) else k < d.S && d.arbOk a k)
  let take := fun (rs : List ArbReq) => (pick rs).bind (firstReq rs)
  match take (d.arbReqs a rs0) with
  | some r => grant a r d
  | none =>
    if d.cfg 0x2003 1 = 0 then d else
    match ((arbOrder (tabGet 192 (d.half i.half).lastGrant i.num) (participants rs0)).find? (fun k => k < d.S)).bind (firstReq rs0) with
    | some r => lend a r d
    | none => d
def execArbiterTurn (a : Arbiter) (reqs : List ArbReq) (s : State) : Outc := run (arbTurn a reqs) s

/-! ### QUERY_BUDGET (R265) -/

def int32 (v : Int) : Dword := BitVec.ofInt 32 v

/-- One record of the result: the sum of the counters of a resource. -/
def budgetRecord (d : Dev) (n r : Nat) : List Dword :=
  let ps := if d.S = 1 then [d.pal n r, d.pal n (r + 16)] else [d.pal n r]
  let sum := fun (f : Pal → Nat) => w32 (sumOf (ps.map f))
  [w32 (r + 256 * Config.budgetUnit r), w32 (d.budgetOf n r), int32 ((ps.map (fun p => p.counter + p.far)).foldl (· + ·) 0),
   sum (fun p => p.consumedLast), sum (fun p => p.debtIn), w32 (if 5 ≤ r then 0 else d.peak n r),
   (ps.map (fun p => p.exhausted)).foldl (· + ·) 0, sum (fun p => p.lentLast)]

/-- The 256 bytes of QUERY_BUDGET and of BUDGET_STATE. -/
def budgetBytes (d : Dev) (n : Nat) : List Byte :=
  let hdr := [w32 (1 + 256 * 7 + 0x10000 * 32), w32 (d.half (d.dataHalf n 0)).mf.toNat,
    w32 (d.cfg 0x2240 1 + 256 * d.cfg 0x2003 1 + 512 * b2n (d.degraded n)), 0, 0, 0, 0, 0]
  dwBytes (hdr ++ ((List.range 8).drop 1).flatMap (budgetRecord d n))

def execQueryBudget (n : SliceId) (wq : Nat) (i : Dword) (s : State) : Outc :=
  run (onEntry 0x1D n wq i (fun e d => resultWe n wq i e (budgetBytes d n) d)) s

end Sys2Proof.Machine
end

