-- ==== Sys2Proof/Machine/Links.lean ====
section
/-! DEFINITION. Upstream functions, host groups and the Sinopia link (R20 to R28, R40, R41, R182, R226, R231, R241 to R249, R445). -/
namespace Sys2Proof.Machine

/-! ### Paths -/

/-- The links that a slice's traffic takes, for each half that serves it (R234). -/
def Dev.picks (d : Dev) (n : Nat) : List (Option Nat) :=
  if d.S = 1 then [d.pickLink n 0, d.pickLink n 1] else [d.pickLink n (d.slice n).half]

/-- Slices that are bound. -/
def Dev.boundSlices (d : Dev) : List Nat := d.sliceNums.filter (fun n => (d.slice n).bound)

/-- The instance that holds the mirror of slice n's decisions takes them over (R231). -/
def mirrored (n : Nat) (d : Dev) : Dev :=
  { d with sinopia := { d.sinopia with mirror := tabPut d.sinopia.mirror n (d.pathCode n) } }

/-- A decision for slice n has changed: a CTRL message tells the other instance while Sinopia is up (R231). -/
def tellMirror (n : Nat) (d : Dev) : Dev :=
  if !d.sinopia.up then d else
  emit (.sinopiaCtrl (toHalf (d.dataHalf n 0)) (.mirror (toSlice n))) (mirrored n d)

/-- A change that can give slices a path: each slice reissues and goes on, and one whose path changed has PATH_CHANGED (R246,
R247). -/
def repath (g : Dev → Dev) (d : Dev) : Dev :=
  let d2 := g d
  d2.boundSlices.foldl (fun e n =>
    let changed := (d.picks n != d2.picks n) && (d2.picks n).any (fun p => p.isSome)
    pathBack n (doIf changed (pathChanged n) (doIf (d.picks n != d2.picks n) (tellMirror n) e))) d2

/-! ### Handshake (R26 to R28, R249) -/

/-- HG_STATE becomes Proven: every member carries traffic again (R27). -/
def prove (g : Nat) (d : Dev) : Dev := repath (fun d => (setHg g .proven 0 d).modGroup g (fun x => { x with lost := [] })) d

/-- The upper word of HG_RETURN on function f (R26); lo is what the lower word holds. -/
def returnNonce (f : Nat) (lo upper : Dword) (d : Dev) : Dev :=
  match d.groupOf f with
  | none => d
  | some g =>
    if d.hgSt g != .pending then d
    else if f = (d.group g).startPort.toNat then setHg g .failed 3 d
    else if (d.group g).nonce = some (upper ++ lo) then prove g d
    else setHg g .failed 2 d

/-- A return on an H1 member reaches the handshake logic on H0 across Sinopia, and is lost while it is down (R28, R249). -/
def hgReturn (f : Nat) (upper : Dword) (d : Dev) : Dev :=
  if halfOfFunc f = 1 && !d.sinopia.up then d else returnNonce f (d.func f).retLo upper d
def execHgReturn (f : FuncId) (upper : Dword) (s : State) : Outc := run (hgReturn f upper) s

def execHsTimeoutExpiry (g : HgId) (s : State) : Outc :=
  run (fun d => if d.hgSt g = .pending then setHg g .failed 1 d else d) s

/-- HG_START commits on member f of a two-port group (R26, R28). -/
def startHandshake (f : Nat) (d : Dev) : Dev :=
  match d.groupOf f with
  | none => d
  | some g =>
    if !(d.twoPort g) then d
    else if !d.sinopia.up then setHg g .failed 4 d
    else
      let v := Config.nonce d.freeCtr
      let d := { d with freeCtr := d.freeCtr + 1 }
      let d := setHg g .pending 0 (d.modGroup g (fun x => { x with nonce := some v, startPort := BitVec.ofNat 2 f }))
      let d := d.modGroup g (fun x => { x with nonce := some v })
      emit (.memWrite (toFunc f) 0xFFFFFFFF (d.func f).hgBuf.toNat (leBytes 8 v.toNat) false) d

/-- HG_CANCEL commits on a member (R26). -/
def cancelHandshake (f : Nat) (d : Dev) : Dev :=
  match d.groupOf f with
  | none => d
  | some g => if d.hgSt g = .pending then setHg g .unproven 0 d else d

/-- The commit of HG_CANCEL and HG_START: cancels act first, and of two starts in one group the H0 member's (R28). -/
def commitHandshakes (d : Dev) : Dev :=
  let fs := [0, 1, 2, 3]
  let cs := fs.filter (fun f => (d.func f).cancel)
  let ss := fs.filter (fun f => (d.func f).start && !((d.peer f).any (fun m => m < f && (d.func m).start)))
  let d := forEach fs (fun f => Dev.modFunc f (fun x => { x with start := false, cancel := false })) d
  forEach ss startHandshake (forEach cs cancelHandshake d)

/-- A reset or link down on a member: a Pending handshake fails, a proof lapses (R26), and the member carries no traffic until the
group is Proven (R27, R249). -/
def lapse (f : Nat) (d : Dev) : Dev :=
  match d.groupOf f with
  | none => d
  | some g =>
    let lost := d.modGroup g (fun x => { x with lost := if x.lost.contains f then x.lost else x.lost ++ [f] })
    match d.hgSt g with
    | .single => d
    | .pending => setHg g .failed 5 lost
    | .proven => setHg g .unproven 0 lost
    | .unproven | .failed => lost

/-! ### Functions (R20 to R23, R40, R41, R445) -/

/-- Writing 1 clears the bits of EVT_CAUSE and SLICE_EVT (R22). -/
def execEvtCauseClear (f : FuncId) (causes : Dword) (slices : BitVec 192) (s : State) : Outc :=
  run (Dev.modFunc f (fun x => { x with
    restarted := x.restarted && !(bitOf causes 0), groupState := x.groupState && !(bitOf causes 1)
    sliceEvt := x.sliceEvt &&& ~~~slices })) s

/-- Clearing the mask bit of a slice's vector (R41). -/
def unmaskVec (f n v : Nat) (d : Dev) : Dev :=
  if !(d.shows f n) || Config.shareVectors d.S ≤ v then d else
  releaseVectors n (d.modSlice n (fun x => { x with vecs := tabPut x.vecs v { tabGet {} x.vecs v with mask := false } }))
def execVectorUnmask (f : FuncId) (n : SliceId) (vec : Nat) (s : State) : Outc := run (unmaskVec f n vec) s

/-- Pending messages of a function's own table that can now be sent. -/
def releaseOwn (f : Nat) (d : Dev) : Dev :=
  (d.func f).vecs.foldl (fun d v =>
    if v.2.pend && !v.2.mask && (d.func f).msixEn && !(d.func f).msixMask then
      fnMessage f v.1 (d.modFunc f (fun x => { x with vecs := tabPut x.vecs v.1 { v.2 with pend := false } }))
    else d) d

/-- MSI-X Enable and Function Mask of a function change (R41). -/
def setMsix (f : Nat) (en mask : Bool) (d : Dev) : Dev :=
  let d := releaseOwn f (d.modFunc f (fun x => { x with msixEn := en, msixMask := mask }))
  forEach (d.boundSlices.filter (fun n => (d.members (d.slice n).group).contains f)) releaseVectors d
def execMsixEnableChange (f : FuncId) (enable mask : Bool) (s : State) : Outc := run (setMsix f enable mask) s

/-- Everything that a lost link does: the handshake, and the slices of its group (R26, R27, R246, R481). -/
def loseFunc (f : Nat) (d : Dev) : Dev :=
  let old := d
  let d := lapse f (d.modFunc f (fun x => { x with linkUp := false }))
  forEach (d.boundSlices.filter (fun n => (d.members (d.slice n).group).contains f))
    (fun n d => loseFor n (fun w => w.f == f) (fun r => r.f == f) (old.picks n != d.picks n) d) d

def linkDown (f : Nat) (d : Dev) : Dev :=
  if !(d.func f).linkUp then d else raise { c := 67, inst := f, half := halfOfFunc f } (loseFunc f d)
def execUpstreamLinkDown (f : FuncId) (s : State) : Outc := run (linkDown f) s

/-- A link comes up, where its port is powered; in Safe hold none is (R246, R247, R432, R449). -/
def linkUp (f : Nat) (d : Dev) : Dev :=
  if (d.func f).linkUp || (d.func f).upState != 0 || d.start.st = 2 then d else
  repath (fun d =>
    let d := d.modFunc f (fun x => { x with linkUp := true, perstHigh := true })
    forEach d.boundSlices (fun n => Dev.modEng n (fun x => { x with lost := x.lost.filter (fun k => k != f) })) d) d
def execUpstreamLinkUp (f : FuncId) (s : State) : Outc := run (linkUp f) s

/-- A hot or fundamental reset resets the port's link and function registers; it loses the link (R26, R445, R481). -/
def perst (f : Nat) (fundamental : Bool) (d : Dev) : Dev :=
  let x := d.func f
  let d := d.modFunc f (fun _ => { linkUp := x.linkUp, perstHigh := !fundamental, upReq := x.upReq, upState := x.upState, upPath := x.upPath })
  if x.linkUp then raise { c := 67, inst := f, half := halfOfFunc f } (loseFunc f d) else lapse f d
def execUpstreamPerst (f : FuncId) (fundamental : Bool) (s : State) : Outc := run (perst f fundamental) s

/-- An access that R21 turns away: logged; a read returns 0. A write to either half of EP_DOORBELL or CQ_DOORBELL counts in
DB_IGNORED (R54). -/
def badAccess (f bar off size : Nat) (write : Bool) (d : Dev) : Dev :=
  let d := raise { c := 16, inst := f, half := halfOfFunc f } d
  let n := off / 4096
  let d := if write && bar = 2 && size = 4 && d.shows f n && 8 ≤ off % 4096 && off % 4096 < 0x18 then dbIgnored n d else d
  if write then d else emit (.regRead (toFunc f) 0) d
def execBadRegisterAccess (f : FuncId) (bar off size : Nat) (write : Bool) (s : State) : Outc := run (badAccess f bar off size write) s

/-! ### Sinopia (R241 to R249) -/

/-- The link is lost (R245): crossing writes and reads are in doubt, and the reissue waits SINOPIA_HOLD (R246). -/
def sinopiaLost (d : Dev) : Dev :=
  if !d.sinopia.up then d else
  let old := d
  let d := raise { c := 65, inst := 0 } { d with
    sinopia := { d.sinopia with up := false, training := false, downCount := d.sinopia.downCount + 1, holdRunning := true } }
  forEach d.boundSlices (fun n d => loseFor n (fun w => w.f < 4 && halfOfFunc w.f != w.half)
    (fun r => r.f < 4 && halfOfFunc r.f != r.half) (old.picks n != d.picks n) d) d
def execSinopiaDown (_w : SinopiaLoss) (s : State) : Outc := run sinopiaLost s

/-- A retraining attempt begins (R245). -/
def retrain (d : Dev) : Dev :=
  if d.sinopia.up then d else
  emit (.sinopiaTrain 1) (emit (.sinopiaTrain 0) { d with sinopia := { d.sinopia with training := true } })
def execSinopiaRetrainAttempt (s : State) : Outc := run retrain s

/-- The attempt succeeds: SYNC, then held traffic and events (R244 to R248), and the mirrors are rebuilt (R231). -/
def sinopiaUp (d : Dev) : Dev :=
  if !d.sinopia.training then d else
  let d := emit (.sinopiaSync (toHalf (b2n (d.half 0).takeFromSync)) (d.half (b2n (d.half 0).takeFromSync)).mf) d
  let d := repath (fun d => raise { c := 66, inst := 0 } { d with sinopia := { d.sinopia with up := true, training := false } }) d
  forEach d.boundSlices tellMirror d
def execSinopiaLinkUp (s : State) : Outc := run sinopiaUp s

/-- SINOPIA_HOLD has elapsed since the loss (R246). -/
def execSinopiaHoldExpiry (s : State) : Outc :=
  run (fun d => if !d.sinopia.holdRunning then d else
    let d := { d with sinopia := { d.sinopia with holdRunning := false } }
    forEach d.boundSlices pathBack d) s

/-- A SYNC message (R182, R244): H1 records its offset; a half that restarts takes the counter it carries (R388). -/
def sync (ns : BitVec 16) (d : Dev) : Dev :=
  if !d.sinopia.up then d else
  let d := { d with sinopia := { d.sinopia with syncOffset := ns } }
  let d := forEach [0, 1] (fun h d => if (d.half h).takeFromSync then
      d.modHalf h (fun x => { x with mf := (d.half (1 - h)).mf, takeFromSync := false }) else d) d
  if 20 < ns.toInt.natAbs then raise { c := 17, inst := 1, half := 1 } d else d
def execSinopiaSyncReceived (offsetNs : BitVec 16) (s : State) : Outc := run (sync offsetNs) s

/-- A CTRL message (R231, R233, R258). Admission state only repeats what the deciding half holds. -/
def ctrlMsg (dst : Nat) (m : CtrlMsg) (d : Dev) : Dev :=
  if !d.sinopia.up then d else
  match m with
  | .mirror n => if n.val < d.S && (d.slice n).bound then mirrored n d else d
  | .admission _ => d
  | .creditRequest n r => if d.S != 1 && (d.slice n.val).half = dst then d.modPal n.val r Pal.credit else d
  | .completion n cq dws irq => if d.cqHalf n.val cq = dst then post n.val cq { dws := dws.take 8, irq := irq } d else d
  | .hgReturn f lower upper => if dst = 0 then returnNonce f.val lower upper d else d
def execSinopiaCtrlMessage (dst : HalfId) (m : CtrlMsg) (s : State) : Outc := run (ctrlMsg dst m) s

/-- A DATA message (R226, R242): issued on its link, or delivered to the pool of the transfer. -/
def dataMsg (dst : Nat) (m : DataMsg) (d : Dev) : Dev :=
  if !d.sinopia.up then d else
  match m with
  | .upstream f n addr bytes data =>
    if halfOfFunc f = dst && n.val < d.S && !((d.slice n.val).quiet) && d.carries n.val f.val then
      sendWrite n.val (1 - dst) f.val 0 addr.toNat bytes data d
    else d
  | .pool p h e bytes =>
    let n := d.owner p.val
    if n < d.S && (d.handle n h).port = p.val && d.epHalf n h = dst then takeIn n h e 0 bytes d else d
def execSinopiaDataMessage (dst : HalfId) (m : DataMsg) (s : State) : Outc := run (dataMsg dst m) s

/-- A FENCE message carries a fence that an engine raised (R13, R245). -/
def execSinopiaFenceMessage (_dst : HalfId) (n : SliceId) (s : State) : Outc :=
  run (fun d => if d.sinopia.up && n.val < d.S && (d.slice n).st != .free then fence [n.val] none d else d) s

/-- A flit fails its CRC and is replayed (R243). -/
def execSinopiaFlitCrcError (src : HalfId) (s : State) : Outc :=
  run (fun d => if !d.sinopia.up then d else
    emit (.replay src) { d with sinopia := { d.sinopia with crcErrors := d.sinopia.crcErrors + 1, replays := d.sinopia.replays + 1 } }) s

/-- The lanes of a direction, active and spare, and the bytes of a flit: header, payload, CRC-16 (R241). -/
def sinopiaActive : Nat := 68
def sinopiaSpares : Nat := 8
def flitHeader : Nat := 14
def flitPayload : Nat := 256
def flitBytes : Nat := flitHeader + flitPayload + 2

/-- One bit, and one byte, of the CRC-16 of a flit: polynomial 0x8BB7 (R241). -/
def flitCrcBit (c : BitVec 16) : BitVec 16 := if c.getLsbD 15 then (c <<< 1) ^^^ 0x8BB7 else c <<< 1
def flitCrcByte (c : BitVec 16) (b : Byte) : BitVec 16 :=
  (List.range 8).foldl (fun c _ => flitCrcBit c) (c ^^^ (BitVec.setWidth 16 b <<< 8))
/-- The CRC of a flit's header and payload; R241 states no start value. -/
def flitCrc (start : BitVec 16) (bs : List Byte) : BitVec 16 := bs.foldl flitCrcByte start
/-- A lane is retired: a spare takes its traffic; without a spare the link is down (R243, R245). -/
def laneRetire (src : Nat) (d : Dev) : Dev :=
  let x := d.sinopia
  if !x.up then d
  else if sinopiaSpares ≤ (if src = 0 then x.sparesA else x.sparesB) then sinopiaLost d
  else raise { c := 64, inst := src, half := src } { d with
    sinopia := { x with sparesA := x.sparesA + b2n (src == 0), sparesB := x.sparesB + b2n (src != 0) } }
def execSinopiaLaneRetire (src : HalfId) (s : State) : Outc := run (laneRetire src) s

end Sys2Proof.Machine
end

