-- ==== Sys2Proof/Machine/StageLink.lean ====
section
/-! DEFINITION. The Stage Link (R335 to R344): frames and their CRC, the command queue of a group, the commands that the PPE
and the policy give a stage, and the demand of a port (R350). -/
namespace Sys2Proof.Machine

/-! ### Frames (R336, R337) -/

/-- One bit of the CRC-8: polynomial 0x07, most significant bit first. -/
def crc8Bit (c : Nat) : Nat := if 128 ≤ c then (c * 2 % 256) ^^^ 7 else c * 2
def crc8Byte (c b : Nat) : Nat := (List.range 8).foldl (fun c _ => crc8Bit c) (c ^^^ b)
/-- CRC-8 of R337: initial value 0, no reflection, no final XOR. -/
def crc8 (bs : List Nat) : Nat := bs.foldl crc8Byte 0

/-- A frame of R336: address, command or status, argument or value, and the CRC over bits 31 to 8. -/
def pslFrame (k cmd arg : Nat) : Dword :=
  let hi := k % 16 * 16 + cmd % 16
  w32 (hi * 2 ^ 24 + arg % 65536 * 256 + crc8 [hi, arg / 256 % 256, arg % 256])

def frameAddr (f : Dword) : Nat := bitsOf f 31 28
def frameCmd (f : Dword) : Nat := bitsOf f 27 24
def frameArg (f : Dword) : Nat := bitsOf f 23 8
/-- The CRC of a received frame holds. -/
def frameOk (f : Dword) : Bool := pslFrame (frameAddr f) (frameCmd f) (frameArg f) == f

/-! ### The queue of a link (R339, R340) -/

/-- STOP_RAMP and DISCHARGE go ahead of every other queued command; commands go between polls. -/
def frameRank (f : Dword) : Nat := if frameCmd f = 5 || frameCmd f = 6 then 0 else if frameCmd f = 8 then 2 else 1

/-- Insert a frame behind those that go first. -/
def insertFrame (f : Dword) : List Dword → List Dword
  | [] => [f]
  | x :: r => if frameRank f < frameRank x then f :: x :: r else x :: insertFrame f r

/-- The controller of group g runs while its domain is powered (R340, R341, R433). -/
def Dev.pslOn (d : Dev) (g : Nat) : Bool := (d.pg g).st != 3

/-- Send a frame: at once on an idle link, else at its transaction boundary. A poll that waits already is not queued twice. -/
def pslSend (g : Nat) (f : Dword) (d : Dev) : Dev :=
  if !(d.pslOn g) then d else
  match (d.pg g).frames with
  | [] => emit (.psl (toPg g) f) (d.modPg g (fun x => { x with frames := [f] }))
  | h :: t =>
    if frameRank f = 2 && (h :: t).contains f then d else d.modPg g (fun x => { x with frames := h :: insertFrame f t })

/-- The next frame goes on the wire. -/
def pslNext (g : Nat) (d : Dev) : Dev :=
  let d := d.modPg g (fun x => { x with frames := x.frames.drop 1 })
  match (d.pg g).frames with
  | [] => d
  | f :: _ => emit (.psl (toPg g) f) d

/-- A command to the stage of port p. -/
def stageCmd (p cmd arg : Nat) (d : Dev) : Dev :=
  if (d.port p).stage.present then pslSend (p / 8) (pslFrame (p % 8) cmd arg) d else d

/-! ### What the PPE and the policy command (R338, R344) -/

/-- STOP_RAMP and DISCHARGE; the paths are open and VBUS falls. -/
def stageOff (p : Nat) (d : Dev) : Dev :=
  let d := stageCmd p 6 0 (stageCmd p 5 0 d)
  let now := d.now
  (d.modStage p (fun x => { x with sourceOn := false, sinkOn := false })).modTc p (fun x => { x with
    discharging := if x.vbusMv < 800 then none else some now })

/-- VCONN: 0 off, 1 on CC1, 2 on CC2. -/
def stageVconn (p cc : Nat) (d : Dev) : Dev :=
  if (d.port p).stage.vconnCc = cc then d
  else (stageCmd p 7 cc d).modStage p (fun x => { x with vconnCc := cc })

def stageVoltage (p mv : Nat) (d : Dev) : Dev := (stageCmd p 1 (mv / 20) d).modStage p (fun x => { x with setMv := mv })
def stageLimit (p ma : Nat) (d : Dev) : Dev := (stageCmd p 2 (ma / 10) d).modStage p (fun x => { x with ilimMa := ma })
/-- The source path at a voltage with a limit. -/
def stageSource (p mv ma : Nat) (d : Dev) : Dev :=
  (stageCmd p 3 0 (stageLimit p ma (stageVoltage p mv d))).modStage p (fun x => { x with sourceOn := true })
def stageSink (p : Nat) (d : Dev) : Dev := (stageCmd p 4 0 d).modStage p (fun x => { x with sinkOn := true })

/-- IDENT fields (R338): I_stage in mA, EPR, sink path, VCONN. -/
def Stage.iMa (x : Stage) : Nat := 50 * bitsOf x.ident 7 0
def Stage.eprStage (x : Stage) : Bool := bitsOf x.ident 9 8 == 1
def Stage.sinkPath (x : Stage) : Bool := bitOf x.ident 10

/-- The current that Rp advertises (R303), in mA. -/
def Dev.rpMa (d : Dev) (p : Nat) : Nat :=
  match d.cfg (0x3100 + p) 2 with
  | 0 => if ssConn (d.port p).bus.ss then 900 else 500
  | 1 => 1500
  | _ => 3000

/-- The source current limit of R344: 110 % of the current, 0.55 A minimum. -/
def limitOf (ma : Nat) : Nat := max 550 (ma * 11 / 10)

/-! ### Demand and the offer's power (R316, R350) -/

/-- Attached under R301, and not on the way to vSafe0V after a detach. -/
def TypeC.attached (x : TypeC) : Bool := (x.st == .attachedSrc || x.st == .attachedSnk) && !x.waitSafe0V
def TypeC.source (x : TypeC) : Bool := x.st == .attachedSrc && !x.waitSafe0V

/-- D of R350, in mW. -/
def Dev.demandOf (d : Dev) (p : Nat) : Nat :=
  let x := d.port p
  if !(x.tc.source || (x.tc.st == .debugAccessorySrc && !x.tc.waitSafe0V)) then 0
  else min (d.cfg (0x3100 + p) 0x20) (min (x.stage.iMa * (if x.stage.eprStage then 48 else 20)) (x.pd.need.getD (5 * d.rpMa p)))

/-- P_port (R316), in mW. -/
def Dev.pPort (d : Dev) (p : Nat) : Nat :=
  let x := d.port p
  if x.pd.sliceLimit = 0 then x.stage.alloc else min x.stage.alloc (100 * x.pd.sliceLimit)

/-- DRAWN_MW: VBUS times current, mean of the last 1 ms (R349). -/
def Stage.drawnMw (x : Stage) : Nat := if x.samples.length = 0 then 0 else sumOf x.samples / x.samples.length

end Sys2Proof.Machine
end

