-- ==== Sys2Proof/Machine/Attach.lean ====
section
/-! DEFINITION. The Type-C attach state machine (R300 to R306, R313), the end of an attachment (R189, R313, R326, R343), and the
completion of a PD_REQUEST (R329, R331). -/
namespace Sys2Proof.Machine

/-- TYPEC_STATE (R301). -/
def tcCode : TcSt → Nat
  | .disabled => 0 | .errorRecovery => 1 | .unattachedSrc => 2 | .unattachedSnk => 3 | .attachWaitSrc => 4 | .attachWaitSnk => 5
  | .trySrc => 6 | .tryWaitSnk => 7 | .trySnk => 8 | .tryWaitSrc => 9 | .attachedSrc => 10 | .attachedSnk => 11
  | .audioAccessory => 12 | .debugAccessorySrc => 13

/-- The class Q fields of 0x3100 + p may be written (R333). -/
def TcSt.stopped : TcSt → Bool
  | .disabled | .errorRecovery | .unattachedSrc | .unattachedSnk => true
  | _ => false

def isRp : CcTerm → Bool
  | .rpDefault | .rp15 | .rp30 => true
  | _ => false
/-- RP_SEEN (R332). -/
def rpSeenCode : CcTerm → Nat
  | .rpDefault => 1 | .rp15 => 2 | .rp30 => 3 | _ => 0

def TypeC.anyRp (x : TypeC) : Bool := isRp x.cc1 || isRp x.cc2
def TypeC.oneRd (x : TypeC) : Bool := (x.cc1 == .rd) != (x.cc2 == .rd)
def TypeC.bothRd (x : TypeC) : Bool := x.cc1 == .rd && x.cc2 == .rd
def TypeC.anyRd (x : TypeC) : Bool := x.cc1 == .rd || x.cc2 == .rd
def TypeC.bothRa (x : TypeC) : Bool := x.cc1 == .ra && x.cc2 == .ra
def TypeC.bothOpen (x : TypeC) : Bool := x.cc1 == .opened && x.cc2 == .opened
/-- What the attached CC shows. -/
def TypeC.attachedCc (x : TypeC) : CcTerm := if x.orientation = 2 then x.cc2 else x.cc1

/-- What the port presents on CC1 and CC2 (R301, R303, R310, R321): Rp at RP_LEVEL, SinkTxOk or SinkTxNG, Rd, or open. A swap
changes Rp and Rd before it completes. -/
def Dev.presents (d : Dev) (p : Nat) : CcTerm × CcTerm :=
  let x := d.port p
  let level := match d.cfg (0x3100 + p) 2 with | 0 => CcTerm.rpDefault | 1 => .rp15 | _ => .rp30
  let rp := if x.pd.contract && x.pd.partnerRev = 2 then (if x.pd.sinkTxNg then CcTerm.rp15 else .rp30) else level
  let one := fun (t : CcTerm) => if x.tc.orientation = 2 then (CcTerm.opened, t) else (t, CcTerm.opened)
  match x.tc.st with
  | .disabled | .errorRecovery => (.opened, .opened)
  | .unattachedSrc | .attachWaitSrc | .trySrc | .tryWaitSrc | .audioAccessory | .debugAccessorySrc => (level, level)
  | .unattachedSnk | .attachWaitSnk | .tryWaitSnk | .trySnk => (.rd, .rd)
  | .attachedSrc => one (if x.seq.swap == .toSinkWaitPsRdy then .rd else rp)
  | .attachedSnk => one (if x.seq.swap == .toSourceRamp || x.seq.swap == .toSourceSent then level else .rd)

/-! ### PD_REQUEST results (R331) -/

def pdResult (d : Dev) (p detail : Nat) : Res :=
  let x := d.port p
  { r0 := b2n x.isSink + 2 * b2n x.pd.contract + 4 * b2n x.pd.epr + 8 * b2n x.pd.prog + 16 * b2n x.pd.vconn +
      256 * x.pd.obj + 4096 * x.pd.partnerRev
    r1 := x.pd.mv / 20 + 65536 * (x.pd.ma / 10) + 2 ^ 32 * x.pd.sliceLimit
    r2 := detail }

/-- The PD_REQUEST in progress completes; a ROLE_REQ of the manager just ends. -/
def finishPd (p code detail : Nat) (d : Dev) : Dev :=
  match (d.port p).seq.req with
  | none => d
  | some r =>
    let d := d.modSeq p (fun x => { x with req := none, again := none })
    if r.byManager then d else finishWe r.slice r.wq r.idx code (pdResult d p detail) d

/-! ### The end of an attachment -/

/-- The contract is void. -/
def voidContract (p : Nat) : Dev → Dev :=
  Dev.modPd p (fun x => { x with contract := false, rdo := 0, mv := 0, ma := 0, obj := 0, prog := false, epr := false, sinkTxNg := false })

/-- PD as a new attachment finds it: counts and LAST_CAPS stay. -/
def Pd.fresh (x : Pd) : Pd :=
  { hardResets := x.hardResets, softResets := x.softResets, txFailed := x.txFailed, transDetaches := x.transDetaches,
    lastCaps := x.lastCaps }

def tcGo (p : Nat) (st : TcSt) : Dev → Dev :=
  Dev.modTc p (fun x => { x with st := st, debounced := false, tdrpTry := false })

/-- VBUS is at vSafe0V, or a discharge has ended: the detached port goes to Unattached.SNK (R302, R326). -/
def reachSafe0V (p : Nat) (d : Dev) : Dev :=
  let d := d.modTc p (fun x => { x with discharging := none })
  if (d.port p).tc.waitSafe0V then tcGo p .unattachedSnk (d.modTc p (fun x => { x with waitSafe0V := false })) else d

/-- An attachment, or an attempt at one, ends: stage off where it is on, contract void, both buses Detached, PD_REQUEST completed
after the port event; then `dest`, Unattached.SNK only from vSafe0V. -/
def endAttach (p cause code : Nat) (dest : TcSt) (d : Dev) : Dev :=
  let x := d.port p
  let acc := !x.tc.waitSafe0V && (x.tc.st == .audioAccessory || x.tc.st == .debugAccessorySrc)
  let extra := if x.isSink || acc || x.pd.contract then 128 else 0
  let held := x.tc.attached || acc || x.tc.waitSafe0V
  let wait := dest == .unattachedSnk && held
  let d := if x.stage.sourceOn || x.stage.sinkOn then stageOff p d else d
  let d := stageVconn p 0 d
  let d := d.modPort p (fun x => { x with
    pd := x.pd.fresh
    seq := { req := x.seq.req }
    stage := { x.stage with lowered := false }
    tc := { x.tc with
      st := if wait then x.tc.st else dest
      waitSafe0V := wait, orientation := 0, dataPath := false, busesOut := false, raSeen := false, debounced := false
      tdrpTry := false, outSamples := 0 } })
  let d := finishPd p cDetached 0 (detachBuses p cause code extra d)
  if wait && (d.port p).tc.vbusMv < 800 then reachSafe0V p d else d

/-- A detach: R326 in a voltage transition, R313 outside one. -/
def tcDetach (p : Nat) (d : Dev) : Dev :=
  if (d.port p).seq.trans then
    let d := raise { c := 128, inst := p, half := halfOfPort p } (d.modPd p (fun x => { x with transDetaches := x.transDetaches + 1 }))
    endAttach p 2 cDetached .unattachedSnk d
  else endAttach p 1 cDetached .unattachedSnk d

/-- ErrorRecovery, a Type-C detach with CAUSE 1 (R325). -/
def errorRecovery (p : Nat) (d : Dev) : Dev := endAttach p 1 cDetached .errorRecovery d

/-! ### Entering the attached states (R303 to R306) -/

def enterSrc (p : Nat) (d : Dev) : Dev :=
  let x := (d.port p).tc
  let o := if x.cc1 == .rd then 1 else 2
  let ra := (if o = 1 then x.cc2 else x.cc1) == .ra
  let d := tcGo p .attachedSrc d
  let d := d.modPort p (fun y => { y with
    pd := y.pd.fresh, seq := { req := none }
    tc := { y.tc with orientation := o, raSeen := ra, dataPath := x.oneRd, busesOut := false, vbusSinceCc := false } })
  let d := stageSource p 5000 (limitOf (d.rpMa p)) d
  if ra && d.cfg (0x3100 + p) 8 = 1 then stageVconn p (3 - o) (d.modPd p (fun y => { y with vconn := true })) else d

def enterSnk (p : Nat) (d : Dev) : Dev :=
  let x := (d.port p).tc
  let d := tcGo p .attachedSnk d
  let d := d.modPort p (fun y => { y with
    pd := y.pd.fresh, seq := { req := none }
    tc := { y.tc with orientation := if isRp x.cc1 then 1 else 2, dataPath := false, busesOut := false, vbusSinceCc := false } })
  portEvent p { bits := 128 } (stageSink p d)

/-- An accessory (R304): vSafe5V at Default current for a Debug Accessory, nothing for an Audio Adapter Accessory. -/
def enterAccessory (p : Nat) (st : TcSt) (d : Dev) : Dev :=
  let d := (tcGo p st d).modTc p (fun x => { x with vbusSinceCc := false })
  portEvent p { bits := 128 } (if st == .debugAccessorySrc then stageSource p 5000 (limitOf 500) d else d)

/-! ### Transitions of R302 -/

/-- Those whose CC condition has held for its debounce time, once VBUS allows them. -/
def tcHeld (p : Nat) (d : Dev) : Dev :=
  let x := (d.port p).tc
  let trySnk := d.cfg (0x3100 + p) 1 = 1
  if !x.debounced then d else
  match x.st with
  | .attachWaitSnk =>
    if x.anyRp && 4000 < x.vbusMv then (if trySnk || x.vbusSinceCc then enterSnk p d else tcGo p .trySrc d) else d
  | .attachWaitSrc =>
    if x.bothRa then enterAccessory p .audioAccessory d
    else if x.bothRd then enterAccessory p .debugAccessorySrc d
    else if x.oneRd && x.vbusMv < 800 then (if trySnk then tcGo p .trySnk d else enterSrc p d)
    else d
  | .tryWaitSnk => if x.anyRp && 4000 < x.vbusMv then enterSnk p d else d
  | .trySnk => if x.tdrpTry && x.anyRp && 4000 < x.vbusMv then enterSnk p d else d
  | _ => d

/-- Those that a change on the CC lines makes at once; in Attach Watch they wait for the warm start (R436). -/
def tcNow (p : Nat) (d : Dev) : Dev :=
  let x := (d.port p).tc
  if d.gesso.level = 2 then d else
  match x.st with
  | .unattachedSnk => if x.anyRp then tcGo p .attachWaitSnk d else d
  | .unattachedSrc => if x.anyRd || x.bothRa then tcGo p .attachWaitSrc d else d
  | .attachWaitSrc => if x.bothOpen then tcGo p .unattachedSnk d else d
  | _ => d

/-- The port may leave Disabled (R302, R204, R343, R387). -/
def Dev.armable (d : Dev) (p : Nat) : Bool :=
  let x := d.port p
  let g := d.pg (p / 8)
  (g.st == 0 || g.st == 1 || g.st == 4) && x.stage.present && !g.stopLow && !x.tc.faultHold && !x.tc.retryHold && !x.tc.offTimeHold &&
    !x.tc.ppeHeld && !x.tc.ppeRestart && x.tc.discharging.isNone

/-- Re-arm attach in Unattached.SNK; a PORT_POWER_CYCLE completes then (R204). -/
def tryArm (p : Nat) (d : Dev) : Dev :=
  if (d.port p).tc.st == .disabled && d.armable p then
    let d := tcNow p (tcGo p .unattachedSnk d)
    match (d.port p).bus.op with
    | some o => if o.opcode = 0x13 then finishPortOp p cOk 0 d else d
    | none => d
  else d

/-- The port goes to Disabled from any state (R302). -/
def tcDisable (p cause code : Nat) (d : Dev) : Dev :=
  if (d.port p).tc.st == .disabled then d else endAttach p cause code .disabled d

/-! ### The power allocation (R351, R352) -/

/-- B in effect. -/
def Dev.budgetMw (d : Dev) (sumD : Nat) : Nat :=
  let w := d.cfg 0x5000 1
  let alert := d.sys.alertLow || d.sys.alertHold
  let pct := d.cfg 0x5000 3
  if w = 0 then (if alert then sumD * pct / 100 else sumD)
  else if alert then w * (100 - d.cfg 0x5000 2) * pct / 10 else w * (100 - d.cfg 0x5000 2) * 10

/-- What a port has and what it demands. -/
structure Share where
  p : Nat
  a : Nat
  want : Nat
  prio : Nat

/-- One round over the ports of a level: each takes at most the share. -/
def fillOnce (lvl share : Nat) : List Share → Nat → List Share × Nat
  | [], rest => ([], rest)
  | x :: r, rest =>
    if x.prio = lvl && x.a < x.want then
      let g := min share (x.want - x.a)
      let t := fillOnce lvl share r (rest - g)
      ({ x with a := x.a + g } :: t.1, t.2)
    else
      let t := fillOnce lvl share r rest
      (x :: t.1, t.2)

/-- Water-fill of one level. -/
def fillLevel (lvl : Nat) : Nat → List Share → Nat → List Share × Nat
  | 0, xs, rest => (xs, rest)
  | k + 1, xs, rest =>
    let n := (xs.filter (fun x => x.prio = lvl && x.a < x.want)).length
    if rest = 0 || n = 0 || rest / n = 0 then (xs, rest) else
    let t := fillOnce lvl (rest / n) xs rest
    fillLevel lvl k t.1 t.2

/-- The allocation of R351: floors, then the levels, then rounded down to 100 mW. -/
def allocation (budget : Nat) (xs : List Share) : List Share :=
  let rest := budget - sumOf (xs.map (fun x => x.a))
  ((List.range 8).foldl (fun t lvl => fillLevel lvl (xs.length + 1) t.1 t.2) (xs, rest)).1.map (fun x => { x with a := x.a / 100 * 100 })

/-- What a port counts in the sum of R352. -/
def Stage.counted (x : Stage) : Nat := if x.lowered then x.oldAlloc else x.alloc

/-- The ports whose records are in use. -/
def Dev.usedPorts (d : Dev) : List Nat := d.ports.map (fun x => x.1)

/-- Run the allocation: decreases at once, increases while the sum stays within B. -/
def allocate (d : Dev) : Dev :=
  let ps := d.usedPorts
  let d := forEach ps (fun p d => let v := d.demandOf p; d.modStage p (fun x => { x with demand := v })) d
  let dem := fun p => (d.port p).stage.demand
  let B := d.budgetMw (sumOf (ps.map dem))
  let xs : List Share := (ps.filter (fun p => dem p != 0)).map (fun p =>
    { p := p, a := min (d.cfg (0x3100 + p) 0x21) (dem p), want := dem p, prio := d.cfg (0x3100 + p) 0x22 })
  let above := decide (B < sumOf (xs.map (fun x => x.a)))
  let d := if above && !d.sys.floorOver then raise { c := 161 } d else d
  let d := { d with sys := { d.sys with budget := B, floorOver := above } }
  let res := allocation B xs
  let new := fun p => (res.find? (fun x => x.p == p)).elim 0 (fun x => x.a)
  let d := forEach ps (fun p d => d.modPort p (fun x =>
    if new p < x.stage.alloc then
      let low := x.pd.contract && new p != 0
      { x with stage := { x.stage with
          alloc := new p, oldAlloc := if low then x.stage.counted else 0, lowered := low } }
    else x)) d
  (ps.foldl (fun (t : Dev × Nat) p =>
    let x := (t.1.port p).stage
    let inc := new p - x.alloc
    if inc = 0 || B < t.2 + inc then t
    else (t.1.modStage p (fun x => { x with alloc := new p, lowered := x.lowered && new p < x.oldAlloc }), t.2 + inc))
    (d, sumOf (ps.map (fun p => (d.port p).stage.counted)))).1

/-- The allocation runs on every change of a demand. -/
def reallocate (d : Dev) : Dev :=
  if d.usedPorts.any (fun p => d.demandOf p != (d.port p).stage.demand) then allocate d else d

end Sys2Proof.Machine
end

