-- ==== Sys2Proof/Machine/Pd.lean ====
section
/-! DEFINITION. Power Delivery (R306 to R331): the protocol layer, what a port offers and asks for, and the sequences of the
policy and the PPE. -/
namespace Sys2Proof.Machine

/-! ### The offer (R306, R316 to R318) and the choice of a sink (R320) -/

/-- I_cable (R306), in mA. -/
def Pd.cableMa (x : Pd) : Nat := if x.cable5A then 5000 else 3000

/-- I(V) of R316, in mA for a voltage in mV. -/
def Dev.offerMa (d : Dev) (p mv : Nat) : Nat :=
  let x := d.port p
  min (min x.stage.iMa x.pd.cableMa) (d.pPort p * 1000 / mv) / 10 * 10

/-- The power limit is the term that limits the current at a voltage. -/
def Dev.powerLimited (d : Dev) (p mv : Nat) : Bool :=
  let x := d.port p
  d.pPort p * 1000 / mv < min x.stage.iMa x.pd.cableMa

/-- Whether a mask field in use selects bit k. -/
def Dev.selects (d : Dev) (p sub k : Nat) : Bool := d.cfg (0x3100 + p) sub / 2 ^ k % 2 == 1

def Dev.fixedPdo (d : Dev) (p sub k mv : Nat) : List Pdo :=
  if d.selects p sub k && 500 ≤ d.offerMa p mv then [.fixed mv (d.offerMa p mv)] else []
def Dev.ppsPdo (d : Dev) (p k mv : Nat) : List Pdo :=
  if d.selects p 5 k && 500 ≤ d.offerMa p mv then [.pps mv (d.offerMa p mv) (d.powerLimited p mv)] else []

/-- EPR Mode Capable (R318). -/
def Dev.eprCapable (d : Dev) (p : Nat) : Bool :=
  d.cfg (0x3100 + p) 6 != 0 && (d.port p).pd.cableEpr && 100000 < d.pPort p

/-- The PDOs of Source_Capabilities (R317); no PPS with a PD 2.0 partner (R315). -/
def Dev.sprCaps (d : Dev) (p : Nat) : List Pdo :=
  let v20 := d.fixedPdo p 4 3 20000
  [.fixed5 (d.offerMa p 5000) true false (d.port p).tc.dataPath (d.eprCapable p)] ++ d.fixedPdo p 4 1 9000 ++ d.fixedPdo p 4 2 15000 ++ v20 ++
    if (d.port p).pd.partnerRev = 1 then [] else d.ppsPdo p 0 11000 ++ (if v20.length = 0 then [] else d.ppsPdo p 1 21000)

/-- EPR_Source_Capabilities (R318): the SPR PDOs in positions 1 to 7. -/
def Dev.eprCaps (d : Dev) (p : Nat) : List Pdo :=
  let spr := d.sprCaps p
  spr ++ List.replicate (7 - spr.length) .none ++ d.fixedPdo p 6 0 28000 ++ d.fixedPdo p 6 1 36000 ++ d.fixedPdo p 6 2 48000 ++
    if d.selects p 6 3 then [.avs (d.pPort p / 1000 * 1000)] else []

/-- What the port offers now. -/
def Dev.caps (d : Dev) (p : Nat) : List Pdo := if (d.port p).pd.epr then d.eprCaps p else d.sprCaps p
def Dev.capsMsg (d : Dev) (p : Nat) : PdMsg := if (d.port p).pd.epr then .eprSourceCaps (d.eprCaps p) else .sourceCaps (d.sprCaps p)

/-- Voltage and current of a fixed PDO. -/
def pdoFixed : Pdo → Option (Nat × Nat)
  | .fixed mv ma => some (mv, ma)
  | .fixed5 ma _ _ _ _ => some (5000, ma)
  | .pps _ _ _ | .avs _ | .none => none

/-- A fixed PDO of the new offer that the old one did not reach: an increase (R319). -/
def raises (old new : List Pdo) : Bool :=
  new.any (fun x => (pdoFixed x).any (fun v => !(old.any (fun y => (pdoFixed y).any (fun w => w.1 == v.1 && v.2 ≤ w.2)))))

/-- Voltage and current of a Request within an offer, or none (R315). -/
def granted (caps : List Pdo) (r : Rdo) : Option (Nat × Nat) :=
  match (caps[r.pos - 1]? : Option Pdo) with
  | some (.fixed mv ma) => if r.ma ≤ ma then some (mv, r.ma) else none
  | some (.fixed5 ma _ _ _ _) => if r.ma ≤ ma then some (5000, r.ma) else none
  | some (.pps hi ma _) => if 3300 ≤ r.mv && r.mv ≤ hi && r.ma ≤ ma then some (r.mv, r.ma) else none
  | some (.avs mw) => if 15000 ≤ r.mv && r.mv ≤ 48000 && r.mv * r.ma ≤ mw * 1000 then some (r.mv, r.ma) else none
  | _ => none

/-- Position 1 counts the first. -/
def fixedList (caps : List Pdo) : List (Nat × Nat × Nat) :=
  (List.range caps.length).filterMap (fun i => (caps[i]?.bind pdoFixed).map (fun v => (i + 1, v.1, v.2)))

/-- The highest-power fixed PDO within a voltage (R320). -/
def bestFixed (caps : List Pdo) (maxMv : Nat) : Option (Nat × Nat × Nat) :=
  ((fixedList caps).filter (fun x => x.2.1 ≤ maxMv)).foldl (fun b x => match b with
    | none => some x
    | some y => if y.2.1 * y.2.2 < x.2.1 * x.2.2 then some x else some y) none

/-- The words of a Request. PRESUMED, the PD standard's layout: position, mismatch, operating and maximum current. -/
def rdoOf (pos mv ma : Nat) (mismatch : Bool) : Rdo :=
  { raw := w32 (pos * 2 ^ 28 + b2n mismatch * 2 ^ 26 + ma / 10 * 1024 + ma / 10), pos := pos, mv := mv, ma := ma, mismatch := mismatch }

/-- The Request of the port as sink (R320); a SINK_REQUEST replaces the choice. -/
def Dev.sinkRdo (d : Dev) (p : Nat) (caps : List Pdo) : Rdo :=
  let maxMv := d.cfg (0x3100 + p) 9
  let maxMa := d.cfg (0x3100 + p) 0x0A
  let own := match bestFixed caps maxMv with
    | some x => rdoOf x.1 x.2.1 (min x.2.2 maxMa) false
    | none => rdoOf 1 5000 ((fixedList caps).head?.elim maxMa (fun x => x.2.2)) true
  match (d.port p).pd.sinkReq with
  | none => own
  | some (mv, ma) =>
    let pick := if mv = 0 then bestFixed caps maxMv else (fixedList caps).find? (fun x => x.2.1 == mv)
    match pick with
    | some x => rdoOf x.1 x.2.1 (if ma = 0 then min x.2.2 maxMa else min ma x.2.2) false
    | none => own

/-! ### The protocol layer (R308, R309) -/

def sopKey : Sop → Nat
  | .sop => 0 | .sop1 => 1 | .sop2 => 2

/-- PD_ENABLE, and the port not silent under R325. -/
def Dev.pdOn (d : Dev) (p : Nat) : Bool := d.cfg (0x3100 + p) 3 == 1 && !(d.port p).pd.pdOff

/-- The capabilities that a message of the port carries are recorded (R312, R332). -/
def Pd.noteCaps (m : PdMsg) (x : Pd) : Pd :=
  match m with
  | .sourceCaps l => { x with lastCaps := l, sentCaps := l }
  | .eprSourceCaps l => { x with lastCaps := l }
  | .sinkCaps l => { x with sentSink := l }
  | _ => x

/-- Transmit a message, or queue it behind the one on the wire. -/
def pdTx (p : Nat) (so : Sop) (m : PdMsg) (d : Dev) : Dev :=
  if !(d.pdOn p) then d else
  let d := d.modPd p (Pd.noteCaps m)
  match (d.port p).seq.tx with
  | some _ => d.modSeq p (fun x => { x with queued := x.queued ++ [(so, m)] })
  | none =>
    let id := tabGet 0 (d.port p).seq.txId (sopKey so)
    emit (.pd (toPort p) so id m) (d.modSeq p (fun x => { x with tx := some { so := so, msg := m, id := id } }))

/-- The message on the wire is done with; the next goes. -/
def pdNext (p : Nat) (d : Dev) : Dev :=
  let x := (d.port p).seq
  let k := (x.tx.map (fun t => sopKey t.so)).getD 0
  let d := d.modSeq p (fun x => { x with tx := none, txId := tabPut x.txId k ((tabGet 0 x.txId k + 1) % 8), queued := x.queued.drop 1 })
  match x.queued with
  | [] => d
  | q :: _ => pdTx p q.1 q.2 d

/-- Send a message that begins or goes on with a sequence: what the port then waits for. -/
def pdSend (p : Nat) (m : PdMsg) (d : Dev) : Dev :=
  if !(d.pdOn p) then d else
  let d := d.modSeq p (fun x => match m with
    | .sourceCaps _ | .eprSourceCaps _ => { x with expect := .request }
    | .request _ | .eprRequest _ => { x with expect := .answer }
    | .prSwap => { x with expect := .swapAnswer, swap := .asked }
    | .getSinkCap => { x with expect := .sinkCaps }
    | .getStatus => { x with expect := .status }
    | .softReset => { x with expect := .softAccept, txId := tabPut x.txId 0 0, rxId := tabDel x.rxId 0 }
    | _ => x)
  let d := d.modPd p (fun x => match m with
    | .sourceCaps l | .eprSourceCaps l => { x with offer := l, capsSent := x.capsSent + 1, capsPend := false, capsDue := false }
    | .softReset => { x with softResets := x.softResets + 1 }
    | _ => x)
  pdTx p .sop m d

/-- Begin a sequence of the port's own: SinkTxNG and tSinkTx as source, SinkTxOk as sink, with a PD 3.x partner (R310, R311). -/
def pdBegin (p : Nat) (m : PdMsg) (d : Dev) : Dev :=
  let x := d.port p
  if x.pd.partnerRev = 2 && x.tc.source && x.pd.contract then
    (d.modPd p (fun y => { y with sinkTxNg := true })).modSeq p (fun y => { y with wait := some m })
  else if x.pd.partnerRev = 2 && x.isSink && x.tc.attachedCc != .rp30 then d.modSeq p (fun y => { y with wait := some m })
  else pdSend p m d

/-- No sequence runs on the port. -/
def PdSeq.idle (x : PdSeq) : Bool :=
  x.tx.isNone && x.queued.length == 0 && x.wait.isNone && x.expect == .none && x.swap == .none && x.hr == .none && !x.trans &&
    x.newRdo.isNone && x.again.isNone && x.accFor == .none

/-! ### Hard_Reset (R324, R325) -/

/-- A Hard_Reset, sent or received; after two with no contract, ErrorRecovery. -/
def hardReset (p : Nat) (sent : Bool) (d : Dev) : Dev :=
  let x := d.port p
  if !x.tc.attached then d
  else if 2 ≤ x.pd.hrCount then errorRecovery p d
  else
    let keep := x.seq.req.filter (fun r => r.action = 6)
    let d := doIf sent (emit (.hardReset (toPort p))) d
    let d := raise { c := 132, inst := p, half := halfOfPort p } d
    let d := d.modPort p (fun y => { y with
      pd := { y.pd with hardResets := y.pd.hardResets + 1, hrCount := y.pd.hrCount + 1, capsDue := false, capsPend := false }
      seq := {
        req := y.seq.req, trans := true, transHi := max y.pd.mv 5000 * 11 / 10
        hr := if sent then .signalling else if y.isSink then .sinkWait else .waitOff } })
    let d := voidContract p d
    let d := if keep.isNone then finishPd p cNotPermitted 6 d else d
    if x.pd.contract then portEvent p { bits := 128 } d else d

/-- The signalling has ended. -/
def hardResetDone (p : Nat) (d : Dev) : Dev :=
  if (d.port p).seq.hr != .signalling then d else
  finishPd p cOk 0 (d.modPort p (fun y => { y with seq := { y.seq with hr := if y.isSink then .sinkWait else .waitOff } }))

/-! ### Contracts (R315, R319, R326, R344) -/

/-- A contract is in place. -/
def contractSet (p : Nat) (d : Dev) : Dev :=
  let x := d.port p
  match x.seq.newRdo with
  | none => d
  | some r =>
    let d := d.modPort p (fun y => { y with
      pd := { y.pd with
        contract := true, rdo := r.raw, mv := y.seq.newMv, ma := y.seq.newMa, obj := r.pos, prog := r.programmable, hrCount := 0
        needDue := y.pd.needDue || (!y.isSink && y.pd.need.isNone) }
      seq := { y.seq with newRdo := none, trans := false, expect := .none, ramping := false }
      stage := { y.stage with lowered := false } })
    let d := if x.isSink then d else stageLimit p (limitOf x.seq.newMa) d
    portEvent p { bits := 128 } d

/-- The Accept of a Request has its GoodCRC: a voltage transition, or PS_RDY at once. -/
def acceptSent (p : Nat) (d : Dev) : Dev :=
  let x := d.port p
  if x.seq.newMv = x.stage.setMv then pdTx p .sop .psRdy d else
  d.modSeq p (fun y => { y with
    trans := true, transLo := min y.newMv x.stage.setMv * 9 / 10, transHi := max y.newMv x.stage.setMv * 11 / 10 })

/-! ### Power role swap (R321) -/

/-- The Accept has its GoodCRC: the contract is void and the swap runs. -/
def swapStart (p : Nat) : Dev → Dev :=
  fun d => voidContract p (d.modPort p (fun y => { y with seq := { y.seq with
    expect := .none, trans := true, transLo := 0, transHi := max y.pd.mv 5000 * 11 / 10
    swap := if y.isSink then .toSourceWaitPsRdy else .toSinkWaitTransition } }))

/-- The swap completes in the other attached state. -/
def swapDone (p : Nat) (toSink : Bool) (d : Dev) : Dev :=
  let d := d.modPort p (fun y => { y with
    tc := { y.tc with st := if toSink then .attachedSnk else .attachedSrc }
    seq := { y.seq with swap := .none, trans := false, expect := .none }
    pd := { y.pd with capsSent := 0, need := none, sinkReq := none } })
  let d := if toSink then stageSink p d else d
  finishPd p cOk 0 (portEvent p { bits := 128 } d)

/-- vSafe0V in a swap to sink: Rd, and PS_RDY. -/
def swapAtZero (p : Nat) (d : Dev) : Dev :=
  pdTx p .sop .psRdy (d.modSeq p (fun x => { x with swap := .toSinkWaitPsRdy }))

/-! ### Messages that went out -/

/-- A message has its GoodCRC. -/
def pdSent (p : Nat) (so : Sop) (m : PdMsg) (d : Dev) : Dev :=
  let x := d.port p
  match so, m with
  | .sop, .accept =>
    let d := d.modSeq p (fun y => { y with accFor := .none })
    (match x.seq.accFor with
    | .request => acceptSent p d
    | .swap => swapStart p d
    | .vconn =>
      if x.pd.vconn then d.modSeq p (fun y => { y with expect := .vconnPsRdy })
      else pdTx p .sop .psRdy (stageVconn p (3 - x.tc.orientation) (d.modPd p (fun y => { y with vconn := true })))
    | .none => d)
  | .sop, .psRdy =>
    if x.seq.swap == .toSourceSent then swapDone p false d
    else if x.seq.newRdo.isSome && !x.isSink then contractSet p d
    else d
  | .sop, .sourceCaps _ | .sop, .eprSourceCaps _ =>
    let d := d.modPd p (fun y => { y with capsSent := 0 })
    (match x.seq.req with
    | some r => if r.begun && (r.action = 4 || r.action = 5) then finishPd p cOk 0 d else d
    | none => d)
  | _, _ => d


/-- The policy has a core to run on (R237, R312, R327). -/
def Dev.policyUp (d : Dev) (p : Nat) : Bool :=
  let h := halfOfPort p
  d.start.st == 0 && d.gesso.level == 0 && (List.range 5).any (fun i => (d.core (6 * h + i)).st == 1) && !(d.deviceFull h)

/-! ### Discover Identity and the first capabilities (R306, R314) -/

def askIdentity (p : Nat) (d : Dev) : Dev :=
  pdTx p .sop1 .discoverIdentity (d.modPd p (fun x => { x with idAttempts := x.idAttempts + 1 }))

/-- The first Source_Capabilities, once the policy runs and the cable is known. -/
def firstCaps (p : Nat) (d : Dev) : Dev :=
  let x := d.port p
  if !(x.tc.source && x.pd.capsDue && !x.pd.contract && d.policyUp p) then d
  else if !x.pd.vconn || x.pd.idDone then pdSend p (d.capsMsg p) d
  else if x.pd.idAttempts = 0 then askIdentity p d
  else d

/-! ### The policy at rest: what it begins next -/

/-- Begin the PD_REQUEST or ROLE_REQ that waits (R328). -/
def reqBegin (p : Nat) (r : PdReq) (d : Dev) : Dev :=
  let d := d.modSeq p (fun x => { x with req := some { r with begun := true } })
  match r.action with
  | 1 | 2 => pdBegin p .prSwap d
  | 3 =>
    let caps := (d.port p).pd.offer
    if r.mv != 0 && !((fixedList caps).any (fun x => x.2.1 == r.mv)) then finishPd p cNotPermitted 9 d else
    let d := d.modPd p (fun x => { x with sinkReq := some (r.mv, r.ma) })
    let q := d.sinkRdo p caps
    pdBegin p (.request q) (d.modSeq p (fun x => { x with newRdo := some q, newMv := q.mv, newMa := q.ma }))
  | 6 => hardReset p true d
  | _ => finishPd p cOk 0 d

/-- New capabilities are due: the offer changed, an increase at most every 500 ms (R319). -/
def Dev.offerDue (d : Dev) (p : Nat) : Bool :=
  let x := d.port p
  x.tc.source && x.pd.partnerRev != 0 && (x.pd.capsPend || (x.pd.contract && d.caps p != x.pd.offer &&
    !(raises x.pd.offer (d.caps p) && x.stage.incAt.any (fun t => d.now < t + 16384))))

/-- A port without a sequence restores SinkTxOk and begins what is due: new capabilities, a PD_REQUEST, Get_Sink_Cap. -/
def pdIdle (p : Nat) (d : Dev) : Dev :=
  let x := d.port p
  if !x.seq.idle || !x.tc.attached then d else
  -- R310: SinkTxOk is the PPE's, with or without a policy
  let d := if x.pd.sinkTxNg then d.modPd p (fun y => { y with sinkTxNg := false }) else d
  if !(d.policyUp p) || !(d.pdOn p) then d else
  if x.tc.source && x.pd.capsDue && !x.pd.contract then firstCaps p d
  else if d.offerDue p then
    let now := d.now
    let up := raises x.pd.offer (d.caps p)
    let d := d.modPort p (fun y => { y with
      stage := if up then { y.stage with incAt := some now } else y.stage
      seq := { y.seq with req := y.seq.req.map (fun r => if r.action = 4 || r.action = 5 then { r with begun := true } else r) } })
    pdBegin p (d.capsMsg p) d
  else match x.seq.req with
    | some r => if r.begun || (r.action = 4 && d.caps p != x.pd.offer) then d else reqBegin p r d
    | none => if x.pd.needDue then pdBegin p .getSinkCap (d.modPd p (fun y => { y with needDue := false })) else d

/-! ### The answer of a cable, and repeated capabilities (R306, R325) -/

def capsAgain (p : Nat) (d : Dev) : Dev :=
  let x := d.port p
  if !x.tc.source || x.pd.contract || x.seq.trans || x.seq.newRdo.isSome || x.seq.tx.isSome || x.pd.capsSent = 0 then d
  else if 50 ≤ x.pd.capsSent then d.modPd p (fun y => { y with pdOff := true })
  else pdSend p (d.capsMsg p) d

/-- The answer of a cable (R306). -/
def cableIs (p : Nat) (fiveA fiftyV epr active : Bool) (d : Dev) : Dev :=
  let asked := (d.port p).pd.sop2Asked
  let d := d.modPd p (fun x => { x with
    idDone := true, cableAnswered := true, cable5A := fiveA, cableEpr := fiveA && fiftyV && epr, cableActive := active
    sop2Asked := asked || active })
  firstCaps p (doIf (active && !asked) (pdTx p .sop2 .discoverIdentity) d)

/-! ### Messages that came in (R312, R315, R322, R323) -/

/-- PR_SWAP_POLICY and the stage permit the swap out of the present role (R322). -/
def Dev.swapPermitted (d : Dev) (p : Nat) : Bool :=
  let pol := d.cfg (0x3100 + p) 7
  if (d.port p).isSink then pol == 1 || pol == 3 else (pol == 1 || pol == 2) && (d.port p).stage.sinkPath

/-- The own request gives way to the partner's (R323). -/
def superseded (p : Nat) (d : Dev) : Dev :=
  finishPd p 0x17 0 (d.modSeq p (fun x => { x with wait := none, again := none, swap := .none, expect := .none }))

/-- A partner's PR_Swap (R322, R323). -/
def prSwapIn (p : Nat) (d : Dev) : Dev :=
  let x := d.port p
  let mine := x.seq.wait == some .prSwap
  let sentBoth := x.isSink && x.pd.partnerRev = 1 && x.seq.expect == .swapAnswer
  let second := x.seq.req.any (fun r => r.repeated) || x.seq.again == some .prSwap
  if sentBoth && !second then
    -- R323: the own PR_Swap is sent once more
    pdTx p .sop .wait (d.modSeq p (fun y => { y with again := some .prSwap, swap := .none, expect := .none }))
  else
    let d := if mine || sentBoth || x.seq.again == some .prSwap then superseded p d else d
    let y := d.port p
    if !y.seq.idle then pdTx p .sop .wait d
    else if d.swapPermitted p && y.seq.req.isNone then
      pdTx p .sop .accept (d.modSeq p (fun z => { z with accFor := .swap }))
    else pdTx p .sop .reject d

/-- A partner's VCONN_Swap (R307). -/
def vconnSwapIn (p : Nat) (d : Dev) : Dev :=
  if (d.port p).pd.vconn || d.cfg (0x3100 + p) 8 = 1 then
    pdTx p .sop .accept (d.modSeq p (fun z => { z with accFor := .vconn }))
  else pdTx p .sop .reject d

/-- A Request as source. -/
def requestIn (p : Nat) (r : Rdo) (d : Dev) : Dev :=
  let x := d.port p
  if x.isSink then pdTx p .sop .notSupported d
  else if x.seq.trans || x.seq.newRdo.isSome then pdTx p .sop .wait d
  else
    let d := d.modSeq p (fun y => { y with expect := if y.expect == .request then .none else y.expect })
    if x.pd.contract && r.raw = x.pd.rdo then pdTx p .sop .psRdy (pdTx p .sop .accept d)
    else match granted x.pd.offer r with
      | some g => pdTx p .sop .accept (d.modSeq p (fun y => { y with
          accFor := .request, newRdo := some r, newMv := g.1, newMa := g.2 }))
      | none => pdTx p .sop .reject d

/-- Source_Capabilities as sink: a Request (R320). -/
def capsIn (p : Nat) (l : List Pdo) (d : Dev) : Dev :=
  if !(d.port p).isSink then pdTx p .sop .notSupported d else
  let d := (d.modPd p (fun x => { x with lastCaps := l, offer := l })).modSeq p (fun x => { x with
    hr := .none, trans := if x.hr == .none then x.trans else false })
  let q := d.sinkRdo p l
  pdSend p (.request q) (d.modSeq p (fun x => { x with newRdo := some q, newMv := q.mv, newMa := q.ma }))

/-- The partner accepts. -/
def acceptIn (p : Nat) (d : Dev) : Dev :=
  let x := d.port p
  match x.seq.expect with
  | .answer =>
    let old := if x.pd.contract then x.pd.mv else 5000
    d.modSeq p (fun y => { y with
      expect := .psRdy, trans := y.newMv != old, transLo := min y.newMv old * 9 / 10, transHi := max y.newMv old * 11 / 10 })
  | .swapAnswer => swapStart p d
  | .softAccept => d.modSeq p (fun y => { y with expect := .none })
  | _ => d

/-- PS_RDY from the partner. -/
def psRdyIn (p : Nat) (d : Dev) : Dev :=
  let x := d.port p
  if x.seq.expect == .psRdy then finishPd p cOk 0 (contractSet p d)
  else if x.seq.expect == .vconnPsRdy then
    stageVconn p 0 ((d.modSeq p (fun y => { y with expect := .none })).modPd p (fun y => { y with vconn := false }))
  else match x.seq.swap with
    | .toSinkWaitPsRdy => swapDone p true d
    | .toSourceWaitPsRdy =>
      -- Rp, and the stage at vSafe5V; its sink path opens first
      stageSource p 5000 (limitOf (d.rpMa p)) (stageCmd p 5 0 (d.modPort p (fun y => { y with
        stage := { y.stage with sinkOn := false }, seq := { y.seq with swap := .toSourceRamp } })))
    | _ => d

/-- Reject, Wait or Not_Supported to what the port asked; detail as in R329. -/
def refusedIn (p detail : Nat) (d : Dev) : Dev :=
  let x := d.port p
  let asked := x.seq.expect == .answer || x.seq.expect == .swapAnswer
  if x.seq.expect == .softAccept then hardReset p true (d.modSeq p (fun y => { y with expect := .none }))
  else if asked then
    let m : PdMsg := if x.seq.expect == .swapAnswer then .prSwap else match x.seq.newRdo with
      | some r => .request r
      | none => .prSwap
    let once := x.seq.req.all (fun r => !r.repeated)
    if detail = 5 && once then d.modSeq p (fun y => { y with again := some m, expect := .none, swap := .none })
    else finishPd p cNotPermitted detail (d.modSeq p (fun y => { y with expect := .none, swap := .none, newRdo := none }))
  else if x.seq.expect == .sinkCaps || x.seq.expect == .status then d.modSeq p (fun y => { y with expect := .none })
  else d

/-- The Sink_Capabilities of the port (R320). -/
def Dev.ownSinkCaps (d : Dev) (p : Nat) : List Pdo :=
  let mv := d.cfg (0x3100 + p) 9
  let ma := d.cfg (0x3100 + p) 0x0A
  .fixed 5000 ma :: if 5000 < mv then [.fixed mv ma] else []

/-- The highest power that a list of PDOs names, in mW (R350). -/
def maxPower (l : List Pdo) : Nat :=
  l.foldl (fun b x => max b (match x with
    | .fixed mv ma => mv * ma / 1000
    | .fixed5 ma _ _ _ _ => 5 * ma
    | .pps mv ma _ => mv * ma / 1000
    | .avs mw => mw
    | .none => 0)) 0

/-- EPR_Mode Enter (R318). -/
def eprEnterIn (p : Nat) (d : Dev) : Dev :=
  let x := d.port p
  if x.isSink then pdTx p .sop .notSupported d else
  let d := pdTx p .sop .eprModeAck d
  if d.eprCapable p && x.pd.contract && x.pd.mv = 20000 && !x.pd.prog && x.pd.vconn then
    let d := pdTx p .sop .eprModeSucceeded (d.modPd p (fun y => { y with epr := true }))
    pdSend p (.eprSourceCaps (d.eprCaps p)) d
  else pdTx p .sop .eprModeFailed d

/-- An extended answer, which a PD 2.0 partner is not sent (R315). -/
def extAnswer (p : Nat) (m : PdMsg) (d : Dev) : Dev := pdTx p .sop (if (d.port p).pd.partnerRev = 2 then m else .notSupported) d

/-- The policy handles a message on SOP (R315). -/
def policyIn (p : Nat) (m : PdMsg) (d : Dev) : Dev :=
  match m with
  | .sourceCaps l | .eprSourceCaps l => capsIn p l d
  | .request r | .eprRequest r => requestIn p r d
  | .sinkCaps l | .eprSinkCaps l =>
    if (d.port p).seq.expect == .sinkCaps then
      (d.modSeq p (fun x => { x with expect := .none })).modPd p (fun x => { x with need := some (maxPower l) })
    else d
  | .getSourceCap =>
    if (d.port p).isSink || (d.port p).pd.epr then pdTx p .sop (.sourceCaps (d.sprCaps p)) d else pdSend p (.sourceCaps (d.sprCaps p)) d
  | .eprGetSourceCap => extAnswer p (.eprSourceCaps (d.eprCaps p)) d
  | .getSinkCap => pdTx p .sop (.sinkCaps (d.ownSinkCaps p)) d
  | .accept => acceptIn p d
  | .psRdy => psRdyIn p d
  | .reject => refusedIn p 4 d
  | .wait => refusedIn p 5 d
  | .notSupported => refusedIn p 7 d
  | .prSwap => prSwapIn p d
  | .vconnSwap => vconnSwapIn p d
  | .drSwap => pdTx p .sop .reject d
  | .eprModeEnter => eprEnterIn p d
  | .eprModeExit => d.modPd p (fun x => { x with epr := false, capsPend := x.epr })
  | .eprKeepAlive => extAnswer p .eprKeepAliveAck d
  | .getStatus => extAnswer p .status d
  | .status => d.modSeq p (fun x => { x with expect := if x.expect == .status then .none else x.expect })
  | .alert =>
    -- R315: recorded in the fault log, though its severity is 0
    let e : Ev := { c := 133, inst := p, half := halfOfPort p }
    let d := putRecord 0 e (raise e d)
    if (d.port p).seq.idle then pdBegin p .getStatus d else d
  | .getPpsStatus => extAnswer p (.ppsStatus (d.port p).tc.vbusMv) d
  | .getSourceCapExt => extAnswer p .sourceCapExt d
  | .getRevision => extAnswer p .revision d
  | .getSourceInfo => extAnswer p .sourceInfo d
  | .discoverIdentity => pdTx p .sop .identityAckDfpHost d
  | .discoverSvids => pdTx p .sop .svidsAckEmpty d
  | .otherVdm => pdTx p .sop .vdmNak d
  | .unlisted _ => pdTx p .sop .notSupported d
  | .chunk last => d.modSeq p (fun x => { x with chunks := if last then 0 else x.chunks + 1 })
  | .softReset | .bist _ | .eprModeAck | .eprModeSucceeded | .eprModeFailed | .eprKeepAliveAck | .ppsStatus _ | .sourceCapExt
  | .revision | .sourceInfo | .identityAckDfpHost | .identityAckCable _ _ _ _ | .svidsAckEmpty | .vdmNak => d

/-- A message that asks for no answer of the port. -/
def noAnswer : PdMsg → Bool
  | .accept | .reject | .wait | .psRdy | .notSupported | .sinkCaps _ | .eprSinkCaps _ | .status | .bist _ | .eprModeAck
  | .eprModeSucceeded | .eprModeFailed | .eprKeepAliveAck | .ppsStatus _ | .sourceCapExt | .revision | .sourceInfo
  | .identityAckDfpHost | .identityAckCable _ _ _ _ | .svidsAckEmpty | .vdmNak | .chunk _ | .alert | .eprModeExit
  | .unlisted false => true
  | _ => false

/-- The PPE's own answer (R312). -/
def ppeAnswer (p : Nat) (m : PdMsg) (d : Dev) : Dev :=
  let x := d.port p
  match m with
  | .request r | .eprRequest r =>
    if x.pd.contract && r.raw = x.pd.rdo then pdTx p .sop .psRdy (pdTx p .sop .accept d) else pdTx p .sop .wait d
  | .eprKeepAlive => pdTx p .sop .eprKeepAliveAck d
  | .getSourceCap => pdTx p .sop (if x.pd.sentCaps.isEmpty then .notSupported else .sourceCaps x.pd.sentCaps) d
  | .getSinkCap => pdTx p .sop (if x.pd.sentSink.isEmpty then .notSupported else .sinkCaps x.pd.sentSink) d
  | .prSwap | .vconnSwap => pdTx p .sop .wait d
  | .drSwap => pdTx p .sop .reject d
  | m => if noAnswer m then d else pdTx p .sop .notSupported d

/-- A received Soft_Reset (R309). -/
def softResetIn (p : Nat) (so : Sop) (d : Dev) : Dev :=
  let k := sopKey so
  let d := (d.modPd p (fun x => { x with softResets := x.softResets + 1 })).modSeq p (fun x => { x with
    txId := tabPut x.txId k 0, rxId := tabDel x.rxId k, tx := x.tx.filter (fun t => t.so != so)
    queued := x.queued.filter (fun q => q.1 != so), wait := none, expect := .none, again := none, accFor := .none
    pendAns := [] })
  pdTx p so .accept (if (d.port p).seq.req.any (fun r => r.begun && r.action != 6) then finishPd p cNotPermitted 6 d else d)

/-- The policy is back: it answers what waits, in order (R327, R365). -/
def policyBack (p : Nat) (d : Dev) : Dev :=
  if (d.port p).seq.pendAns.length = 0 || !(d.policyUp p) then d else
  (d.port p).seq.pendAns.foldl (fun d m => policyIn p m d) (d.modSeq p (fun x => { x with pendAns := [] }))

/-- After a change: the allocation where a demand changed, then the policies. -/
def settlePd (d : Dev) : Dev :=
  let d := reallocate d
  forEach d.usedPorts (fun p d => pdIdle p (policyBack p d)) d

/-- The outcome of a row that may change attachments, contracts, limits or demands. -/
def runP (f : Dev → Dev) (s : State) : Outc := run (fun d => settlePd (f d)) s

/-- R311: a transmission that waits for SinkTxOk is cancelled by a message of the partner; the policy begins it again, unless the
partner's PR_Swap prevails over an own one (R323). -/
def cancelWait (p : Nat) (m : PdMsg) (d : Dev) : Dev :=
  let x := d.port p
  match x.seq.wait with
  | none => d
  | some w =>
    if !x.isSink || x.pd.partnerRev != 2 || (w == .prSwap && m == .prSwap) then d else
    d.modSeq p (fun y => { y with wait := none, newRdo := none, req := y.req.map (fun r => { r with begun := false }) })

/-- BIST in vSafe5V only (R308, R315). -/
def bistIn (p : Nat) (carrier : Bool) (d : Dev) : Dev :=
  if (d.port p).pd.contract && (d.port p).pd.mv != 5000 then d else emit (.bist (toPort p) carrier) d

/-- A valid message on SOP* (R308): GoodCRC, duplicates dropped, then the hardware, the policy, or the wait for the PPE. -/
def messageIn (p : Nat) (so : Sop) (rev3 : Bool) (id : Nat) (m : PdMsg) (d : Dev) : Dev :=
  let x := d.port p
  let waits := !(d.policyUp p) || x.seq.pendAns.length != 0
  if !x.tc.attached || !(d.pdOn p) || (so != .sop && !x.pd.vconn) then d
  -- R365: with 4 held, no GoodCRC
  else if so == .sop && waits && 4 ≤ x.seq.pendAns.length then d else
  let d := emit (.goodCrc (toPort p) so id) d
  if m == .softReset then softResetIn p so d
  else if tabFind x.seq.rxId (sopKey so) == some id then d
  else
    let d := d.modSeq p (fun y => { y with rxId := tabPut y.rxId (sopKey so) id })
    match so with
    | .sop =>
      let d := cancelWait p m (d.modPd p (fun y => { y with partnerRev := if rev3 then 2 else 1 }))
      if m == .drSwap then pdTx p .sop .reject d
      else if m == .bist true || m == .bist false then bistIn p (m == .bist true) d
      else if waits then
        let h := halfOfPort p
        (doIf (d.deviceFull h) (Dev.modEasel h (fun z => { z with heldEvents := z.heldEvents + 1 })) d).modSeq p
          (fun y => { y with pendAns := y.pendAns ++ [m] })
      else policyIn p m d
    | .sop1 => (match m with
      | .identityAckCable a v e c => cableIs p a v e c d
      | _ => d)
    | .sop2 => (match m with
      | .identityAckCable _ _ _ c => d.modPd p (fun y => { y with cableActive := y.cableActive || c })
      | _ => d)

end Sys2Proof.Machine
end

