-- ==== Sys2Proof/Machine/SliceRows.lean ====
section
/-! DEFINITION. The rows of the manager operations and of fences (R268 to R294, R45); slice limits of SOURCE_LIMIT end with them
(R330), so the policies settle after each. -/
namespace Sys2Proof.Machine

def execSliceCreate (p : Path) (b : OpBlock) (s : State) : Outc := runP (entered p false (managerOp p 0x40 b [])) s
def execSliceQuiesce (p : Path) (b : OpBlock) (s : State) : Outc := runP (entered p false (managerOp p 0x41 b [])) s
def execSliceFence (p : Path) (b : OpBlock) (s : State) : Outc := runP (entered p false (managerOp p 0x42 b [])) s
def execSliceFreeze (p : Path) (b : OpBlock) (s : State) : Outc := runP (entered p false (managerOp p 0x43 b [])) s
def execSliceRehome (p : Path) (b : OpBlock) (s : State) : Outc := runP (entered p false (managerOp p 0x44 b [])) s
def execSliceThaw (p : Path) (b : OpBlock) (s : State) : Outc := runP (entered p false (managerOp p 0x45 b [])) s
def execSliceExport (p : Path) (b : OpBlock) (s : State) : Outc := runP (entered p false (managerOp p 0x46 b [])) s
def execSliceImport (p : Path) (b : OpBlock) (image : List Dword) (s : State) : Outc := runP (entered p false (managerOp p 0x47 b image)) s
def execSliceReset (p : Path) (b : OpBlock) (s : State) : Outc := runP (entered p false (managerOp p 0x48 b [])) s
def execSliceRemove (p : Path) (b : OpBlock) (s : State) : Outc := runP (entered p false (managerOp p 0x49 b [])) s
def execPortAssign (p : Path) (b : OpBlock) (s : State) : Outc := runP (entered p false (managerOp p 0x4A b [])) s

def execFenceReq (f : FuncId) (v : Dword) (s : State) : Outc := runP (fenceReq f v) s
def execFenceReqAll (f : FuncId) (v : Dword) (s : State) : Outc := runP (fenceReq f v) s

end Sys2Proof.Machine
end

