-- ==== Sys2Proof/Machine/TypeC.lean ====
section
/-! DEFINITION. The rows of the CC lines, VSNS and the PPE (R302 to R331, R204, R387): each one event or timer of a port. -/
namespace Sys2Proof.Machine

/-! ### CC lines and attach timers (R302, R305, R313) -/

/-- A change on the CC lines; SinkTxOk lets a waiting sequence begin (R311). -/
def ccChanged (p : Nat) (a b : CcTerm) (d : Dev) : Dev :=
  let d := tcNow p (d.modTc p (fun x => { x with cc1 := a, cc2 := b, debounced := false }))
  let x := d.port p
  match x.seq.wait with
  | some m => if x.isSink && x.tc.attachedCc == .rp30 && x.seq.pendAns.isEmpty then pdSend p m (d.modSeq p (fun y => { y with wait := none })) else d
  | none => d
def execCcChange (p : PortId) (cc1 cc2 : CcTerm) (s : State) : Outc := runP (ccChanged p cc1 cc2) s

def toggle (p : Nat) (d : Dev) : Dev :=
  if d.gesso.level != 0 then d else
  match (d.port p).tc.st with
  | .unattachedSnk => tcNow p (tcGo p .unattachedSrc d)
  | .unattachedSrc => tcNow p (tcGo p .unattachedSnk d)
  | _ => d
def execTdrpToggle (p : PortId) (s : State) : Outc := runP (toggle p) s

def execTccdebounceExpiry (p : PortId) (s : State) : Outc :=
  runP (fun d => tcHeld p (match (d.port p).tc.st with
    | .attachWaitSnk | .attachWaitSrc | .tryWaitSnk => d.modTc p (fun x => { x with debounced := true })
    | _ => d)) s

/-- Open for tPDDebounce. -/
def openHeld (p : Nat) (d : Dev) : Dev :=
  let x := (d.port p).tc
  match x.st with
  | .attachWaitSnk | .tryWaitSnk => if x.bothOpen then tcGo p .unattachedSnk d else d
  | .audioAccessory | .debugAccessorySrc =>
    if x.bothOpen && !x.waitSafe0V then endAttach p 1 cDetached .unattachedSnk d else d
  | .attachedSrc => if x.attached && x.attachedCc == .opened then tcDetach p d else d
  | .attachedSnk => if x.attached && x.attachedCc == .opened && (d.port p).seq.trans then tcDetach p d else d
  | _ => d
def execTpddebounceExpiry (p : PortId) (s : State) : Outc := runP (openHeld p) s

/-- tTryCCDebounce in a Try or TryWait state. -/
def tryHeld (p : Nat) (d : Dev) : Dev :=
  let x := (d.port p).tc
  match x.st with
  | .trySrc | .tryWaitSrc => if x.oneRd then enterSrc p d else d
  | .trySnk =>
    if !x.tdrpTry then d
    else if x.anyRp then tcHeld p (d.modTc p (fun x => { x with debounced := true }))
    else tcGo p .tryWaitSrc d
  | _ => d
def execTtryccdebounceExpiry (p : PortId) (s : State) : Outc := runP (tryHeld p) s

def drpTry (p : Nat) (d : Dev) : Dev :=
  let x := (d.port p).tc
  match x.st with
  | .trySrc => if x.anyRd then d else tcGo p .tryWaitSnk d
  | .trySnk => d.modTc p (fun x => { x with tdrpTry := true })
  | .tryWaitSrc => if x.anyRd then d else tcGo p .unattachedSnk d
  | _ => d
def execTdrptryExpiry (p : PortId) (s : State) : Outc := runP (drpTry p) s

def execTtrytimeoutExpiry (p : PortId) (s : State) : Outc :=
  runP (fun d => if (d.port p).tc.st == .trySrc then tcGo p .tryWaitSnk d else d) s
def execTerrorrecoveryExpiry (p : PortId) (s : State) : Outc :=
  runP (fun d => if (d.port p).tc.st == .errorRecovery then tcNow p (tcGo p .unattachedSnk d) else d) s

/-- VDD_CC rises: from Disabled to Unattached.SNK with active Rd (R305). -/
def execVddCcRise (p : PortId) (s : State) : Outc :=
  runP (fun d => if (d.port p).tc.st == .disabled then tryArm p (d.modTc p (fun x => { x with vbusSinceCc := true })) else d) s

/-! ### VSNS (R462) -/

/-- VBUS in mV of a conversion: 12 bits over 3.3 V at a divider of 16. -/
def vbusOf (code : BitVec 12) : Nat := code.toNat * 52800 / 4096

/-- vSafe5V after Attached.SRC: the buses of a data path leave Detached, and the cable is asked (R300, R306). -/
def safe5V (p : Nat) (d : Dev) : Dev :=
  let x := d.port p
  let d := openBuses p (d.modTc p (fun y => { y with busesOut := true }))
  if x.pd.vconn && d.policyUp p then askIdentity p d else d

/-- The end of a discharge, CLEAR_FAULT, and re-arming (R302, R338, R343). The limit of a discharge is 650 ms. -/
def vbusLow (p : Nat) (d : Dev) : Dev :=
  let x := (d.port p).tc
  let zero := x.vbusMv < 800
  let d := if zero && (x.waitSafe0V || x.discharging.isSome) then reachSafe0V p d
    else if x.discharging.any (fun t => t + 21300 ≤ d.now) then d.modTc p (fun y => { y with discharging := none }) else d
  let d := if zero && x.clearDue then stageCmd p 9 0 (d.modTc p (fun y => { y with clearDue := false })) else d
  tryArm p d

/-- Detach by VBUS: outside the window of a transition for 10 samples of 1 µs, or below a sink's threshold (R313, R326). -/
def vbusDetach (p : Nat) (top : Bool) (d : Dev) : Dev :=
  let x := d.port p
  let v := x.tc.vbusMv
  if !x.tc.attached then d
  else if x.seq.trans then
    if top || v < x.seq.transLo || x.seq.transHi < v then
      if 9 ≤ x.tc.outSamples then tcDetach p d else d.modTc p (fun y => { y with outSamples := y.outSamples + 1 })
    else d.modTc p (fun y => { y with outSamples := 0 })
  else if x.isSink && v < (if x.pd.contract && x.pd.mv != 5000 then x.pd.mv * 4 / 5 else 3670) then tcDetach p d
  else d

/-- What waits for a VBUS level: a ramp, a swap, a Hard_Reset (R321, R324, R326). -/
def vbusStep (p : Nat) (d : Dev) : Dev :=
  let x := d.port p
  let v := x.tc.vbusMv
  if !x.tc.attached then d
  else if x.tc.source && !x.tc.busesOut && 4750 ≤ v then safe5V p d
  else if x.seq.ramping && x.seq.newMv * 95 ≤ v * 100 && v * 100 ≤ x.seq.newMv * 105 then
    pdTx p .sop .psRdy (d.modSeq p (fun y => { y with ramping := false }))
  else match x.seq.swap, x.seq.hr with
    | .toSinkDischarge, _ => if v < 800 then swapAtZero p d else d
    | .toSourceRamp, _ => if 4750 ≤ v then pdTx p .sop .psRdy (d.modSeq p (fun y => { y with swap := .toSourceSent })) else d
    | _, .discharge => if v < 800 then d.modSeq p (fun y => { y with hr := .recover }) else d
    | _, .restore =>
      if 4750 ≤ v then
        let d := d.modSeq p (fun y => { y with hr := .none, trans := false })
        pdSend p (d.capsMsg p) d
      else d
    | _, _ => d

def vsns (p : Nat) (code : BitVec 12) (d : Dev) : Dev :=
  let v := vbusOf code
  let d := d.modTc p (fun x => { x with vbusMv := v, vbusSinceCc := x.vbusSinceCc && 4000 < v })
  tcHeld p (vbusStep p (vbusDetach p (code.toNat = 4095) (vbusLow p d)))
def execVsnsSample (p : PortId) (code : BitVec 12) (s : State) : Outc := runP (vsns p code) s

/-! ### Messages and the protocol layer (R308 to R312) -/

def execPdMessageReceived (p : PortId) (so : Sop) (rev3 : Bool) (id : Fin 8) (m : PdMsg) (s : State) : Outc :=
  runP (messageIn p so rev3 id.val m) s

def goodCrcIn (p : Nat) (so : Sop) (id : Nat) (d : Dev) : Dev :=
  match (d.port p).seq.tx with
  | some t => if t.so == so && t.id = id then pdSent p so t.msg (pdNext p d) else d
  | none => d
def execPdGoodcrcReceived (p : PortId) (so : Sop) (id : Fin 8) (s : State) : Outc := runP (goodCrcIn p so id.val) s

/-- No GoodCRC: two retries, then TX_FAILED. -/
def noGoodCrc (p : Nat) (so : Sop) (d : Dev) : Dev :=
  match (d.port p).seq.tx with
  | some t =>
    if t.so != so then d
    else if t.retries < 2 then
      emit (.pd (toPort p) so t.id t.msg) (d.modSeq p (fun x => { x with tx := some { t with retries := t.retries + 1 } }))
    else pdNext p (d.modPd p (fun x => { x with txFailed := x.txFailed + 1 }))
  | none => d
def execTreceiveExpiry (p : PortId) (so : Sop) (s : State) : Outc := runP (noGoodCrc p so) s

def execHardResetReceived (p : PortId) (s : State) : Outc :=
  runP (fun d => if d.pdOn p then hardReset p false d else d) s
def execCableResetReceived (p : PortId) (s : State) : Outc :=
  runP (Dev.modSeq p (fun x => { x with
    txId := tabPut (tabPut x.txId 1 0) 2 0, rxId := tabDel (tabDel x.rxId 1) 2 })) s

def execTsinktxExpiry (p : PortId) (s : State) : Outc :=
  runP (fun d => match (d.port p).seq.wait with
    | some m => if (d.port p).tc.source then pdSend p m (d.modSeq p (fun x => { x with wait := none })) else d
    | none => d) s

def execPpeAutoAnswer (p : PortId) (s : State) : Outc :=
  runP (fun d => match (d.port p).seq.pendAns with
    | m :: r => ppeAnswer p m (d.modSeq p (fun x => { x with pendAns := r }))
    | [] => d) s

/-! ### Timers of the policy (R306, R307, R314, R321, R324, R325, R329) -/

/-- No answer within tSenderResponse. -/
def noAnswerIn (p : Nat) (d : Dev) : Dev :=
  let x := d.port p
  match x.seq.expect with
  | .request => if x.pd.contract then hardReset p true d else d.modSeq p (fun y => { y with expect := .none })
  | .answer | .swapAnswer =>
    finishPd p cNotPermitted 6 (d.modSeq p (fun y => { y with expect := .none, swap := .none, newRdo := none }))
  | .softAccept => hardReset p true d
  | .sinkCaps | .status => d.modSeq p (fun y => { y with expect := .none })
  | _ => d
def execTsenderresponseExpiry (p : PortId) (s : State) : Outc := runP (noAnswerIn p) s

/-- tSrcTransition: the source voltage change, or the swap step, begins. -/
def srcTransition (p : Nat) (d : Dev) : Dev :=
  let x := d.port p
  if x.seq.swap == .toSinkWaitTransition then
    let d := stageOff p (d.modSeq p (fun y => { y with swap := .toSinkDischarge }))
    if x.tc.vbusMv < 800 then swapAtZero p d else d
  else if x.tc.source && x.seq.trans && x.seq.newRdo.isSome && !x.seq.ramping && x.seq.hr == .none then
    stageVoltage p x.seq.newMv (d.modSeq p (fun y => { y with ramping := true }))
  else d
def execTsrctransitionExpiry (p : PortId) (s : State) : Outc := runP (srcTransition p) s

def swapTimeout (p : Nat) (at_ : SwapSt) (d : Dev) : Dev := if (d.port p).seq.swap == at_ then errorRecovery p d else d
def execTpssourceoffExpiry (p : PortId) (s : State) : Outc := runP (swapTimeout p .toSourceWaitPsRdy) s
def execTpssourceonExpiry (p : PortId) (s : State) : Outc := runP (swapTimeout p .toSinkWaitPsRdy) s

/-- The new source sends its capabilities. -/
def execTswapsourcestartExpiry (p : PortId) (s : State) : Outc :=
  runP (fun d =>
    let x := d.port p
    if x.tc.source && !x.pd.contract && x.pd.capsSent = 0 && x.seq.idle then pdSend p (d.capsMsg p) d else d) s
def execTtypecsendsourcecapExpiry (p : PortId) (s : State) : Outc := runP (capsAgain p) s
def execTfirstsourcecapExpiry (p : PortId) (s : State) : Outc :=
  runP (fun d =>
    let x := d.port p
    if x.tc.source && x.tc.busesOut && !x.pd.contract && x.pd.capsSent = 0 then
      firstCaps p (d.modPd p (fun y => { y with capsDue := true }))
    else d) s

/-- Discover Identity on SOP′, three attempts. -/
def identityTimeout (p : Nat) (d : Dev) : Dev :=
  let x := d.port p
  if !x.pd.vconn || x.pd.idDone || x.pd.idAttempts = 0 then d
  else if x.pd.idAttempts < 3 then askIdentity p d
  else firstCaps p (d.modPd p (fun y => { y with idDone := true }))
def execTdiscoveridentityExpiry (p : PortId) (s : State) : Outc := runP (identityTimeout p) s

def execTvconnsourceonExpiry (p : PortId) (s : State) : Outc :=
  runP (fun d => if (d.port p).seq.expect == .vconnPsRdy then hardReset p true d else d) s

/-- The repeat after a Wait (R329). -/
def execTsinkrequestExpiry (p : PortId) (s : State) : Outc :=
  runP (fun d => match (d.port p).seq.again with
    | some m => pdBegin p m (d.modSeq p (fun x => { x with
        again := none, req := x.req.map (fun r => { r with repeated := r.repeated || r.begun }) }))
    | none => d) s

/-- The partner stays silent after a Hard_Reset. -/
def execTnoresponseExpiry (p : PortId) (s : State) : Outc :=
  runP (fun d =>
    if (d.port p).seq.hr != .sinkWait then d else
    let d := d.modSeq p (fun x => { x with hr := .none, trans := false })
    if 2 ≤ (d.port p).pd.hrCount then errorRecovery p d else d) s

/-! ### Timers of the PPE (R314, R324) -/

def execTpshardresetExpiry (p : PortId) (s : State) : Outc :=
  runP (fun d =>
    let x := d.port p
    if x.seq.hr == .waitOff && x.tc.source then
      stageOff p (d.modSeq p (fun y => { y with hr := if x.tc.vbusMv < 800 then .recover else .discharge }))
    else d) s
def execTsrcrecoverExpiry (p : PortId) (s : State) : Outc :=
  runP (fun d =>
    if (d.port p).seq.hr == .recover then
      stageSource p 5000 (limitOf (d.rpMa p)) (d.modSeq p (fun y => { y with hr := .restore }))
    else d) s
def execThardresetcompleteExpiry (p : PortId) (s : State) : Outc := runP (hardResetDone p) s
def execTchunksenderresponseExpiry (p : PortId) (s : State) : Outc := runP (Dev.modSeq p (fun x => { x with chunks := 0 })) s

/-- The contract is on a PPS object. -/
def Pd.onPps (x : Pd) : Bool := x.contract && (match x.offer[x.obj - 1]? with | some (.pps _ _ _) => true | _ => false)
def execTppstimeoutExpiry (p : PortId) (s : State) : Outc :=
  runP (fun d => if (d.port p).tc.source && (d.port p).pd.onPps then hardReset p true d else d) s
def execTsourceeprkeepaliveExpiry (p : PortId) (s : State) : Outc :=
  runP (fun d => if (d.port p).tc.source && (d.port p).pd.epr then hardReset p true d else d) s
def execTvbusonExpiry (p : PortId) (s : State) : Outc :=
  runP (fun d =>
    let x := d.port p
    if x.seq.swap == .toSourceRamp || (x.tc.source && !x.tc.busesOut) then errorRecovery p d else d) s

/-! ### Restart of a PPE (R327, R387) -/

def ppeReset (p : Nat) (d : Dev) : Dev :=
  if (d.port p).tc.ppeHeld then d else
  let d := outageStart p (raise { c := 41, inst := p, half := halfOfPort p } d)
  let d := d.modPort p (fun x => { x with
    seq := { req := x.seq.req }, tc := { x.tc with ppeRestart := true }, pd := { x.pd with sinkTxNg := false } })
  detachBuses p 8 cDetached 0 (finishPd p cNotPermitted 6 d)
def execPpeRestart (p : PortId) (s : State) : Outc := runP (ppeReset p) s

/-- The restart ends: the attached state that the CC lines show, and Soft_Reset; or it failed, for the second time within 600 s
the port is held. -/
def ppeRestarted (p : Nat) (ok : Bool) (d : Dev) : Dev :=
  let x := d.port p
  if !x.tc.ppeRestart then d
  else if ok then
    let d := outageEnd p (d.modTc p (fun y => { y with ppeRestart := false }))
    let src := x.tc.source && x.tc.attachedCc == .rd
    if src || (x.isSink && isRp x.tc.attachedCc) then
      let d := doIf src (openBuses p) d
      if x.pd.partnerRev != 0 then pdBegin p .softReset d else d
    else if x.tc.attached then tcDetach p d
    else tryArm p d
  else
    let now := d.now
    let fails := x.tc.ppeFailAt.filter (fun t => now < t + 600 * Config.gessoHz) ++ [now]
    let d := d.modTc p (fun y => { y with ppeFailAt := fails })
    if fails.length < 2 then d else
    let d := raise { c := 42, inst := p, half := halfOfPort p } (d.modPort p (fun y => { y with
      outageFrom := none, tc := { y.tc with ppeHeld := true, ppeRestart := false } }))
    tcDisable p 8 cDetached d
def execPpeRestartEnd (p : PortId) (ok : Bool) (s : State) : Outc := runP (ppeRestarted p ok) s

/-! ### PORT_POWER_CYCLE (R204) -/

def cycleAct (n q : Nat) (i : Dword) (p : Nat) (e : List Dword) (d : Dev) : Dev :=
  if !(d.port p).tc.source then finishWe n q i cNotPermitted {} d else
  let d := (waitEnt n q i 2 0 d).modPort p (fun x => { x with
    bus := { x.bus with op := some { opcode := 0x13, slice := n, wq := q, idx := i, offTime := bitsOf (dwAt e 4) 15 0 } }
    tc := { x.tc with offTimeHold := true } })
  tcDisable p 3 cDetached d
def execPortPowerCycle (n : SliceId) (wq : Nat) (i : Dword) (s : State) : Outc :=
  runP (onPort 0x13 n wq i (cycleAct n.val wq i)) s
def execPowerCycleOffEnd (p : PortId) (s : State) : Outc :=
  runP (fun d => if (d.port p).tc.offTimeHold then tryArm p (d.modTc p (fun x => { x with offTimeHold := false })) else d) s

/-! ### PD_REQUEST (R328 to R331) -/

/-- The first code that ends the request before any message, and its DETAIL; none where it goes on. -/
def pdCode (d : Dev) (p : Nat) (e : List Dword) : Option (Nat × Nat) :=
  let x := d.port p
  let act := bitsOf (dwAt e 4) 3 0
  let policy := fun sub => d.cfg (0x3100 + p) sub
  if !x.tc.attached then some (cDetached, 0)
  else if x.bus.resetRequired || x.seq.req.isSome then some (cNotPermitted, 0)
  else if act != 0 && !(d.selects p 0x0B (act - 1)) then some (cNotPermitted, 1)
  else if act != 0 && act != 4 && (policy 3 = 0 || x.pd.partnerRev = 0) then some (cNotPermitted, 2)
  else if (act = 3 && !x.isSink) || (act = 5 && x.isSink) then some (cNotPermitted, 3)
  else if act = 0 || (act = 1 && x.isSink) || (act = 2 && !x.isSink) then some (cOk, 0)
  else if d.pgDrain p then some (cBusy, 0)
  else if (act = 1 || act = 2) && !(d.swapPermitted p) then some (cNotPermitted, 8)
  else if act = 3 && (policy 9 < 50 * bitsOf (dwAt e 5) 15 0 || policy 0x0A < 10 * bitsOf (dwAt e 5) 31 16 || !x.stage.sinkPath) then
    some (cNotPermitted, 8)
  else none

def pdAct (n q : Nat) (i : Dword) (e : List Dword) (d : Dev) : Dev :=
  match d.physPort n (wePort e) with
  | none => finishWe n q i cDetached {} d
  | some p =>
    match pdCode d p e with
    | some c => finishWe n q i c.1 (pdResult d p c.2) d
    | none =>
      let act := bitsOf (dwAt e 4) 3 0
      let d := if act = 4 then d.modPd p (fun x => { x with sliceLimit := bitsOf (dwAt e 6) 15 0 }) else d
      let d := if act = 5 then d.modPd p (fun x => { x with capsPend := true }) else d
      let x := d.port p
      if act = 4 && (x.isSink || !x.pd.contract || d.caps p == x.pd.offer) then finishWe n q i cOk (pdResult d p 0) d else
      (waitEnt n q i 2 0 d).modSeq p (fun y => { y with
        req := some {
          action := act, slice := n, wq := q, idx := i
          mv := 50 * bitsOf (dwAt e 5) 15 0, ma := 10 * bitsOf (dwAt e 5) 31 16 } })
def execPdRequest (n : SliceId) (wq : Nat) (i : Dword) (s : State) : Outc :=
  runP (onEntry 0x14 n wq i (pdAct n.val wq i)) s

/-- ROLE_REQ of the manager takes effect at its commit (R333, R322). -/
def roleReq (p v : Nat) (d : Dev) : Dev :=
  let x := d.port p
  if x.tc.attached && x.seq.req.isNone && (v = 1) != x.isSink && x.pd.partnerRev != 0 && d.swapPermitted p then
    d.modSeq p (fun y => { y with req := some { action := v, byManager := true } })
  else d

end Sys2Proof.Machine
end

