-- ==== Sys2Proof/Machine/Stages.lean ====
section
/-! DEFINITION. Stage responses and faults (R339 to R344), the STOP lines (R345 to R347), and the rows of the power allocation
(R351 to R353). -/
namespace Sys2Proof.Machine

/-! ### Polls (R340, R341) -/

/-- The polls of one interval: current of every present stage, and one of temperature or faults in rotation. -/
def pollGroup (g : Nat) (d : Dev) : Dev :=
  let here := (List.range 8).filter (fun k => (d.port (8 * g + k)).stage.present)
  if here.isEmpty || !(d.pslOn g) then d else
  let d := forEach here (fun k => pslSend g (pslFrame k 8 0)) d
  let r := (d.pg g).rot
  let k := here.getD (r / 2 % here.length) 0
  pslSend g (pslFrame k 8 (2 + r % 2)) (d.modPg g (fun x => { x with rot := (r + 1) % (2 * here.length) }))
def execPslWatchPoll (g : GroupId) (s : State) : Outc :=
  runP (fun d => if d.gesso.level = 2 then pollGroup g d else d) s

/-! ### Faults (R339, R343) -/

/-- A stage fault, or a lost stage: the attachment ends, and the port is held in Disabled. -/
def stageFault (p flags : Nat) (lost : Bool) (d : Dev) : Dev :=
  let x := (d.port p).tc
  let d := d.modStage p (fun x => { x with flags := BitVec.ofNat 8 flags, lost := lost })
  -- the same fault, polled again before its CLEAR_FAULT
  if x.st == .disabled && x.clearDue then d else
  let d := raise { c := if lost then 130 else 129, inst := p, detail := some flags, half := halfOfPort p } d
  let d := stageOff p d
  if x.st == .disabled then
    (if x.vbusMv < 800 then stageCmd p 9 0 d else d.modTc p (fun y => { y with clearDue := true }))
  else
  let now := d.now
  let near := (d.port p).tc.faultAt.filter (fun t => now < t + 60 * Config.gessoHz) ++ [now]
  let zero := (d.port p).tc.vbusMv < 800
  let d := d.modTc p (fun x => { x with
    faultAt := near, retryHold := true, clearDue := !zero, faultHold := x.faultHold || 4 ≤ near.length })
  let d := if 4 ≤ near.length then raise { c := 131, inst := p, half := halfOfPort p } d else d
  let d := if zero then stageCmd p 9 0 d else d
  tcDisable p 10 cDetached d

/-- A transaction to stage k ended: with a frame, or without a start bit (R335, R339). -/
def pslAnswer (g k : Nat) (fr : Option Dword) (d : Dev) : Dev :=
  match (d.pg g).frames with
  | [] => d
  | f :: _ =>
    if frameAddr f != k then d else
    let p := 8 * g + k
    let x := (d.port p).stage
    match fr.filter (fun r => frameOk r && frameAddr r == k && frameCmd r != 2) with
    | some r =>
      let d := pslNext g (d.modStage p (fun x => { x with fails := 0, lost := false }))
      if frameCmd f = 8 && (frameCmd r = 0 || frameCmd r = 3) then
        if frameArg f = 0 then
          d.modPort p (fun y => { y with stage := { y.stage with
            curMa := 10 * frameArg r, samples := (y.tc.vbusMv * (10 * frameArg r) / 1000 :: y.stage.samples).take 8 } })
        else if frameArg f = 3 && frameArg r != 0 then stageFault p (frameArg r % 256) false d
        else d
      else d
    | none =>
      let d := d.modPg g (fun y => { y with pslFailures := y.pslFailures + 1 })
      if x.fails < 2 then emit (.psl (toPg g) f) (d.modStage p (fun y => { y with fails := y.fails + 1 }))
      else
        let d := d.modStage p (fun y => { y with fails := 0 })
        let d := d.modPg g (fun y => { y with frames := f :: (y.frames.drop 1).filter (fun r => frameAddr r != k) })
        pslNext g (if x.lost then d else stageFault p 16 true d)
def execPslResponse (g : GroupId) (k : Fin 8) (frame : Option Dword) (s : State) : Outc := runP (pslAnswer g.val k.val frame) s

/-- PSL_AL falls: channel 3 of every stage of the group (R342). -/
def execPslAlert (g : GroupId) (s : State) : Outc :=
  runP (fun d =>
    let d := d.modPg g (fun x => { x with alerts := x.alerts + 1 })
    forEach (List.range 8) (fun k d =>
      if (d.port (8 * g.val + k)).stage.present then pslSend g (pslFrame k 8 3) d else d) d) s

def execFaultRetryExpiry (p : PortId) (s : State) : Outc :=
  runP (fun d => if (d.port p).tc.retryHold then tryArm p (d.modTc p (fun x => { x with retryHold := false })) else d) s

/-- FAULT_CLEAR at its commit (R343, R347). -/
def faultClear (g mask : Nat) (d : Dev) : Dev :=
  forEach ((List.range 8).filter (fun k => mask / 2 ^ k % 2 == 1)) (fun k d =>
    tryArm (8 * g + k) (d.modTc (8 * g + k) (fun x => { x with faultHold := false, faultAt := [] }))) d

/-- 60 ms after a decrease with no new contract: the limit at 110 % of P_port divided by the contract voltage (R344). -/
def execIlimitClipTimer (p : PortId) (s : State) : Outc :=
  runP (fun d =>
    let x := d.port p
    if x.pd.contract && (x.stage.lowered || d.pPort p * 1000 < x.pd.mv * x.pd.ma) then
      stageLimit p (d.pPort p * 1100 / x.pd.mv) (d.modStage p (fun y => { y with lowered := false }))
    else d) s

/-! ### STOP lines (R345 to R347) -/

/-- STOP_N of the group is to be low. -/
def Dev.stopDue (d : Dev) (g : Nat) : Bool :=
  (d.pg g).stop || !d.gesso.forceSafeN || d.start.st == 2 || d.gesso.level == 3 || !d.gesso.clock ||
    (d.start.st == 1 && d.start.type == 1 && (d.pg g).stopLow)

/-- STOP_STATE (R347); where several hold, the lowest code. -/
def Dev.stopState (d : Dev) (g : Nat) : Nat :=
  if (d.pg g).stop then 1 else if !d.gesso.forceSafeN then 2 else if d.start.st = 2 then 3 else 0

/-- Every port of a group to Disabled: stages open their paths, buses Detached, contracts end. -/
def disablePorts (g cause code : Nat) (d : Dev) : Dev :=
  forEach (List.range 8) (fun k d =>
    let now := d.now
    let d := d.modPort (8 * g + k) (fun x => { x with
      tc := { x.tc with discharging := if x.tc.vbusMv < 800 then none else some now } })
    tcDisable (8 * g + k) cause code d) d

/-- Drive STOP_N as it is to be. -/
def driveStop (g : Nat) (d : Dev) : Dev :=
  let low := d.stopDue g
  if low && !(d.pg g).stopLow then
    disablePorts g 10 cDetached (emit (.stopN (toPg g) true) (d.modPg g (fun x => { x with stopLow := true })))
  else if !low && (d.pg g).stopLow then
    forEach (List.range 8) (fun k => tryArm (8 * g + k)) (emit (.stopN (toPg g) false) (d.modPg g (fun x => { x with stopLow := false })))
  else d

/-- A write of STOP, by anyone (R3, R346). -/
def setStop (g : Nat) (on : Bool) (d : Dev) : Dev :=
  let d := if on && !(d.pg g).stop then raise { c := 162, inst := g, half := g / 12 } d else d
  driveStop g (journalPut (0x3200 + g) 2 (b2n on) (d.modPg g (fun x => { x with stop := on })))
def execStop (p : Path) (g : GroupId) (v : Byte) (s : State) : Outc :=
  runP (entered p false (fun d => if 1 < v.toNat then refuse p cNotPermitted 6 d else accept p (setStop g (v.toNat = 1) d))) s

def forceSafe (low : Bool) (d : Dev) : Dev :=
  if d.gesso.forceSafeN != low then d else
  let d := { d with gesso := { d.gesso with forceSafeN := !low } }
  forEach allGroups driveStop (if low then raise { c := 163 } d else d)
def execForceSafeNFall (s : State) : Outc := runP (forceSafe true) s
def execForceSafeNRise (s : State) : Outc := runP (forceSafe false) s

/-! ### Supply alert and allocation (R351 to R353) -/

/-- SUPPLY_ALERT_N outside Run is ignored: only its level is known when a start has allocated again (R452). -/
def execSupplyAlertFall (s : State) : Outc :=
  runP (fun d => if d.sys.alertLow then d else
    if d.gesso.level != 0 then { d with sys := { d.sys with alertLow := true } } else
    allocate (raise { c := 160 } { d with sys := { d.sys with
      alertLow := true, alertHold := true, alertCount := d.sys.alertCount + 1 } })) s
def execSupplyAlertRise (s : State) : Outc := runP (fun d => { d with sys := { d.sys with alertLow := false } }) s
def execAlertHoldExpiry (s : State) : Outc :=
  runP (fun d => if d.sys.alertLow then d else allocate { d with sys := { d.sys with alertHold := false } }) s
def execAllocationRun (s : State) : Outc := runP allocate s

end Sys2Proof.Machine
end

