-- ==== Sys2Proof/Machine/Power.lean ====
section
/-! DEFINITION. Power domains by request: port groups (R295, R432, R433), upstream ports (R296), Canvas banks (R209). -/
namespace Sys2Proof.Machine

/-! ### Port groups -/

/-- States of a bus that permit Port Sleep (R433). -/
def PortBus.sleeps (b : PortBus) : Bool :=
  (match b.usb2 with | .detached | .disconnected | .disabled | .suspended => true | _ => false) &&
  (match b.ss with | .detached | .rxDetect | .disabled | .u3 => true | _ => false)

/-- The group is on: its ports re-arm. -/
def groupOn (g st : Nat) (d : Dev) : Dev :=
  forEach (List.range 8) (fun k => tryArm (8 * g + k)) (d.modPg g (fun x => { x with req := st, st := st }))

def pgWrite (p : Path) (g v : Nat) (d : Dev) : Dev :=
  let x := d.pg g
  if x.st = 2 then refuse p cBusy 3 d
  else if v = 2 then
    if x.st = 3 then accept p d
    else journalPut (0x2120 + g) 1 2 (d.modPg g (fun x => { x with req := 2, st := 2, path := some p }))
  else if v = 1 && (List.range 8).any (fun k => !((d.port (8 * g + k)).bus.sleeps)) then refuse p cBusy 0 d
  else accept p (groupOn g v (journalPut (0x2120 + g) 1 v d))
def execPgOn (p : Path) (g : GroupId) (s : State) : Outc := runP (guarded p true (pgWrite p g 0)) s
def execPgSleep (p : Path) (g : GroupId) (s : State) : Outc := runP (guarded p true (pgWrite p g 1)) s
def execPgOff (p : Path) (g : GroupId) (s : State) : Outc := runP (guarded p true (pgWrite p g 2)) s

/-- The group powers down: ports detached with CAUSE 4, stages off, contracts ended (R295). The commands that wait for the stages go
out first, and the polls with them end. -/
def groupOff (g : Nat) (d : Dev) : Dev :=
  let d := forEach (List.range 8) (fun k => tcDisable (8 * g + k) 4 cDomainOff) d
  let d := forEach (((d.pg g).frames.drop 1).filter (fun f => frameRank f != 2)) (fun f => emit (.psl (toPg g) f)) d
  d.modPg g (fun x => { x with st := 3, frames := [] })

def drainEnd (g : Nat) (d : Dev) : Dev :=
  match (d.pg g).path with
  | none => d
  | some p => accept p ((groupOff g d).modPg g (fun x => { x with path := none }))
def execPgDrainEnd (g : GroupId) (s : State) : Outc := runP (drainEnd g) s

def execPortSleepWake (g : GroupId) (s : State) : Outc :=
  runP (fun d => if (d.pg g).st = 1 || (d.pg g).st = 4 then journalPut (0x2120 + g.val) 1 0 (d.modPg g (fun x => { x with st := 0, req := 0 })) else d) s

/-! ### Upstream ports -/

def upOnWrite (p : Path) (u : Nat) (d : Dev) : Dev :=
  let x := d.func u
  if x.upState = 2 then refuse p cBusy 3 d
  else if x.upState = 0 then accept p d
  else accept p (emit (.linkPower (toFunc u) true) (journalPut (0x2140 + u) 1 0 (d.modFunc u (fun x => { x with upReq := 0, upState := 0 }))))
def execUpOn (p : Path) (u : FuncId) (s : State) : Outc := run (guarded p true (upOnWrite p u)) s

/-- The port powers down: its link is lost (R27, R246). -/
def upPowerDown (u : Nat) (d : Dev) : Dev :=
  let path := (d.func u).upPath
  let d := d.modFunc u (fun x => { x with upState := 3, upPath := none })
  let d := emit (.linkPower (toFunc u) false) (linkDown u d)
  match path with
  | some p => accept p d
  | none => d

/-- Something that was started on the port still runs. -/
def Dev.upBusy (d : Dev) (u : Nat) : Bool :=
  d.boundSlices.any (fun n =>
    (d.members (d.slice n).group).contains u &&
      ((d.eng n).unconf.any (fun w => w.f == u) || (d.eng n).reads.any (fun r => r.f == u) ||
        (d.liveEps n).any (fun e => (d.ep n e.1 e.2).xfer.any (fun x => x.started && x.link == some u))))

/-- A draining port with nothing left powers down. -/
def upDrained (u : Nat) (d : Dev) : Dev := if (d.func u).upState = 2 && !(d.upBusy u) then upPowerDown u d else d

def upOffWrite (p : Path) (u : Nat) (d : Dev) : Dev :=
  let x := d.func u
  let other := d.peer u
  if x.upState = 2 then refuse p cBusy 3 d
  else if x.upState = 3 then accept p d
  else
    let go := journalPut (0x2140 + u) 1 2 (d.modFunc u (fun x => { x with upReq := 2, upState := 2, upPath := some p }))
    match d.groupOf u with
    | none => upPowerDown u go
    | some g =>
      if d.hgSt g == .proven && other.any (fun m => (d.func m).linkUp && (d.func m).upState = 0) then upDrained u go
      else if (d.boundTo g).any (fun n => match (d.slice n).st with
          | .quiesced | .frozen | .quiescedFenced | .free => false
          | _ => true) then refuse p cNotQuiesced 0 d
      else upPowerDown u go
def execUpOff (p : Path) (u : FuncId) (s : State) : Outc := run (guarded p true (upOffWrite p u)) s

def execUpDrainDeadlineExpiry (u : FuncId) (s : State) : Outc :=
  run (fun d => if (d.func u).upState = 2 then upPowerDown u d else d) s

/-! ### Canvas banks -/

/-- BANK_OFF_REQ: refused whole for a carved bank; a bank requested on is on (R209, R432). -/
def bankWrite (p : Path) (h : Nat) (mask : BitVec 16) (d : Dev) : Dev :=
  let x := d.half h
  if (List.range 16).any (fun b => bitOf mask b && 0 < x.inBank b) then refuse p cBusy 0 d else
  let d := journalPut (0x2150 + h) 1 mask.toNat d
  let d := d.modHalf h (fun x => { x with bankReq := mask, bankOn := ~~~mask, bankWait := x.bankWait.filter (fun b => bitOf mask b) })
  accept p (forEach d.sliceNums carves d)
def execBankOffReq (p : Path) (h : HalfId) (mask : BitVec 16) (s : State) : Outc := run (guarded p true (bankWrite p h mask)) s

end Sys2Proof.Machine
end

