-- ==== Sys2Proof/Machine/Easel.lean ====
section
/-! DEFINITION. The Limner cores and the Easel dispatcher (R356 to R366), live update (R367 to R369), and the builder's
restarts (R370, R375). -/
namespace Sys2Proof.Machine

/-! ### Descriptors and lists (R357 to R360) -/

def Task.prio (t : Task) : Nat := bitsOf (t.dws.getD 0 0) 18 16
def Task.target (t : Task) : Nat := bitsOf (t.dws.getD 0 0) 23 20
def Task.handle (t : Task) : Dword := w32 (t.slot + 4096 * t.gen)

def isBuilder (c : Nat) : Bool := c % 6 == 5
def Dev.coreUp (d : Dev) (c : Nat) : Bool := (d.core c).st == 1

/-- The task core of slice n (R237, R238). -/
def Dev.taskCore (d : Dev) (n : Nat) : Nat := if d.S = 1 || 1 < (d.slice n).half then 0xFF else 6 * (d.slice n).half + n % 5

/-- The task core of a port that no slice owns, and of every port at S = 1 (R237, R356). -/
def portCore (p : Nat) : Nat := 6 * halfOfPort p + p % 5

/-- The core of a device task that concerns port p (R356). -/
def Dev.portTaskCore (d : Dev) (p : Nat) : Nat := if d.S = 1 || d.S ≤ d.owner p then portCore p else d.taskCore (d.owner p)

/-- Kinds of task (R360). -/
inductive TaskKind where
  | integrity | ppeRecovery
  | pdAnswer | transitionStep
  | attach | detach | stageAlert | supplyAlert
  | sliceWork | addressChoice | portPolicy
  | exceptionReport
  | dictionary | herob | adminWindow | builderForward
  | allocationRun | statistics
  | liveUpdate | scrubReport
deriving DecidableEq, Repr

/-- The level at which a kind of task is posted (R360). -/
def taskLevel : TaskKind → Nat
  | .integrity | .ppeRecovery => 0
  | .pdAnswer | .transitionStep => 1
  | .attach | .detach | .stageAlert | .supplyAlert => 2
  | .sliceWork | .addressChoice | .portPolicy => 3
  | .exceptionReport => 4
  | .dictionary | .herob | .adminWindow | .builderForward => 5
  | .allocationRun | .statistics => 6
  | .liveUpdate | .scrubReport => 7

/-- DW0 to DW3 of a device task of a hardware source: FUNC, level, core of the half, source, no slice and no port (R357). -/
def hwTask (kind : TaskKind) (source core : Nat) : List Dword :=
  [w32 ((Config.taskFunc source).toNat + 0x10000 * taskLevel kind + 0x100000 * core + 0xFF000000), w32 (0x1000000 * source), 0, 0xFFFF]

/-- The vendor core of the half that serves tasks for core i, by the redirection of R237. -/
def Dev.servedBy (d : Dev) (h i : Nat) : Option Nat :=
  ((List.range 5).map (fun k => (i + k) % 5)).find? (fun k => d.coreUp (6 * h + k))

/-- A task may run (R359): a slice's only while its CORE counter allows it. -/
def Dev.taskOk (d : Dev) (h : Nat) (t : Task) : Bool := t.slice == 255 || isBuilder t.target || !(d.spent t.slice 7 h)

/-- Core c (number i of half h) can take the task: its own lists and those redirected to it, and the 0xF lists. -/
def Dev.canTake (d : Dev) (h i : Nat) (t : Task) : Bool :=
  d.taskOk h t &&
    (if i = 5 then t.target == 5 else t.target == 15 || (t.target != 5 && d.servedBy h t.target == some i))

/-- The first task of the highest level among those that qualify; the list is in the order in which they became ready. -/
def firstTask (ok : Task → Bool) (l : List Task) : Option Task :=
  (l.filter ok).foldl (fun b t => match b with
    | none => some t
    | some x => if t.prio < x.prio then some t else some x) none

/-- A core whose TASK_TAKE waits receives a task (R361). -/
def giveTask (h i : Nat) (d : Dev) : Dev :=
  let c := 6 * h + i
  if !(d.core c).taking || !(d.coreUp c) then d else
  match firstTask (d.canTake h i) (d.half h).easel.ready with
  | none => d
  | some t =>
    let d := d.modEasel h (fun x => { x with ready := x.ready.erase t })
    emit (.task (toCore c) t.dws) (d.modCore c (fun x => { x with taking := false, cur := some t, window := t.dws, tasks := x.tasks + 1 }))

/-- The lower-numbered core is served first. -/
def giveTasks (h : Nat) (d : Dev) : Dev := forEach (List.range 6) (giveTask h) d

def take (c : Nat) (d : Dev) : Dev :=
  if !(d.coreUp c) || (d.core c).cur.isSome then d
  else giveTasks (c / 6) (d.modCore c (fun x => { x with taking := true }))
def execTaskTake (c : CoreId) (s : State) : Outc := run (take c) s

/-! ### Posts (R357, R361, R362, R364) -/

/-- INVALID: the core, the slice or a reserved bit (R357). -/
def Dev.postInvalid (d : Dev) (c : Nat) (w : List Dword) : Bool :=
  let h := c / 6
  let t := bitsOf (dwAt w 0) 23 20
  let n := bitsOf (dwAt w 0) 31 24
  let hosted := n < d.S && (d.slice n).st != .free && (d.S = 1 || (d.slice n).half = h)
  (if isBuilder c then t != 5 else !(t ≤ 4 || t == 15)) || (n != 255 && !hosted) || bitOf (dwAt w 0) 19 || bitsOf (dwAt w 3) 31 16 != 0

/-- The class that the task draws on is full (R364). -/
def Dev.postFull (d : Dev) (c : Nat) (w : List Dword) : Bool :=
  let h := c / 6
  let t : Task := { dws := w, slot := 0, gen := 0 }
  let src := bitsOf (dwAt w 1) 31 24
  let all := d.easelTasks h
  if isBuilder c then 128 ≤ (all.filter (fun x => x.target == 5)).length
  else if t.slice != 255 then d.sliceFull t.slice h
  else if src = 3 || src = 4 then
    128 ≤ (all.filter (fun x => x.slice == 255 && (bitsOf (dwAt x.dws 1) 31 24 = 3 || bitsOf (dwAt x.dws 1) 31 24 = 4))).length
  else d.deviceFull h

/-- Insert into the delay list: by due tick, in the order of the posts. -/
def insertDue (t : Task) : List Task → List Task
  | [] => [t]
  | x :: r => if t.due < x.due then t :: x :: r else x :: insertDue t r

/-- A descriptor takes a slot of half h and joins the list of its level or the delay list: its HANDLE, and the state. -/
def addTask (h : Nat) (w : List Dword) (d : Dev) : Dword × Dev :=
  let e := (d.half h).easel
  let used := (d.easelTasks h).map (fun t => t.slot)
  let slot := ((List.range 4096).find? (fun k => !(used.contains k))).getD 0
  let gen := tabGet 0 e.gens slot
  let hd := w32 (slot + 4096 * gen)
  let delay := bitsOf (dwAt w 1) 23 0
  let t : Task := { dws := w.set 2 hd, slot := slot, gen := gen, due := e.tick + delay }
  let d := d.modEasel h (fun e => { e with
    gens := tabPut e.gens slot ((gen + 1) % 2 ^ 20), peak := max e.peak (used.length + 1)
    ready := if delay = 0 then e.ready ++ [t] else e.ready, delay := if delay = 0 then e.delay else insertDue t e.delay })
  (hd, giveTasks h d)

/-- Post a descriptor: the status that TASK_POST reads, and the state. -/
def post357 (c : Nat) (w : List Dword) (d : Dev) : Nat × Option Dword × Dev :=
  if d.postInvalid c w then (2, none, d)
  else if d.postFull c w then (1, none, d)
  else
    let r := addTask (c / 6) w d
    (0, some r.1, r.2)

/-- TASK_POST reads its status; a posted descriptor has its HANDLE. -/
def postTask (c : Nat) (w : List Dword) (d : Dev) : Dev :=
  if !(d.coreUp c) then d else
  let r := post357 c w d
  let d := emit (.csr (toCore c) (w32 r.1)) r.2.2
  match r.2.1 with
  | some hd => emit (.csr (toCore c) hd) d
  | none => d
def execTaskPost (c : CoreId) (w : List Dword) (s : State) : Outc := run (postTask c w) s

/-- The task ends: its cycles are charged to its slice (R260). -/
def endTask (c cycles : Nat) (d : Dev) : Dev :=
  match (d.core c).cur with
  | none => d
  | some t =>
    let h := c / 6
    let d := d.modCore c (fun x => { x with cur := none })
    let d := if t.slice = 255 || isBuilder c then d else d.modPal t.slice (d.palKey 7 h) (fun p => p.charge false cycles)
    giveTasks h d

/-- TASK_YIELD: the continuation goes to the tail of its level with DELAY 0. -/
def yieldTask (c cycles : Nat) (w : List Dword) (d : Dev) : Dev :=
  if (d.core c).cur.isNone then d else
  let d := endTask c cycles d
  (post357 c (w.set 1 (dwAt w 1 &&& 0xFF000000)) d).2.2

/-- TASK_CANCEL (R363). -/
def cancelTask (c : Nat) (hd : Dword) (d : Dev) : Dev :=
  if !(d.coreUp c) then d else
  let h := c / 6
  let e := (d.half h).easel
  let r := if e.delay.any (fun t => t.handle == hd) then 0 else if e.ready.any (fun t => t.handle == hd) then 1 else 2
  let keep := fun (l : List Task) => l.filter (fun t => t.handle != hd)
  emit (.csr (toCore c) (w32 r)) (d.modEasel h (fun e => { e with delay := keep e.delay, ready := keep e.ready }))

/-- One 1 µs tick: tasks that fall due join the tails of their lists (R362). -/
def easelTick (h : Nat) (d : Dev) : Dev :=
  giveTasks h (d.modEasel h (fun e => { e with
    tick := e.tick + 1, ready := e.ready ++ e.delay.filter (fun t => t.due ≤ e.tick + 1)
    delay := e.delay.filter (fun t => e.tick + 1 < t.due) }))
def execEaselTick (h : HalfId) (s : State) : Outc := run (easelTick h) s

/-! ### Live update (R367 to R369) -/

/-- The partition that is not in use. -/
def Dev.inactive (d : Dev) : Nat := 1 - d.start.part
def Flash.st (x : Flash) (part : Nat) : Nat := if part = 0 then x.stA else x.stB
def Flash.ver (x : Flash) (part : Nat) : Dword := if part = 0 then x.verA else x.verB

def vendorCores : List Nat := [0, 1, 2, 3, 4, 6, 7, 8, 9, 10]

/-- The update ends with its state and code (R368, R369), a device event. -/
def updateEnd (st code : Nat) (d : Dev) : Dev :=
  let d := { d with update := { d.update with st := st, core := 0xFF, code := BitVec.ofNat 8 code, queue := [] } }
  raise { c := 195, code := code } d

/-- A start or a core restart meets an update: every core runs the image of the active partition (R369). -/
def updateCut (d : Dev) : Dev :=
  if d.update.st != 1 then d else
  let v := d.start.fwVersion
  let d := forEach vendorCores (fun c => Dev.modCore c (fun x => { x with version := v, st := if x.st = 3 then 1 else x.st })) d
  updateEnd 3 cNotPermitted d

/-- The next core of the update leaves service. -/
def updateNext (d : Dev) : Dev :=
  match d.update.queue with
  | [] => updateEnd 2 cOk d
  | c :: r =>
    ({ d with update := { d.update with core := c, queue := r } }).modCore c (fun x => { x with st := 3, taking := false })

/-- UPDATE_CMD (R367). -/
def updateCmd (p : Path) (cs : List Nat) (d : Dev) : Dev :=
  if d.update.st = 1 || (List.range 12).any (fun c => (d.core c).st = 2 || (d.core c).st = 3) then refuse p cBusy 3 d
  else if d.flash.st d.inactive != 3 || d.start.fwVersion.toNat < d.flash.minVersion.toNat || cs.any isBuilder then
    refuse p cNotPermitted 11 d
  else updateNext (accept p { d with update := { d.update with st := 1, queue := cs } })
def execUpdateCmdCore (p : Path) (c : CoreId) (s : State) : Outc := runP (guarded p true (updateCmd p [c.val])) s
def execUpdateCmdAll (p : Path) (s : State) : Outc := runP (guarded p true (updateCmd p vendorCores)) s

/-- The segment is loaded and checked (R368); with the last vendor core on it, the staged partition is the active one (R369); an
update of all cores ends with its last core, so that none is loaded from the other partition after the change. -/
def coreLoaded (c : Nat) (ok : Bool) (d : Dev) : Dev :=
  if d.update.st != 1 || d.update.core != c || (d.core c).st != 3 then d else
  let v := d.flash.ver d.inactive
  let last := d.update.queue.isEmpty
  if !ok then updateEnd 3 cIntegrity (giveTasks (c / 6) (d.modCore c (fun x => { x with st := 1 }))) else
  let d := giveTasks (c / 6) (d.modCore c (fun x => { x with st := 1, version := v }))
  let d := if last && vendorCores.all (fun k => (d.core k).version == v) then
      { d with start := { d.start with part := d.inactive, fwVersion := v } }
    else d
  updateNext d

/-! ### Wedged cores (R366, R375) -/

/-- A discarded task. SOURCE 5 on behalf of the PD_REQUEST of its PORT: that entry completes Integrity error. -/
def discardTask (t : Task) (d : Dev) : Dev :=
  let p := bitsOf (dwAt t.dws 3) 15 0
  if bitsOf (dwAt t.dws 1) 31 24 = 5 && p < 192 && (d.port p).seq.req.any (fun r => !r.byManager && r.slice = t.slice) then
    finishPd p cIntegrity 0 d
  else d

/-- The running task goes back to the head of its level once; a task that wedged a core before is discarded. -/
def requeue (c : Nat) (d : Dev) : Dev :=
  match (d.core c).cur with
  | none => d
  | some t =>
    let d := d.modCore c (fun x => { x with cur := none })
    if t.wedged = 0 && !(isBuilder c) then
      d.modEasel (c / 6) (fun e => { e with ready := { t with wedged := 1 } :: e.ready })
    else if isBuilder c then d else discardTask t d

/-- A core is wedged: no further task, reset and reload. -/
def wedge (c : Nat) (d : Dev) : Dev :=
  if (d.core c).st = 0 || (d.core c).st = 4 then d else
  let d := updateCut (requeue c d)
  let now := d.now
  let near := (d.core c).wedgeAt.filter (fun t => now < t + 600 * Config.gessoHz) ++ [now]
  let held := isBuilder c && 3 ≤ near.length
  let d := d.modCore c (fun x => { x with
    st := if held then 4 else 2, restarts := x.restarts + 1, taking := false, dictReq := none, dictBlocked := false
    wedgeAt := if isBuilder c then near else [] })
  let d := raise { c := 40, inst := c, half := c / 6 } d
  let d := if !(isBuilder c) then d else { d with update := { d.update with bState := if held || d.update.bState = 4 then 4 else 2 } }
  let d := if held then raise { c := 197, inst := c, half := c / 6 } d else d
  giveTasks (c / 6) d

/-- The core takes tasks again; its redirected tasks return. -/
def coreBack (c : Nat) (d : Dev) : Dev :=
  if (d.core c).st != 2 then d else
  let d := d.modCore c (fun x => { x with st := 1 })
  let d := if isBuilder c && (d.core 5).st = 1 && (d.core 11).st = 1 then { d with update := { d.update with bState := 1 } } else d
  giveTasks (c / 6) d

/-! ### The builder (R370, R372, R374, R375) -/

/-- The object of the builder image in use (R374). -/
def Dev.builderRow (d : Dev) (idx sub : Nat) : Option Obj :=
  if d.update.bState = 0 || d.update.bState = 3 then none else
  (Config.builderObj d.update.bVersion (okey idx sub)).map (fun r => {
    size := r.1
    acc := match r.2.1 with | 0 => .ro | 1 => .rw | 2 => .wo | _ => .const
    cls := match r.2.2.1 with | 1 => .l | 2 => .q | 3 => .b | _ => .none
    dflt := r.2.2.2.1, lo := r.2.2.2.2.1, hi := r.2.2.2.2.2 })

def isBuilderIdx (idx : Nat) : Bool := 0x8000 ≤ idx && idx ≤ 0x8FFF

/-- Load and check the builder image on both cores (R370): state of the cores, BUILDER_STATE, and an event where it is refused. -/
def loadBuilder (imageOk : Bool) (version : Dword) (st : Nat) (d : Dev) : Dev :=
  let on := d.cfg 0x7130 1 = 1
  let good := imageOk && Config.builderKeyFused
  let put := fun (k : Nat) (d : Dev) => forEach [5, 11] (fun c => Dev.modCore c (fun x => { x with
    st := k, cur := none, taking := false, dictReq := none, dictBlocked := false, wedgeAt := [], version := if k = 0 then x.version else version })) d
  let keep := fun (e : Easel) => { e with
    ready := e.ready.filter (fun t => t.target != 5), delay := e.delay.filter (fun t => t.target != 5) }
  let d := (d.modEasel 0 keep).modEasel 1 keep
  if !on then { put 0 d with update := { d.update with bState := 0 } }
  else if good then
    { put st d with update := { d.update with bState := if st = 1 then 1 else 2, bVersion := version } }
  else raise { c := 196 } { put 4 d with update := { d.update with bState := 3, bVersion := version } }

/-- A forwarded write that waits is refused as busy. -/
def refuseForwarded (d : Dev) : Dev :=
  match d.update.fwd with
  | none => d
  | some f => refuse f.1 cBusy 4 { d with update := { d.update with fwd := none } }

/-- BUILDER_RELOAD (R375). -/
def reloadBuilder (p : Path) (v : Nat) (imageOk : Bool) (version : Dword) (d : Dev) : Dev :=
  if v = 0 then accept p d else loadBuilder imageOk version 2 (refuseForwarded (accept p d))
def execBuilderReload (p : Path) (v : Byte) (imageOk : Bool) (version : Dword) (s : State) : Outc :=
  run (guarded p (v.toNat ≤ 1) (reloadBuilder p v.toNat imageOk version)) s

/-- EVENT_RAISE: a cause of 240 to 255 with the data of bits 31 to 8 (R372). -/
def builderEvent (c : Nat) (v : Dword) (d : Dev) : Dev :=
  if isBuilder c && d.coreUp c && 240 ≤ bitsOf v 7 0 then raise { c := bitsOf v 7 0, inst := bitsOf v 23 8, detail := some (bitsOf v 31 8), half := c / 6 } d
  else d
def execEventRaise (c : CoreId) (v : Dword) (s : State) : Outc := run (builderEvent c v) s

/-- OBJ_ANSWER: accept, or refuse with a builder code (R374). -/
def objAnswer (c code : Nat) (d : Dev) : Dev :=
  match d.update.fwd with
  | none => d
  | some f =>
    if !(isBuilder c && d.coreUp c) then d
    else if code = 0 then
      let k := (d.builderRow f.2.1 f.2.2.1).elim Cls.none (fun o => o.cls)
      accept f.1 (storeObj k f.2.1 f.2.2.1 (ofBytes f.2.2.2) { d with update := { d.update with fwd := none } })
    else if 0x80 ≤ code then refuse f.1 code 0 { d with update := { d.update with fwd := none } }
    else d
def execObjAnswer (c : CoreId) (code : Byte) (s : State) : Outc := run (objAnswer c code.toNat) s
def execObjAnswerTimeout (s : State) : Outc := run refuseForwarded s

end Sys2Proof.Machine
end

