-- ==== Sys2Proof/Machine/Start.lean ====
section
/-! DEFINITION. Starts (R30, R425, R426, R442 to R451, R453, R454), half warm restarts (R388), supplies and clocks (R425, R430,
R458, R467, R482), standby levels and wakes (R434 to R441, R459), firmware staging (R446), and the thermal trip (R478). -/
namespace Sys2Proof.Machine

/-! ### Retention and what a start clears (R425, R444, R453) -/

/-- The node ID in effect: an OTP override, else the straps; straps that read 0 give 127 (R453). -/
def sampleNode (d : Dev) : Dev :=
  let g := d.gesso
  if Config.otpNodeId != 0 then { d with gesso := { g with nodeId := Config.otpNodeId, nodeSource := 1 } }
  else if g.straps = 0 then raise { c := 7 } { d with gesso := { g with nodeId := 127, nodeSource := 2 } }
  else { d with gesso := { g with nodeId := g.straps, nodeSource := 0 } }

/-- A value of the journal, 0 where none is there. -/
def Dev.journalled (d : Dev) (idx sub : Nat) : Nat := tabGet (tabGet 0 d.dict.jold (okey idx sub)) d.dict.journal (okey idx sub)

/-- A SAVE that did not end leaves what was written before it in the journal. -/
def Dict.merge (x : Dict) : Dict := { x with journal := x.journal.foldl (fun t e => tabPut t e.1 e.2) x.jold, jold := [], next := [] }

/-- Parts of a link that Gesso holds. -/
def CanLink.gesso (x : CanLink) : CanLink :=
  { busOff := x.busOff, mini := x.mini, lastMini := x.lastMini, lastMiniResp := x.lastMiniResp, held := x.held }

/-- What both kinds of start clear: function registers, mailbox, engines of both halves, event counts, and the handshakes; the
requests of the power domains are those of the journal. A two-port group, which is Unproven then, carries traffic on both members: R27
names no lost member where no proof was ever made since the start (DESIGN CHOICE, log entry 68). -/
def clearCommon (d : Dev) : Dev :=
  -- a fence that the minimal responder waits for has taken effect with the reset
  let d := d.sys.fenceReqs.foldl (fun d r => match r.who with
    | .mini _ _ => if d.gesso.vdd || d.gesso.vsrv then fenceAnswer r.who d else d
    | _ => d) d
  let fs := tabMap (fun f (x : Func) => ({
    perstHigh := x.perstHigh, upReq := d.journalled (0x2140 + f) 1
    upState := if d.journalled (0x2140 + f) 1 = 2 then 3 else 0 } : Func)) d.funcs
  let two := [0, 1, 2, 3].filter (fun g => d.twoPort g && d.hgSt g != .unproven)
  let d := { d with
    dict := d.dict.merge, funcs := fs, groups := [], mbox := {}, memOps := d.memOps ++ [.clearMailbox], cores := [], sinopia := {}
    cans := tabMap (fun _ x => x.gesso) d.cans, events := { pending := d.events.pending }
    sys := { alertLow := d.sys.alertLow, alertHold := d.sys.alertHold }
    flash := { d.flash with stage := 0, save := 0, saving := none } }
  forEach two (fun g => raise { c := 68, inst := g }) d

/-- A half as a start finds it. Bit b of BANK_OFF_REQ keeps bank b off. -/
def freshHalf (d : Dev) (h : Nat) (x : Half) : Half :=
  let off := BitVec.ofNat 16 (d.journalled (0x2150 + h) 1)
  { bankReq := off, bankOn := ~~~off, tj := x.tj, tjPeak := x.tjPeak, clockLost := x.clockLost }

/-- Everything that a cold start does not keep (R444): only Gesso retention, the flash, and what the pins show stay. -/
def clearCold (d : Dev) : Dev :=
  let d := clearCommon d
  { d with
    slices := [], engs := [], update := {}
    ports := tabMap (fun _ (x : Port) => ({
      outageMs := x.outageMs, outageEvents := x.outageEvents, outageFrom := x.outageFrom
      tc := { cc1 := x.tc.cc1, cc2 := x.tc.cc2, vbusMv := x.tc.vbusMv } } : Port)) d.ports
    pgs := tabMap (fun g (x : PGroup) => ({
      req := d.journalled (0x2120 + g) 1, st := let r := d.journalled (0x2120 + g) 1; if r = 2 then 3 else r
      stop := d.journalled (0x3200 + g) 2 = 1, stopLow := x.stopLow } : PGroup)) d.pgs
    halves := [0, 1].map (fun h => (h, { freshHalf d h (d.half h) with tjPeak := (d.half h).tj })) }

/-- STOP_N of some groups goes low; the ports are being reset with the halves. -/
def stopGroups (gs : List Nat) (d : Dev) : Dev :=
  forEach gs (fun g d => if (d.pg g).stopLow then d else
    emit (.stopN (toPg g) true) (d.modPg g (fun x => { x with stopLow := true }))) d

/-! ### Start records (R451) -/

/-- The record of the start in progress; COLD_STARTS and WARM_STARTS count the records (R451). -/
def addRecord (result : Nat) (us : Dword) (fallback sChanged cal : Bool) (subst : Nat) (d : Dev) : Dev :=
  let x := d.start
  let r : StartRec := {
    type := x.type, trigger := x.trigger, partition := x.part == 1, fallback := fallback, sChanged := sChanged, calRedone := cal
    result := result, seconds := x.since, us := us, subst := subst, fw := x.fwVersion }
  let g := d.gesso
  { d with gesso := { g with
      records := (r :: g.records).take 8
      coldStarts := if x.type = 1 then g.coldStarts + 1 else g.coldStarts
      warmStarts := if x.type = 1 then g.warmStarts else g.warmStarts + 1 } }

/-- A start of the device is in progress: not held in reset, and not in Safe hold. -/
def Dev.starting (d : Dev) : Bool := d.start.st == 1 && !(d.half 0).inReset

/-- Microseconds since the trigger, on the Gesso clock. -/
def Dev.sinceUs (d : Dev) : Dword := w32 ((d.now - d.start.at_) * 1000000 / Config.gessoHz)

/-- A start in progress is ended by a reset: RESULT 3, no failed start (R445, R458). -/
def endStart (d : Dev) : Dev :=
  let d := if d.starting || d.start.half.isSome then addRecord 3 d.sinceUs false false false 0 d else d
  { d with start := { d.start with half := none } }

/-! ### Reset of the halves, and the beginning of a start (R442, R443, R448) -/

/-- Both halves are held in reset; a cold start follows when its conditions hold. -/
def holdReset (gs : List Nat) (d : Dev) : Dev :=
  let d := clearCold (stopGroups gs (updateCut (endStart d)))
  let d := { d with
    start := { d.start with st := if d.gesso.locked then 2 else 1, type := 1, deviceReady := false, retryDue := false }
    gesso := { d.gesso with level := 0, waking := false, wakeLow := false, loop := true } }
  forEach [0, 1] (fun h => Dev.modHalf h (fun x => { x with inReset := true })) d

/-- What a cold start waits for (R430, R458, R467). -/
def Dev.canStart (d : Dev) : Bool :=
  let g := d.gesso
  (g.vdd || g.vsrv) && g.clock && g.railsGood && g.resetN && g.refclk && !g.thermalWait

/-- One bus of a port as the start's bus reset leaves it (R443). -/
def restartUsb2 (b : PortBus) : PortBus := if usb2Conn b.usb2 then { b with usb2 := .resetting, ownReset := true } else b
def restartSs (b : PortBus) : PortBus :=
  match b.ss with
  | .u0 | .u1 | .u2 | .u3 | .recovery => { b with ss := .resetting }
  | .inactive => { b with ss := .resetting, startReset := true }
  | _ => b

/-- A port's engine state goes, its devices are bus-reset; Type-C, contract and stage stay (R327, R443). -/
def restartPort (p : Nat) (d : Dev) : Dev :=
  let b := (d.port p).bus
  let keep : PortBus := {
    usb2 := b.usb2, ss := b.ss, usb2Speed := b.usb2Speed, ssSpeed := b.ssSpeed, lowSpeed := b.lowSpeed, debounce := b.debounce
    probes := b.probes, trainFails := b.trainFails, ownReset := b.ownReset, startReset := b.startReset
    resetRequired := d.owner p < d.S && (b.usb2 != .detached || b.ss != .detached), lastCause := b.lastCause }
  let d := d.modPort p (fun x => { x with
    cnt := {}, plan := [], epoch2 := 0, fenceWait := false, bus := restartSs (restartUsb2 keep), pd := { x.pd with sliceLimit := 0 }
    seq := { x.seq with req := x.seq.req.filter (fun r => r.byManager) } })
  let d := doIf (usb2Conn b.usb2) (emit (.signal (toPort p) .usb2 .se0)) d
  match b.ss with
  | .u0 | .u1 | .u2 | .u3 | .recovery => emit (.signal (toPort p) .ss .hotReset) d
  | .inactive => emit (.signal (toPort p) .ss .warmReset) d
  | _ => d

/-- A slice is reset by a warm start: definition, binding and ports stay, everything else goes. A slice that was served is served
on; a quiesce, a fence, a reset or a remove in progress has ended (R30, R268, R282, R444). -/
def restartSlice (n : Nat) (d : Dev) : Dev :=
  let x := d.slice n
  let removing := x.st == .removing
  let unbind := x.st == .resetting && x.wasFenced
  let dest : SliceSt := match x.st with
    | .free => .free | .active => .active | .fencing => .fencing | .quiescedFenced => .quiescedFenced | .removing => .free
    | _ => .quiesced
  if x.st == .free then d else
  let d := dropXfers n d
  -- places in the order of completions begin at 1: place 0 is that of DEVICE_RESTARTED
  let d := (d.modEng n (fun y => { portsChanged := y.portsChanged, gained := y.gained, cseq := 1 })).modSlice n (fun x => {
    st := x.st, group := if unbind then 0xFF else x.group, pasid := if unbind then 0xFFFFFFFF else x.pasid, half := x.half
    lastCode := x.lastCode, wasFenced := x.wasFenced && !unbind, afterReset := dest == .quiesced })
  if removing then
    let d := forEach (d.portsOf n) (fun p => Dev.modPort p (fun x => { x with owner := 0xFF })) d
    let d := setObj (0x4000 + n) 0x10 0 (setObj (0x4000 + n) 0x11 0xFF d)
    ((setSliceSt n .free d).modSlice n (fun x => { lastCode := x.lastCode })).modEng n (fun _ => {})
  else fenceCheck n (setSliceSt n dest d)

/-- Everything that a warm start does not keep (R444), and the bus resets of step 10. -/
def clearWarm (d : Dev) : Dev :=
  let d := clearCommon d
  let off := allGroups.filter (fun g => (d.pg g).path.isSome)
  let d := forEach off (fun g d => (groupOff g d).modPg g (fun x => { x with path := none })) d
  let d := forEach d.usedPorts restartPort d
  let d := forEach d.sliceNums restartSlice d
  let keep := fun h => { freshHalf d h (d.half h) with
    genOut := (d.half h).genOut, fences := (d.half h).fences, restarts := (d.half h).restarts, failAt := (d.half h).failAt }
  let hs := [(0, keep 0), (1, keep 1)]
  let up := d.update
  { d with halves := hs, update := { st := up.st, code := up.code } }

/-- The partition that a start tries first (R446, R447). -/
def Dev.firstPart (d : Dev) : Nat := d.start.tryFirst.getD (d.stored 0x1210 1)

/-- Whether the ports' outage counts: a start after faults, or one that a firmware update requires (R389). -/
def countOutage (trig : Nat) (d : Dev) : Dev :=
  if trig = 11 || ((trig = 4 || trig = 5) && d.firstPart != d.start.part) then forEach d.usedPorts outageStart d
  else if trig = 8 then d
  else { d with ports := tabMap (fun _ (x : Port) => { x with outageFrom := none }) d.ports }

/-- A start begins with a trigger of R442. With the lock set it stops at step 1 (R449). -/
def beginStart (type trig : Nat) (d : Dev) : Dev :=
  let d := countOutage trig (updateCut (endStart d))
  let d := if type = 1 then sampleNode (clearCold (stopGroups allGroups d)) else clearWarm d
  let locked := d.gesso.locked
  let d := { d with
    gesso := { d.gesso with level := 0, waking := false, wakeLow := false, loop := true }
    start := { d.start with
      st := if locked then 2 else 1, type := type, trigger := trig, since := d.gesso.seconds, at_ := d.now, deviceReady := false
      retryDue := false, waitTrigger := 0 } }
  forEach [0, 1] (fun h => Dev.modHalf h (fun x => { x with inReset := locked, clockLost := false })) d

/-- A cold start with this trigger, where its conditions hold; else it waits. -/
def beginCold (trig : Nat) (d : Dev) : Dev := if d.canStart then beginStart 1 trig d else d

/-! ### The dictionary that a start loads (R8, R426) -/

/-- The store: saved values, overlaid by the journal. -/
def Dict.layers (x : Dict) : Tab Nat :=
  let put := fun (t : Tab Nat) (l : Tab Nat) => l.foldl (fun t e => tabPut t e.1 e.2) t
  put (put (put [] x.saved) x.jold) x.journal

/-- A stored value is valid (R8): a value of a B field, of the device or of the builder image in use, lies in the field's range
or set, judged beside the other stored values. -/
def Dev.validB (d : Dev) (t : Tab Nat) (k v : Nat) : Bool :=
  let idx := k / 256
  let sub := k % 256
  match (if isBuilderIdx idx then d.builderRow idx sub else objInfo 192 idx sub) with
  | none => true
  | some o => o.cls != .b || objRange o idx sub v (fun i s => tabGet (objDflt i s) t (okey i s))

/-- Drop the stored values of B fields that are not valid, so that their defaults are in effect; event 6 for each, and their
number for the start record. -/
def dropBad (d : Dev) : Nat × Dev :=
  let t := d.dict.shadow
  let ok := fun (e : Nat × Nat) => d.validB t e.1 e.2
  let bad := t.filter (fun e => !(ok e))
  let gone := fun (l : Tab Nat) => l.filter (fun e => !(bad.any (fun b => b.1 == e.1)))
  let x := d.dict
  let d := { d with dict := { x with shadow := gone x.shadow, inUse := gone x.inUse, journal := gone x.journal, jold := gone x.jold } }
  (bad.length, forEach bad (fun _ => raise { c := 6 }) d)

/-- Load the dictionary: the number of defaults substituted, and the state. -/
def loadDict (d : Dev) : Nat × Dev :=
  let t := d.dict.layers
  dropBad { d with
    dict := { d.dict with shadow := t, inUse := t, dirty := [] }, update := { d.update with bState := 0 } }

/-! ### Ports ready (R30, R443, R447, R454) -/

def Flash.setSt (part v : Nat) (x : Flash) : Flash := if part = 0 then { x with stA := v } else { x with stB := v }

/-- Step 6: the partition found valid and whether it is the fallback; a failed check marks state 2 (R447). -/
def pickPart (okA okB : Bool) (d : Dev) : Option (Nat × Bool) × Dev :=
  let ok := fun p => if p = 0 then okA else okB
  let mark := fun p (d : Dev) => { d with flash := d.flash.setSt p 2 }
  let a := d.firstPart
  if ok a then (some (a, false), d)
  else if ok (1 - a) then (some (1 - a, true), mark a d)
  else (none, mark (1 - a) (mark a d))

/-- A failed start is recorded, raised and counted (R448). -/
def countFailure (okA okB : Bool) (us : Dword) (d : Dev) : Dev :=
  let r := pickPart okA okB d
  let part := match r.1 with | some x => x.1 | none => 1 - d.firstPart
  let d := r.2
  let d := if r.1.isSome then { d with flash := d.flash.setSt part 4 } else d
  let d := { d with start := { d.start with part := part, fwVersion := d.flash.ver part } }
  let d := addRecord (if r.1.isSome then 2 else 1) us (part != d.firstPart) false false 0 d
  raise { c := 3 } { d with
    start := { d.start with tryFirst := some (1 - part), st := 2 }
    gesso := { d.gesso with failedStarts := d.gesso.failedStarts + 1 } }

/-- A failed start (R448): the third within 600 s sets the lock. -/
def failStart (okA okB : Bool) (us : Dword) (d : Dev) : Dev :=
  let d := countFailure okA okB us d
  let lock := decide (3 ≤ d.gesso.failedStarts)
  let d := if lock then raise { c := 4 } { d with gesso := { d.gesso with locked := true } } else d
  let d := holdReset allGroups d
  { d with start := { d.start with retryDue := !lock } }

/-- Cores, builder cores and the builder image (step 7). -/
def startCores (hs : List Nat) (d : Dev) : Dev :=
  let v := d.start.fwVersion
  let d := forEach (vendorCores.filter (fun c => hs.contains (c / 6))) (fun c => Dev.modCore c (fun x => { x with
    st := 1, version := v, cur := none, taking := false, dictReq := none, dictBlocked := false })) d
  loadBuilder (Config.builderOk d.freeCtr d.start.part) (Config.builderVersion d.freeCtr d.start.part) 1 { d with freeCtr := d.freeCtr + 1 }

/-- Warm: DEVICE_RESTARTED before any other entry of the slice (R194), and a port event for each owned port with a connected
bus (R206, R443). -/
def tellRestart (n : Nat) (d : Dev) : Dev :=
  if (d.slice n).st == .free then d else
  let d := sliceEvent n 1 (d.modEng n (fun x => { x with evPending := true, evSeq := 0 }))
  drainCq n 0 (forEach (d.portsOf n) (fun p d => if (d.port p).bus.connected then portEvent p { bits := 1 } d else d) d)

/-- A change of S, and every cold start, discards slices, bindings and assignments (R30). -/
def discardSlices (d : Dev) : Dev :=
  { d with slices := [], engs := [], ports := tabMap (fun _ (x : Port) => { x with owner := 0xFF }) d.ports }

/-- Step 10 of a cold start: the stages that answered IDENT, and the release of STOP. -/
def coldPorts (idents : List (PortId × BitVec 16)) (d : Dev) : Dev :=
  forEach allGroups driveStop
    (idents.foldl (fun d x => d.modStage x.1.val (fun y => { y with ident := x.2, present := true })) d)

/-- The start reaches ports ready from partition `part`. -/
def reachReady (part : Nat) (fallback calOk : Bool) (idents : List (PortId × BitVec 16)) (us : Dword) (d : Dev) : Dev :=
  let cold := d.start.type == 1
  let cal := !cold && !(calOk && d.gesso.calValid)
  let d := { d with flash := d.flash.setSt part 1, start := { d.start with part := part, fwVersion := d.flash.ver part } }
  let t := loadDict d
  let d := if t.2.stored 0x1210 1 = part then t.2 else setObj 0x1210 1 part t.2
  let s := d.cfg 0x2001 1
  let changed := s != d.S
  let d := { d with start := { d.start with sCount := s } }
  let d := if changed then (List.range 192).foldl (fun d n =>
      if (d.stored (0x4000 + n) 0x10 = 0 && d.stored (0x4000 + n) 0x11 = 0xFF) then d
      else setObj (0x4000 + n) 0x10 0 (setObj (0x4000 + n) 0x11 0xFF d)) d
    else d
  let d := if cold || changed then discardSlices d else d
  let u := dropBad (startCores [0, 1] d)
  let d := addRecord 0 us fallback changed cal (t.1 + u.1) u.2
  let d := { d with
    gesso := { d.gesso with calValid := true }
    start := { d.start with st := 0, deviceReady := true, tryFirst := none, retryDue := false } }
  let d := forEach [0, 1, 2, 3] setRestarted d
  let d := forEach d.usedPorts outageEnd d
  let d := forEach ([0, 1, 2, 3].filter d.twoPort) (fun g d => forEach (d.members g) setGroupState d) d
  let d := raise { c := if cold then 1 else 2 } d
  let d := if cold then coldPorts idents d else if changed then d else forEach d.sliceNums tellRestart d
  -- R436: a warm start returns every port to R302
  allocate (forEach d.usedPorts tcNow d)

/-! ### Half warm restart (R388) -/

/-- The slices that the half's restart resets: those homed on it, where S > 1. -/
def Dev.homed (d : Dev) (h : Nat) : List Nat := if d.S = 1 then [] else d.notFree.filter (fun n => (d.slice n).half == h)
/-- The half's ports whose owner goes on. -/
def Dev.crossPorts (d : Dev) (h : Nat) : List Nat :=
  d.usedPorts.filter (fun p => halfOfPort p == h && d.owner p < d.S && !((d.homed h).contains (d.owner p)))

/-- Half h restarts warm. A second half that must restart meanwhile has no half to align to: a cold start with trigger 11. -/
def beginHalf (h : Nat) (d : Dev) : Dev :=
  if d.start.st != 0 || d.start.half = some (toHalf h) then d
  else if d.start.half.isSome then beginStart 1 11 d
  else
    let d := raise { c := 43, inst := h, half := h } (updateCut d)
    let d := forEach (d.usedPorts.filter (fun p => halfOfPort p == h)) outageStart d
    let d := sinopiaLost d
    let d := forEach (d.crossPorts h) (fun p d =>
      finishPd p cNotPermitted 6 (finishPortOp p cDetached 0 (detachHandles p none cDetached d))) d
    let d := forEach (d.usedPorts.filter (fun p => halfOfPort p == h)) restartPort d
    let d := forEach (d.homed h) restartSlice d
    let x := d.half h
    let d := d.modHalf h (fun _ => { freshHalf d h x with
      mf := x.mf, genOut := x.genOut, fences := x.fences, restarts := x.restarts + 1, failAt := x.failAt, restarting := true
      takeFromSync := true })
    let d := forEach (List.range 6) (fun i => Dev.modCore (6 * h + i) (fun c => { c with
      st := if c.st = 0 || c.st = 4 then c.st else 2, cur := none, taking := false, dictReq := none, dictBlocked := false })) d
    { d with
      sinopia := { d.sinopia with training := true }
      start := { d.start with
        half := some (toHalf h), type := 3 + h, trigger := 12, since := d.gesso.seconds, at_ := d.now } }

/-- The restart of half h fails; the second time within 600 s the device starts cold. -/
def failHalf (h : Nat) (us : Dword) (d : Dev) : Dev :=
  let now := d.now
  let d := addRecord 2 us false false false 0 d
  let near := (d.half h).failAt.filter (fun t => now < t + 600 * Config.gessoHz) ++ [now]
  let d := { d.modHalf h (fun x => { x with failAt := near }) with start := { d.start with half := none } }
  if 2 ≤ near.length then beginStart 1 11 d else beginHalf h d

/-- The half serves again; with Sinopia down it cannot align (R388). It loads no dictionary: whether a half warm restart is a warm start
at which stored values of class B take effect (R8) is left open (DESIGN CHOICE, log entry 50). -/
def halfReady (h : Nat) (us : Dword) (d : Dev) : Dev :=
  if !d.sinopia.up then beginStart 1 11 d else
  let other := (d.half (1 - h)).mf
  let d := d.modHalf h (fun x => { x with restarting := false, mf := if x.takeFromSync then other else x.mf, takeFromSync := false })
  let d := addRecord 0 us false false false 0 d
  let d := { d with start := { d.start with half := none } }
  let d := forEach (List.range 6) (fun i => coreBack (6 * h + i)) d
  let d := forEach (d.homed h) tellRestart d
  let d := forEach (d.usedPorts.filter (fun p => halfOfPort p == h)) outageEnd d
  forEach (d.crossPorts h) (fun p d => portEvent p { bits := b2n (d.port p).bus.connected, cause := 8, detach := true } d) d

/-! ### Rows of starts -/

def portsReady (okA okB calOk : Bool) (idents : List (PortId × BitVec 16)) (us : Dword) (d : Dev) : Dev :=
  match d.start.half with
  | some h => halfReady h.val us d
  | none =>
    if !d.starting then d else
    match pickPart okA okB d with
    | (some x, d) => reachReady x.1 x.2 calOk idents us d
    | (none, _) => failStart okA okB us d
def execPortsReady (okA okB calOk : Bool) (idents : List (PortId × BitVec 16)) (us : Dword) (s : State) : Outc :=
  runP (portsReady okA okB calOk idents us) s

def startFailed (okA okB : Bool) (us : Dword) (d : Dev) : Dev :=
  match d.start.half with
  | some h => failHalf h.val us d
  | none => if d.starting then failStart okA okB us d else d
def execStartFailure (okA okB : Bool) (us : Dword) (s : State) : Outc := runP (startFailed okA okB us) s

def execFailedStartRetry (s : State) : Outc :=
  runP (fun d => if d.start.retryDue && !d.gesso.locked then beginCold 8 d else d) s

def execFailedStartWindowExpiry (s : State) : Outc :=
  run (fun d => { d with gesso := { d.gesso with failedStarts := d.gesso.failedStarts - 1 } }) s

/-- A start, a live update or a SAVE is in progress (R435, R445). -/
def Dev.startBusy (d : Dev) : Bool := d.start.st == 1 || d.start.half.isSome || d.update.st == 1 || d.flash.saving.isSome

def startCmd (p : Path) (type trig : Nat) (d : Dev) : Dev :=
  if d.startBusy then refuse p cBusy 3 d else beginStart type trig (accept p d)
def execStartCmdWarm (p : Path) (s : State) : Outc := runP (guarded p true (startCmd p 2 5)) s
def execStartCmdCold (p : Path) (s : State) : Outc := runP (guarded p true (startCmd p 1 4)) s

/-- RESET_N, or DEVICE_RESET (R417, R445). -/
def execResetNFall (s : State) : Outc :=
  runP (fun d => if d.gesso.resetN then holdReset allGroups { d with gesso := { d.gesso with resetN := false } } else d) s
def execResetNRise (s : State) : Outc :=
  runP (fun d => if d.gesso.resetN then d else beginCold 2 { d with gesso := { d.gesso with resetN := true } }) s

/-- LOCK_CLEAR (R450): in Safe hold the lock goes, and a cold start follows. -/
def clearLock (d : Dev) : Dev :=
  if !d.gesso.locked then { d with gesso := { d.gesso with failedStarts := 0 } } else
  let d := raise { c := 5 } { d with
    gesso := { d.gesso with locked := false, failedStarts := 0, frFatal := none }
    start := { d.start with st := 1, type := 1, waitTrigger := 9 } }
  beginCold 9 d

/-! ### Supplies and clocks -/

/-- A rail fails (R458); in a standby level its removal is permitted. -/
def railFail (d : Dev) : Dev :=
  let g := d.gesso
  if !g.railsGood then d
  else if g.level != 0 then { d with gesso := { g with railsGood := false } }
  else holdReset allGroups { d with gesso := { g with railsGood := false } }
def execRailFail (s : State) : Outc := runP railFail s

/-- The start that waits for its last condition: its own trigger after a lock clear or DEVICE_RESET, else the one given. -/
def resumeStart (trig : Nat) (d : Dev) : Dev :=
  if !(d.half 0).inReset || d.start.retryDue then d else beginCold (if d.start.waitTrigger = 0 then trig else d.start.waitTrigger) d

def execRailsGood (s : State) : Outc :=
  runP (fun d =>
    let d := { d with gesso := { d.gesso with railsGood := true } }
    if d.gesso.level != 0 then d else resumeStart 1 d) s

def execGessoClockStart (s : State) : Outc :=
  runP (fun d => if d.gesso.clock || !(d.gesso.vdd || d.gesso.vsrv) then d else
    resumeStart 1 (sampleNode { d with gesso := { d.gesso with clock := true } })) s
def execGessoClockStop (s : State) : Outc :=
  runP (fun d => if !d.gesso.clock then d else
    holdReset allGroups { d with gesso := { d.gesso with clock := false } }) s

/-- REFCLK is lost on half h (R430): STOP on its groups, both halves in reset, and a fault record. -/
def refclkLost (h : Nat) (d : Dev) : Dev :=
  if d.gesso.level != 0 || !d.gesso.refclk then d else
  let d := putRecord Config.refclkSeverity.toNat { c := Config.refclkCause.toNat, inst := h, half := h, unit := 7 }
    { d with gesso := { d.gesso with refclk := false } }
  (holdReset (allGroups.filter (fun g => g / 12 == h)) d).modHalf h (fun x => { x with clockLost := true })
def execRefclkLoss (h : HalfId) (s : State) : Outc := runP (refclkLost h) s
def execRefclkReturn (s : State) : Outc :=
  runP (fun d => if d.gesso.refclk then d else resumeStart 10 { d with gesso := { d.gesso with refclk := true } }) s

/-- The Gesso supply becomes good from Off (R425, R453, R467, R482): nothing is retained, STOP_N is low, the halves are held. -/
def gessoPower (vsrv : Bool) (straps : BitVec 7) (d : Dev) : Dev :=
  let g := d.gesso
  if g.vdd || g.vsrv then { d with gesso := { g with vdd := g.vdd || !vsrv, vsrv := g.vsrv || vsrv } } else
  let d := { d with gesso := {
    vdd := !vsrv, vsrv := vsrv, clock := false, railsGood := false, resetN := g.resetN, forceSafeN := g.forceSafeN, refclk := g.refclk
    calValid := false, straps := straps } }
  sampleNode (holdReset allGroups { d with start := { sCount := d.start.sCount, part := d.start.part } })
def execGessoSupplyGood (vsrv : Bool) (straps : BitVec 7) (s : State) : Outc := runP (gessoPower vsrv straps) s

/-- Both supplies are lost: the Off level (R425, R434, R482). -/
def gessoLost (d : Dev) : Dev :=
  let g := d.gesso
  let d := { d with
    gesso := {
      vdd := false, vsrv := false, clock := false, loop := false, railsGood := false, resetN := g.resetN, forceSafeN := g.forceSafeN
      refclk := g.refclk, calValid := false, straps := g.straps, nodeId := g.nodeId, nodeSource := g.nodeSource }
    dict := { d.dict with journal := [], jold := [], next := [] }, events := {}
    start := { sCount := d.start.sCount, part := d.start.part, deviceReady := false }, ports := [] }
  let d := forEach [0, 1] (fun h => Dev.modHalf h (fun x => { x with inReset := true })) d
  let d := clearCold (stopGroups allGroups d)
  let d := { d with cans := [], events := {} }
  forEach [0, 1] (fun h => Dev.modHalf h (fun x => { x with inReset := true })) d
def execGessoSupplyLoss (s : State) : Outc := runP gessoLost s

/-! ### Standby levels (R435, R441) -/

/-- States that keep the device from a standby level. -/
def Dev.sliceActive (d : Dev) : Bool :=
  d.sliceNums.any (fun n => match (d.slice n).st with
    | .active | .quiescing | .quiesceStalled | .fencing | .resetting | .removing => true
    | _ => false)

/-- Step 1: every upstream port powers down. -/
def upstreamOff (d : Dev) : Dev :=
  forEach [0, 1, 2, 3] (fun u d =>
    emit (.linkPower (toFunc u) false) ((linkDown u d).modFunc u (fun x => { x with upState := 3 }))) d

/-- The bus of a port in Attach Watch: USB 2.0 in suspend. -/
def watchBus (b : PortBus) : PortBus :=
  match b.usb2 with
  | .enabled | .l1 | .resuming => { b with usb2 := .suspended, recUsb2 := false, l1Exit := false }
  | _ => b

/-- Every unattached port presents Rd and does not toggle (R436). -/
def watchTc (x : TypeC) : TypeC :=
  match x.st with
  | .unattachedSrc | .attachWaitSrc | .attachWaitSnk | .trySrc | .tryWaitSnk | .trySnk | .tryWaitSrc =>
    { x with st := .unattachedSnk, debounced := false, tdrpTry := false }
  | _ => x

/-- Cores and engines power down; PPE protocol layers, contracts and stages stay. -/
def attachWatch (d : Dev) : Dev :=
  let d := { d with ports := tabMap (fun _ x => { x with bus := watchBus x.bus, tc := watchTc x.tc }) d.ports, cores := [] }
  let d := forEach [0, 1] (fun h => Dev.modHalf h (fun x => { x with easel := {}, wash := [], genLoad := [] })) d
  { d with
    sinopia := { d.sinopia with up := false, training := false }, gesso := { d.gesso with level := 2 }
    start := { d.start with deviceReady := false } }

/-- Every port group powers down, STOP is asserted, and only Gesso stays powered. -/
def deepStandby (d : Dev) : Dev :=
  let d := forEach allGroups (fun g d => if (d.pg g).st = 3 then d else groupOff g d) d
  let d := stopGroups allGroups d
  let d := clearCold d
  { d with
    gesso := { d.gesso with level := 3, loop := false }, start := { d.start with deviceReady := false } }

def levelReq (p : Path) (level : Nat) (d : Dev) : Dev :=
  if d.sliceActive then refuse p cNotQuiesced 0 d
  else if d.startBusy then refuse p cBusy 3 d
  else
    let d := upstreamOff d
    if level = 2 then accept p (attachWatch d) else deepStandby (accept p d)
def execLevelReqAttachWatch (p : Path) (s : State) : Outc := runP (guarded p true (levelReq p 2)) s
def execLevelReqDeepStandby (p : Path) (s : State) : Outc := runP (guarded p true (levelReq p 3)) s

/-! ### Wakes (R436 to R441, R459) -/

/-- A wake source that its mask enables and the level has: WAKE_N is driven low for any other than itself. -/
def wake (bit : Nat) (d : Dev) : Dev :=
  let g := d.gesso
  if g.level = 0 || d.cfg 0x2101 3 / 2 ^ bit % 2 = 0 || (g.level = 3 && 3 ≤ bit) then d
  else if g.waking then
    (if g.wakeAt = d.now && bit < g.lastWake then { d with gesso := { g with lastWake := bit } } else d)
  else
    let d := { d with gesso := { g with waking := true, lastWake := bit, wakeAt := d.now, wakeLow := bit != 0, loop := true } }
    if bit = 0 then d else emit (.wakeN true) d

/-- The rails are good after a wake: WAKE_N is released and the start begins. -/
def wakeDone (d : Dev) : Dev :=
  let g := d.gesso
  if !g.waking then d else
  let d := if g.wakeLow then emit (.wakeN false) d else d
  let d := { d with gesso := { g with railsGood := true, waking := false, wakeLow := false } }
  if g.level = 2 then beginStart 2 6 d else beginStart 1 7 d
def execWakeRailsGood (s : State) : Outc := runP wakeDone s

def execWakeNLow (s : State) : Outc := run (wake 0) s

/-- The wake pattern: identifier 0x780 + node ID, bytes 0x57 0x4B; in Deep Standby the loop must run to receive it (R438, R439). -/
def wakePattern (l : Nat) (id : Nat) (data : List Byte) (d : Dev) : Dev :=
  if d.linkEnabled l && d.gesso.loop && id = (0x780 + d.gesso.nodeId.toNat) % 2048 && data == [0x57, 0x4B] then wake 1 d else d
def execCanWakePattern (l : LinkId) (id : BitVec 11) (data : List Byte) (s : State) : Outc := run (wakePattern l id.toNat data) s

def execCanDominantEdge (l : LinkId) (s : State) : Outc :=
  run (fun d => if d.gesso.level = 3 && d.linkEnabled l then { d with gesso := { d.gesso with loop := true } } else d) s
def execGessoLoopIdleStop (s : State) : Outc :=
  run (fun d => if d.gesso.level = 3 && !d.gesso.waking then { d with gesso := { d.gesso with loop := false } } else d) s

/-- VSRV rises (R460): it powers a Gesso that was off, or wakes. -/
def vsrvUp (d : Dev) : Dev :=
  if !(d.gesso.vdd || d.gesso.vsrv) then gessoPower true d.gesso.straps d
  else wake 2 { d with gesso := { d.gesso with vsrv := true } }
def execVsrvRise (s : State) : Outc := runP vsrvUp s

/-- A port on which an attach can be seen: armed and unattached. -/
def Dev.watches (d : Dev) (p : Nat) : Bool :=
  let x := d.port p
  d.gesso.level == 2 && x.stage.present && !x.tc.attached && x.tc.st != .disabled
def execAttachWake (p : PortId) (s : State) : Outc := run (fun d => if d.watches p then wake 3 d else d) s
def execPerstWake (f : FuncId) (s : State) : Outc :=
  run (fun d => (if d.gesso.level = 2 then wake 4 else id) (d.modFunc f (fun x => { x with perstHigh := true }))) s
/-- A USB 2.0 bus whose PHY is in suspend in Attach Watch: one that was suspended, or one that is idle (R434, R437). -/
def Dev.busWatches (d : Dev) (p : Nat) : Bool :=
  d.gesso.level == 2 && (match (d.port p).bus.usb2 with | .suspended | .disconnected | .connected => true | _ => false)
def execUsb2BusWake (p : PortId) (s : State) : Outc := run (fun d => if d.busWatches p then wake 5 d else d) s

/-- Every unattached port presents Rp for 2 ms (R436). -/
def execWatchPeriod (s : State) : Outc :=
  run (fun d => forEach (d.usedPorts.filter d.watches) (fun p => emit (.watchRp (toPort p))) d) s

/-! ### Firmware staging (R446) -/

/-- As guarded, for an object that the recovery loader serves. -/
def guardedLow (p : Path) (okLen okValue : Bool) (f : Dev → Dev) : Dev → Dev := entered p true <| fun d =>
  if !(d.isOwner p) then refuse p cNotPermitted 7 d
  else if !okLen then refuse p cNotPermitted 5 d
  else if !okValue then refuse p cNotPermitted 6 d
  else f d

def Flash.busy (x : Flash) : Bool := x.stage == 1 || x.stage == 3

def stageData (p : Path) (data : List Byte) (d : Dev) : Dev :=
  if d.flash.busy then refuse p cBusy 3 d else
  let off := d.cfg 0x1210 6
  let d := emit (.flashWrite d.inactive off data) { d with memOps := d.memOps ++ [.flash d.inactive off data] }
  accept p (setObj 0x1210 6 ((off + 4096) % 2 ^ 32) { d with flash := { d.flash with stage := 0 } })
def execStageData (p : Path) (data : List Byte) (s : State) : Outc := run (guardedLow p (data.length = 4096) true (stageData p data)) s

def stageCmdAct (p : Path) (st : Nat) (d : Dev) : Dev :=
  if d.flash.busy then refuse p cBusy 3 d else accept p { d with flash := { d.flash with stage := st } }
def execStageCmdErase (p : Path) (s : State) : Outc := run (guardedLow p true true (stageCmdAct p 1)) s
def execStageCmdVerify (p : Path) (s : State) : Outc := run (guardedLow p true true (stageCmdAct p 3)) s

def stageDone (ok : Bool) (version minVersion : Dword) (d : Dev) : Dev :=
  let part := d.inactive
  let ver := fun (v : Dword) (x : Flash) => if part = 0 then { x with verA := v } else { x with verB := v }
  if d.flash.stage = 1 then
    let f := if ok then ver 0 (d.flash.setSt part 0) else d.flash
    { d with memOps := if ok then d.memOps ++ [.erase part] else d.memOps, flash := { f with stage := 0 } }
  else if d.flash.stage = 3 then
    if ok then { d with flash := { ver version (d.flash.setSt part 3) with stage := 4, minVersion := minVersion } }
    else { d with flash := { d.flash.setSt part 2 with stage := 5 } }
  else d
def execStageCmdDone (ok : Bool) (version minVersion : Dword) (s : State) : Outc := run (stageDone ok version minVersion) s

/-! ### Thermal trip (R478) -/

def thermalTrip (h : Nat) (tenths : BitVec 16) (d : Dev) : Dev :=
  let d := d.modHalf h (fun x => { x with tj := tenths, tjPeak := hotter x.tjPeak tenths })
  if tenths.toInt < 1150 then d else
  let d := endStart d
  let d := { d with gesso := { d.gesso with locked := true, thermalWait := true }, start := { d.start with st := 2, half := none } }
  let d := holdReset allGroups d
  raise { c := 4, inst := h, half := h } d
def execThermalTrip (h : HalfId) (tenths : BitVec 16) (s : State) : Outc := runP (thermalTrip h tenths) s

/-- Both sensors read below 100 °C. -/
def execThermalClearStart (s : State) : Outc :=
  runP (fun d => if !d.gesso.thermalWait then d else
    let d := { d with gesso := { d.gesso with thermalWait := false } }
    if d.gesso.locked then d else resumeStart 9 d) s

end Sys2Proof.Machine
end

