-- ==== Sys2Proof/Machine/Integrity.lean ====
section
/-! DEFINITION. Integrity (R377 to R385, R396): residue mismatches and fenced units, SRAM errors, the patrol scrub, and the votes of
the Gesso registers. -/
namespace Sys2Proof.Machine

/-! ### Units (R379, R380) -/

def resHalf : ResUnit → Nat
  | .generator h _ | .walker h _ | .entryArith h | .fresco h | .palette h _ _ | .easelDelay h _ | .mfCounter h => h.val
  | .pipeline c => c.val / 6

/-- The key of a unit within its half. -/
def resKey : ResUnit → Nat
  | .generator _ i => i.val
  | .walker _ i => 16 + i.val
  | .entryArith _ => 32
  | .fresco _ => 33
  | .easelDelay _ _ => 34
  | .mfCounter _ => 35
  | .pipeline c => 40 + c.val % 6
  | .palette _ n r => 64 + 8 * n.val + r % 8

/-- UNIT of its fault records, and its number there (R395). -/
def resUnitCode : ResUnit → Nat
  | .generator _ _ => 1 | .walker _ _ => 2 | .entryArith _ => 3 | .fresco _ => 4 | .palette _ _ _ => 5 | .easelDelay _ _ => 6
  | .mfCounter _ => 7 | .pipeline _ => 8
def resInst : ResUnit → Nat
  | .generator _ i | .walker _ i => i.val
  | .pipeline c => c.val
  | .palette _ _ r => r
  | .easelDelay _ s => s
  | _ => 0xFFFF

def victimSlice : ResVictim → Nat
  | .none => 0xFF
  | .transfer n _ _ _ => n.val
  | .work n _ _ => n.val

/-- The unit is in service. -/
def Dev.unitServes (d : Dev) (u : ResUnit) : Bool :=
  let x := d.half (resHalf u)
  match u with
  | .generator _ _ | .walker _ _ => !(bitOf x.genOut (resKey u)) && !(bitOf x.genFenced (resKey u))
  | .fresco _ => !x.frescoOut
  | .pipeline c => d.coreUp c.val
  | _ => true

/-- A transfer of stream st completes Integrity error, and its endpoint is Halted (R123). -/
def integrityXfer (n h e st : Nat) (d : Dev) : Dev :=
  let x := d.ep n h e
  if x.xfer.any (fun y => y.started && y.stream == st) then endHalting n h e cIntegrity none d
  else match x.parkedX.find? (fun y => y.stream == st) with
    | none => d
    | some y =>
      let d := d.modEp n h e (fun z => { z with xfer := some y, parkedX := (x.parkedX.erase y) ++ x.xfer.toList })
      endHalting n h e cIntegrity none d

/-- The entry stops its queue in Error with Integrity error (R82, R379). -/
def integrityEntry (n q : Nat) (i : Dword) (d : Dev) : Dev :=
  let w := d.wq n q
  match (w.exec ++ w.held).find? (fun e => e.idx == i) with
  | none => d
  | some e =>
    let d := dropCommit n q i (d.modWq n q (fun w => { w with exec := w.exec.filter (fun x => x.idx != i) }))
    stopWq n q ⟨i, cIntegrity, 0, i, dwAt e.dws 1, i, 0⟩ d

/-- A transfer uses request generator u, or fragment walker u - 16, of half h. -/
def Xfer.onUnit (x : Xfer) (h u : Nat) : Bool := x.half == h && (if u < 16 then x.gen == u else x.walks && 16 + x.walker == u)

/-- Transfers that the endpoint keeps: the one on the bus, those of other streams, and those prepared ahead. -/
def Ep.allXfers (x : Ep) : List Xfer := x.xfer.toList ++ x.parkedX ++ x.pre

/-- One transfer of a fenced unit moves to another unit of its half. -/
def moveXfer (h u n hd e uid : Nat) (d : Dev) : Dev :=
  let base := if u < 16 then 0 else 16
  let v := (d.half h).pickUnit base
  let g := fun (x : Xfer) => if x.uid != uid then x else if u < 16 then { x with gen := v } else { x with walker := v }
  genAdd h (base + v) true (genAdd h u false (d.modEp n hd e (fun y => { y with
    xfer := y.xfer.map g, parkedX := y.parkedX.map g, pre := y.pre.map g })))

/-- The transfers of a fenced unit move to other units of its half and continue (R379, R486). -/
def moveXfers (h u : Nat) (d : Dev) : Dev :=
  forEach d.notFree (fun n d => (d.liveEps n).foldl (fun d k =>
    ((d.ep n k.1 k.2).allXfers.filter (fun x => x.onUnit h u)).foldl (fun d x => moveXfer h u n k.1 k.2 x.uid d) d) d) d

/-- Who the failing operation served loses it. -/
def dropVictim (v : ResVictim) (d : Dev) : Dev :=
  match v with
  | .none => d
  | .transfer n h e st => integrityXfer n.val h e st d
  | .work n q i => integrityEntry n.val q i d

/-- The evaluated Fresco command completes Integrity error and changes nothing. -/
def dropCommand (v : ResVictim) (d : Dev) : Dev :=
  match v with
  | .work n q i =>
    finishWe n.val q i cIntegrity {} (dropCommit n.val q i d)
  | _ => d

/-- A delay entry that could not be recomputed: its task is discarded, and a work entry's task completes its entry. -/
def dropTask (h slot : Nat) (v : ResVictim) (d : Dev) : Dev :=
  match v with
  | .none => d
  | .transfer _ _ _ _ => d.modEasel h (fun e => { e with delay := e.delay.filter (fun t => t.slot != slot) })
  | .work n q i =>
    finishWe n.val q i cIntegrity {} (d.modEasel h (fun e => { e with delay := e.delay.filter (fun t => t.slot != slot) }))

/-- The action of R379 on the second mismatch. -/
def fenceUnit (u : ResUnit) (v : ResVictim) (d : Dev) : Dev :=
  let h := resHalf u
  let k := resKey u
  match u with
  | .generator _ _ | .walker _ _ =>
    moveXfers h k (dropVictim v (d.modHalf h (fun x => { x with genFenced := x.genFenced ||| (1#32 <<< k) })))
  | .entryArith _ => dropVictim v d
  | .fresco _ => dropCommand v (d.modHalf h (fun x => { x with frescoOut := true }))
  | .palette _ n r => d.modPal n.val (d.palKey r h) (fun p => { p with counter := 0, far := 0, reached := true })
  | .easelDelay _ s => dropTask h s v d
  | .mfCounter _ => if d.sinopia.up then d.modHalf h (fun x => { x with takeFromSync := true }) else beginHalf h d
  | .pipeline c => wedge c.val d

/-- The third and the fourth fence of a unit within 600 s (R380). -/
def heldOut (u : ResUnit) (count : Nat) (d : Dev) : Dev :=
  let h := resHalf u
  let half := match u with
    | .fresco _ | .palette _ _ _ | .easelDelay _ _ | .mfCounter _ => true
    | .pipeline c => c.val == 0 || c.val == 6
    | _ => false
  if count < 3 then d
  else if half then (if count = 3 then beginHalf h d else beginStart 1 11 d)
  else
    let d := raise { c := 34, inst := resInst u, unit := resUnitCode u, half := h } d
    match u with
    | .generator _ _ | .walker _ _ => d.modHalf h (fun x => { x with genOut := x.genOut ||| (1#32 <<< resKey u) })
    | .pipeline c => d.modCore c.val (fun x => { x with st := 4 })
    | _ => d

/-- A residue mismatch: the repeat succeeds, or the unit is fenced (R379). -/
def residue (u : ResUnit) (v : ResVictim) (second : Bool) (d : Dev) : Dev :=
  if !(d.unitServes u) then d else
  let h := resHalf u
  let e : Ev := { c := if second then 33 else 32, inst := resInst u, slice := victimSlice v, unit := resUnitCode u, half := h
                  code := if second && victimSlice v != 0xFF then cIntegrity else 0 }
  let d := raise e d
  if !second then d.modHalf h (fun x => { x with residueRetries := x.residueRetries + 1 }) else
  let now := d.now
  let near := (tabGet [] (d.half h).fences (resKey u)).filter (fun t => now < t + 600 * Config.gessoHz) ++ [now]
  let d := d.modHalf h (fun x => { x with unitFences := x.unitFences + 1, fences := tabPut x.fences (resKey u) near })
  heldOut u near.length (fenceUnit u v d)
def execResidueMismatch (u : ResUnit) (v : ResVictim) (second : Bool) (s : State) : Outc := runP (residue u v second) s

/-- A fenced unit returns to service, unless it is held out. -/
def unitBack (u : ResUnit) (d : Dev) : Dev :=
  let h := resHalf u
  match u with
  | .generator _ _ | .walker _ _ =>
    if bitOf (d.half h).genOut (resKey u) then d
    else d.modHalf h (fun x => { x with genFenced := x.genFenced &&& ~~~(1#32 <<< resKey u) })
  | .fresco _ => d.modHalf h (fun x => { x with frescoOut := false })
  | .pipeline c => coreBack c.val d
  | _ => d
def execUnitReturn (u : ResUnit) (s : State) : Outc := runP (unitBack u) s

/-! ### SRAM (R381, R382, R396) -/

/-- The half of an array; the arrays that both halves share count as H0. -/
def arrHalf (a : Nat) : Nat := if a = 1 || a = 3 || a = 5 then 1 else 0

/-- The threshold of corrected errors in 24 h (R397). -/
def corrWindow (a : Nat) (d : Dev) : Dev :=
  let now := d.gesso.seconds.toNat
  let w := tabGet (now, 0) d.sys.ceWindow a
  let w := if w.1 + 86400 ≤ now then (now, 1) else (w.1, w.2 + 1)
  let d := { d with sys := { d.sys with ceWindow := tabPut d.sys.ceWindow a w } }
  if w.2 = d.cfg 0x7020 1 then raise { c := 38, inst := a, half := arrHalf a } d else d

/-- One record per array and hour for corrected errors, with the count since the one before (R396). -/
def corrRecord (a : Nat) (d : Dev) : Dev :=
  let now := d.gesso.seconds.toNat
  let k := tabGet 0 d.sys.ceCount a + 1
  if (tabFind d.sys.ceRecord a).any (fun t => now < t + 3600) then { d with sys := { d.sys with ceCount := tabPut d.sys.ceCount a k } } else
  putRecord 0 { c := 36, inst := a, half := arrHalf a, detail := some k }
    { d with sys := { d.sys with ceRecord := tabPut d.sys.ceRecord a now, ceCount := tabPut d.sys.ceCount a 0 } }

def corrected (a : Nat) (d : Dev) : Dev :=
  let d := { d with sys := { d.sys with corrected := tabPut d.sys.corrected a (tabGet 0 d.sys.corrected a + 1) } }
  corrWindow a (corrRecord a (raise { c := 36, inst := a, half := arrHalf a } d))

/-- The bytes of an OUT transfer that were not yet acknowledged are read again (R217). -/
def rereadOut (n h e : Nat) (x : Xfer) (d : Dev) : Dev :=
  if (d.ep n h e).mode.periodic || x.sealBad.contains x.moved then endHalting n h e cIntegrity none d else
  fillOut n h e ((cancelWhere n (fun r => xferReadOf h e r.r && r.tag == x.uid) d).modXfer n h e (fun y => { y with
    segs := y.segs.filter (fun s => s.1 + s.2.length ≤ y.moved), issued := wholeChunks y.moved, sealBad := y.moved :: y.sealBad }))

/-- A Canvas word of a transfer's chunk is lost: a seal mismatch; IN data cannot be read again (R217, R381). -/
def canvasLost (n h e st : Nat) (d : Dev) : Dev :=
  match (d.ep n h e).xfer with
  | none => d
  | some x =>
    if x.stream != st || !x.started then d
    else if x.isIn then endHalting n h e cIntegrity (some 0) (sealEvent n h e (sealEvent n h e d))
    else rereadOut n h e x (sealEvent n h e d)

/-- A modified context is lost: its started transfer completes Integrity error, and the endpoint is Halted; the one in host memory
is read at its next use. -/
def ctxLost (n h e : Nat) (d : Dev) : Dev :=
  let x := d.ep n h e
  if x.st == .disabled then d else
  let d := match x.xfer with
    | some y => if y.started then endXfer n h e { code := cIntegrity } d else giveUp n h e y d
    | none => d
  let d := x.parkedX.foldl (fun d y => giveUp n h e y d) d
  unloadStreams n h e (dropCtx n h e (dropAll n h e (d.modEp n h e (fun y => { y with
    st := .halted, haltCode := BitVec.ofNat 8 cIntegrity, haltReason := 0, errAddr := 0, service := false, xfer := none, parkedX := []
    lost := true }))))

def sramLost (loc : SramLoc) (d : Dev) : Dev :=
  match loc with
  | .canvas n h e st => canvasLost n.val h e st d
  | .ctxClean n h e => if (d.eng n.val).cached.contains (h, e) then touch n.val h e false (dropCtx n.val h e d) else d
  | .ctxDirty n h e => ctxLost n.val h e d
  | .header n h both => if both then forEach (d.handle n.val h).live (ctxLost n.val h) d else d
  | .plan p both => if both then ppeReset p.val d else d
  | .elastic p h e per =>
    onPortPer p.val h e (fun n => if per then perResponse n h e .busError 0 else npResponse n h e .crcError 0) d
  | .coreImem c | .coreDmem c => wedge c.val d
  | .calibration => { d with gesso := { d.gesso with calValid := false } }
  | .faultRecord k => { d with gesso := { d.gesso with
      fr := tabMap (fun i r => if i = k.val then { r with valid := false } else r) d.gesso.fr } }

def uncorrectable (a : Nat) (loc : SramLoc) (d : Dev) : Dev :=
  let d := { d with sys := { d.sys with uncorrectable := tabPut d.sys.uncorrectable a (tabGet 0 d.sys.uncorrectable a + 1) } }
  sramLost loc (raise { c := 37, inst := a, half := arrHalf a } d)

def sram (a : Nat) (loc : SramLoc) (bad : Bool) (d : Dev) : Dev := if bad then uncorrectable a loc d else corrected a d
def execSramError (arr : Fin 8) (loc : SramLoc) (uncorrectable : Bool) (s : State) : Outc := runP (sram arr.val loc uncorrectable) s

/-- The scrub reads a word: three passes in a row with the same bad bit repair it. A word before the last one read begins a new
pass. -/
def scrub (a word : Nat) (loc : SramLoc) (badBit : Option Nat) (bad : Bool) (d : Dev) : Dev :=
  let now := d.gesso.seconds
  let wrap := decide (word ≤ tabGet 0 d.sys.scrubAt a) && (tabFind d.sys.scrubAt a).isSome
  let d := { d with sys := { d.sys with
    scrubAt := tabPut d.sys.scrubAt a word
    lastScrub := if wrap then tabPut d.sys.lastScrub a now else d.sys.lastScrub } }
  let k := a + 8 * word
  if bad then uncorrectable a loc { d with sys := { d.sys with scrub := tabDel d.sys.scrub k } } else
  match badBit with
  | none => { d with sys := { d.sys with scrub := tabDel d.sys.scrub k } }
  | some b =>
    let d := corrected a d
    let old := tabGet (b, 0) d.sys.scrub k
    let c := if old.1 = b then old.2 + 1 else 1
    if c < 3 then { d with sys := { d.sys with scrub := tabPut d.sys.scrub k (b, c) } } else
    raise { c := 39, inst := a, half := arrHalf a } { d with sys := { d.sys with
      scrub := tabDel d.sys.scrub k, repaired := tabPut d.sys.repaired a (tabGet 0 d.sys.repaired a + 1) } }
def execPatrolScrubRead (arr : Fin 8) (loc : SramLoc) (word : Nat) (badBit : Option Nat) (uncorrectable : Bool) (s : State) : Outc :=
  runP (scrub arr.val word loc badBit uncorrectable) s

/-- A Gesso register whose copies disagreed is rewritten (R385). -/
def execGessoVote (s : State) : Outc :=
  run (fun d => raise { c := 44 } { d with gesso := { d.gesso with votes := d.gesso.votes + 1 } }) s

end Sys2Proof.Machine
end

