-- ==== Sys2Proof/Machine/Flags.lean ====
section
/-! DEFINITION. Status and flag words: what every object of the dictionary and every register reads as, computed from the state (R22,
R24, R37, R54, R61, R184, R190, R238, R265, R266, R281, R298, R301, R332, R347 to R349, R376, R392, R395 to R397, R403 to R406,
R414, R415, R417, R420, R423, R432, R440, R446, R451). -/
namespace Sys2Proof.Machine

/-! ### Objects that exist -/

/-- Highest subindex that the builder image defines at an index. -/
def Dev.builderHi (d : Dev) (idx : Nat) : Nat :=
  ((List.range 256).filter (fun s => 1 ≤ s && (d.builderRow idx s).isSome)).foldl max 0

/-- The index exists (R398). -/
def Dev.idxExists (d : Dev) (idx : Nat) : Bool := if isBuilderIdx idx then d.builderHi idx != 0 else hiSub d.S idx != 0

/-- The object, where index and subindex exist. -/
def Dev.objOf (d : Dev) (idx sub : Nat) : Option Obj :=
  if isBuilderIdx idx then
    (if sub = 0 then (if d.builderHi idx = 0 then none else some (.ofConst 1 (d.builderHi idx))) else d.builderRow idx sub)
  else objInfo d.S idx sub

/-! ### Codes -/

/-- SLICE_STATE (R267). -/
def sliceCode : SliceSt → Nat
  | .free => 0 | .active => 1 | .quiescing => 2 | .quiesceStalled => 3 | .quiesced => 4 | .frozen => 5 | .fencing => 6
  | .quiescedFenced => 7 | .resetting => 8 | .removing => 9

/-- LINK_STATE of Sinopia (R245). -/
def Sinopia.code (x : Sinopia) : Nat :=
  if x.up then (if x.sparesA + x.sparesB = 0 then 2 else 3) else if x.training then 1 else 0

/-- SAFE_STATE (R417). -/
def Dev.safeState (d : Dev) : Nat := if d.start.st = 2 then 1 else if !d.gesso.forceSafeN then 2 else 0

def orBits (n : Nat) (f : Nat → Bool) : Nat := ((List.range n).filter f).foldl (fun v i => v + 2 ^ i) 0

/-- CABLE and FLAGS (R332). -/
def Dev.cableByte (d : Dev) (p : Nat) : Nat :=
  let x := d.port p
  b2n x.tc.raSeen + 2 * b2n x.pd.cableAnswered + 4 * b2n x.pd.cable5A + 8 * b2n x.pd.cableEpr + 16 * b2n x.pd.cableActive
def Dev.pdFlags (d : Dev) (p : Nat) : Nat :=
  let x := d.port p
  b2n x.isSink + 2 * b2n x.pd.contract + 4 * b2n x.pd.epr + 8 * b2n x.pd.vconn + 16 * b2n (!(d.policyUp p))

/-- One power data object in the layout of the PD standard (log entry 40). -/
def pdoWord : Pdo → Dword
  | .fixed mv ma => w32 (mv / 50 * 1024 + ma / 10)
  | .fixed5 ma drp drd usb epr =>
    w32 (b2n drp * 2 ^ 29 + b2n usb * 2 ^ 26 + b2n drd * 2 ^ 25 + b2n epr * 2 ^ 23 + 102400 + ma / 10)
  | .pps mv ma lim => w32 (0xC0000000 + b2n lim * 2 ^ 27 + mv / 100 * 2 ^ 17 + 33 * 256 + ma / 50)
  | .avs mw => w32 (0xD0000000 + 480 * 2 ^ 17 + 150 * 256 + mw / 1000)
  | .none => 0
def Dev.lastCapsBytes (d : Dev) (p : Nat) : List Byte :=
  match (d.port p).pd.lastCaps with
  | [] => leBytes 4 0
  | l => dwBytes ((l.map pdoWord).take 11)

/-! ### The fault record and the start records (R395, R451) -/

def FaultRec.words (r : FaultRec) : List Dword :=
  [w32 (b2n r.valid + 2 * r.severity + 256 * r.cause + 0x10000 * r.unit + 0x100000 * b2n r.half), r.seq, r.seconds,
   w32 (r.sub + 0x10000 * r.inst.toNat), w32 (r.slice.toNat + 256 * r.code.toNat), r.mf] ++
  r.detail.getD (Config.faultDetail r.key 0) :: (List.range 9).map (fun k => Config.faultDetail r.key (k + 1))

/-- A slot that never held a record reads its reset values. -/
def emptyFault : List Dword := [0, 0, 0, 0, 0xFF] ++ List.replicate 11 0

def faultHeader (g : Gesso) : List Dword :=
  [0x44524346, w32 (1 + 256 * g.frNext), g.frTotal, g.coldStarts, g.warmStarts, w32 (g.failedStarts + 256 * b2n g.locked), 0, 0] ++
  (match g.frFatal with | some r => r.words.take 8 | none => List.replicate 8 0)

def faultRecord (g : Gesso) : List Dword :=
  faultHeader g ++ (List.range 63).flatMap (fun k => match tabFind g.fr k with
    | some r => r.words
    | none => emptyFault)

def StartRec.words (r : StartRec) : List Dword :=
  [w32 (r.type + 256 * r.trigger + 0x10000 * b2n r.partition + 0x20000 * b2n r.fallback + 0x40000 * b2n r.sChanged +
      0x80000 * b2n r.calRedone + 0x100000 * r.result),
   r.seconds, r.us, w32 (r.subst % 65536), r.fw, 0, 0, 0]

/-- The 8 records, newest first; an empty record is 0 throughout. -/
def startRecords (g : Gesso) : List Dword :=
  ((g.records.flatMap StartRec.words) ++ List.replicate 64 0).take 64

/-! ### Values of RO objects, and of RW action objects -/

def Dev.lowValue (d : Dev) (k : Nat) : Option (List Byte) :=
  if k = okey 0x1000 4 then some (leBytes 4 d.start.fwVersion.toNat)
  else if k = okey 0x1000 5 then some (leBytes 1 d.start.part)
  else if k = okey 0x1000 6 then some ((List.range 16).map Config.serialByte)
  else if k = okey 0x1000 7 then some (leBytes 4 Config.dictVersion.toNat)
  else if k = okey 0x1100 1 then some (leBytes 1 d.gesso.nodeId.toNat)
  else if k = okey 0x1100 2 then some (leBytes 1 d.gesso.nodeSource)
  else if k = okey 0x1100 9 then some (leBytes 4 d.sys.errorsA.toNat)
  else if k = okey 0x1100 10 then some (leBytes 4 d.sys.errorsB.toNat)
  else if k = okey 0x1100 11 then some (leBytes 4 d.sys.busOff.toNat)
  else if k = okey 0x1200 2 then some (leBytes 1 d.start.st)
  else if k = okey 0x1200 3 then some (leBytes 1 d.gesso.failedStarts)
  else if k = okey 0x1201 1 then some (dwBytes (startRecords d.gesso))
  else if k = okey 0x1210 2 then some (leBytes 1 d.flash.stA)
  else if k = okey 0x1210 3 then some (leBytes 1 d.flash.stB)
  else if k = okey 0x1210 4 then some (leBytes 4 d.flash.verA.toNat)
  else if k = okey 0x1210 5 then some (leBytes 4 d.flash.verB.toNat)
  else if k = okey 0x1210 9 then some (leBytes 1 d.flash.stage)
  else if k = okey 0x1220 1 then some (leBytes 4 (orBits 24 (fun g => (d.pg g).stop)))
  else if k = okey 0x1220 6 then some (leBytes 1 d.safeState)
  else none

def Dev.midValue (d : Dev) (k : Nat) : Option (List Byte) :=
  if k = okey 0x2004 2 then some (leBytes 4 d.sys.ownerChanges.toNat)
  else if k = okey 0x2005 3 then some (leBytes 1 d.flash.save)
  else if k = okey 0x2030 2 then some (dwBytes (d.sys.opResult ++ List.replicate (8 - d.sys.opResult.length) 0))
  else if k = okey 0x2101 2 then some (leBytes 1 d.gesso.level)
  else if k = okey 0x2101 4 then some (leBytes 1 d.gesso.lastWake)
  else if k = okey 0x2160 1 then some (leBytes 2 (d.half 0).tj.toNat)
  else if k = okey 0x2160 2 then some (leBytes 2 (d.half 1).tj.toNat)
  else if k = okey 0x2160 3 then some (leBytes 2 (hotter (d.half 0).tjPeak (d.half 1).tjPeak).toNat)
  else if k = okey 0x2200 2 then some (leBytes 1 (d.cfg 0x2003 1))
  else if k = okey 0x2200 3 then some (leBytes 4 d.sinopia.reserveExhausted.toNat)
  else if k = okey 0x2300 2 then some (leBytes 4 d.sinopia.pathChanges.toNat)
  else if k = okey 0x2300 3 then some (leBytes 4 d.sinopia.reissued.toNat)
  else if k = okey 0x2300 4 then some (leBytes 4 d.sinopia.flushFailures.toNat)
  else if k = okey 0x2310 1 then some (leBytes 1 d.sinopia.code)
  else if k = okey 0x2310 2 then some (leBytes 1 d.sinopia.sparesA)
  else if k = okey 0x2310 3 then some (leBytes 1 d.sinopia.sparesB)
  else if k = okey 0x2310 4 then some (leBytes 4 d.sinopia.crcErrors.toNat)
  else if k = okey 0x2310 5 then some (leBytes 4 d.sinopia.replays.toNat)
  else if k = okey 0x2310 6 then some (leBytes 4 d.sinopia.downCount.toNat)
  else if k = okey 0x2310 7 then some (leBytes 2 d.sinopia.syncOffset.toNat)
  else none

def Dev.highValue (d : Dev) (k : Nat) : Option (List Byte) :=
  if k = okey 0x5000 0x10 then some (leBytes 4 d.sys.budget)
  else if k = okey 0x5000 0x11 then some (leBytes 4 (sumOf (d.ports.map (fun x => x.2.stage.alloc))))
  else if k = okey 0x5000 0x12 then some (leBytes 4 (sumOf (d.ports.map (fun x => x.2.stage.drawnMw))))
  else if k = okey 0x5000 0x13 then some (leBytes 4 d.sys.alertCount.toNat)
  else if k = okey 0x5000 0x14 then some (leBytes 1 (b2n d.sys.floorOver))
  else if k = okey 0x6000 1 then some (leBytes 32 d.events.pending.toNat)
  else if k = okey 0x6000 3 then some (leBytes 4 d.events.lost.toNat)
  else if k = okey 0x6001 1 then some (dwBytes (faultRecord d.gesso))
  else if k = okey 0x7020 2 then some (leBytes 4 d.gesso.votes.toNat)
  else if k = okey 0x7120 2 then some (leBytes 1 d.update.st)
  else if k = okey 0x7120 3 then some (leBytes 1 d.update.core)
  else if k = okey 0x7120 4 then some (leBytes 1 d.update.code.toNat)
  else if k = okey 0x7130 3 then some (leBytes 1 d.update.bState)
  else if k = okey 0x7130 5 then some (leBytes 4 d.update.bVersion.toNat)
  else none

/-- 0x3000 + p (R43, R184, R190, R332, R392). -/
def Dev.portValue (d : Dev) (p sub : Nat) : Option (List Byte) :=
  let x := d.port p
  match sub with
  | 0x01 => some (leBytes 1 x.owner)
  | 0x02 => some (leBytes 1 (usb2Code x.bus.usb2))
  | 0x03 => some (leBytes 1 (ssCode x.bus.ss))
  | 0x04 => some (leBytes 1 x.bus.lastCause)
  | 0x05 => some (leBytes 1 (b2n x.bus.resetRequired))
  | 0x20 => some (leBytes 4 x.cnt.txnErrors.toNat)
  | 0x21 => some (leBytes 4 x.cnt.ttFailures.toNat)
  | 0x22 => some (leBytes 4 x.cnt.babble.toNat)
  | 0x23 => some (leBytes 4 x.cnt.strayErdy.toNat)
  | 0x24 => some (leBytes 4 x.cnt.missed.toNat)
  | 0x25 => some (leBytes 4 x.cnt.naks.toNat)
  | 0x40 => some (leBytes 4 x.outageMs.toNat)
  | 0x41 => some (leBytes 4 x.outageEvents.toNat)
  | _ => none
def Dev.portPdValue (d : Dev) (p sub : Nat) : Option (List Byte) :=
  let x := d.port p
  match sub with
  | 0x30 => some (leBytes 1 (tcCode x.tc.st))
  | 0x31 => some (leBytes 1 x.tc.orientation)
  | 0x32 => some (leBytes 1 (if x.isSink then rpSeenCode x.tc.attachedCc else 0))
  | 0x33 => some (leBytes 1 (d.cableByte p))
  | 0x34 => some (leBytes 1 (if x.pd.partnerRev = 0 then 0 else x.pd.partnerRev + 1))
  | 0x35 => some (leBytes 4 x.pd.rdo.toNat)
  | 0x36 => some (leBytes 2 x.pd.mv)
  | 0x37 => some (leBytes 2 x.pd.ma)
  | 0x38 => some (leBytes 1 (d.pdFlags p))
  | 0x39 => some (leBytes 4 x.pd.hardResets.toNat)
  | 0x3A => some (leBytes 4 x.pd.softResets.toNat)
  | 0x3B => some (leBytes 4 x.pd.txFailed.toNat)
  | 0x3C => some (leBytes 4 x.pd.transDetaches.toNat)
  | 0x3D => some (d.lastCapsBytes p)
  | _ => none

/-- 0x3100 + p (R349), 0x3200 + g (R347), 0x4000 + n (R37, R238, R265, R298). -/
def Dev.policyValue (d : Dev) (p sub : Nat) : Option (List Byte) :=
  let x := (d.port p).stage
  match sub with
  | 0x23 => some (leBytes 4 x.alloc)
  | 0x24 => some (leBytes 4 x.demand)
  | 0x25 => some (leBytes 4 x.drawnMw)
  | 0x26 => some (leBytes 2 x.iMa)
  | _ => none
def Dev.pgValue (d : Dev) (g sub : Nat) : Option (List Byte) :=
  let x := d.pg g
  match sub with
  | 1 => some (leBytes 1 (orBits 8 (fun k => (d.port (8 * g + k)).stage.present)))
  | 2 => some (leBytes 1 (b2n x.stop))
  | 3 => some (leBytes 1 (d.stopState g))
  | 4 => some (leBytes 4 x.pslFailures.toNat)
  | 5 => some (leBytes 1 (orBits 8 (fun k => (d.port (8 * g + k)).stage.lost)))
  | 6 => some (leBytes 4 x.alerts.toNat)
  | _ => none
def Dev.sliceValue (d : Dev) (n sub : Nat) : Option (List Byte) :=
  let x := d.slice n
  match sub with
  | 0x01 => some (leBytes 1 x.group)
  | 0x02 => some (leBytes 4 x.pasid.toNat)
  | 0x03 => some (leBytes 1 x.half)
  | 0x04 => some (leBytes 1 (d.portsOf n).length)
  | 0x12 => some (leBytes 1 (d.eng n).linkInUse)
  | 0x13 => some (leBytes 1 (if x.st == .free then 0 else d.pathState n))
  | 0x14 => some (leBytes 1 (d.taskCore n))
  | 0x20 => some (budgetBytes d n)
  | 0x30 => some (leBytes 1 (sliceCode x.st))
  | 0x31 => some (leBytes 1 x.stall)
  | 0x32 => some (leBytes 2 x.deferred)
  | _ => none

/-- Causes (R420), host groups, domains, arrays, Easel and cores (R24, R376, R397, R432). -/
def Dev.causeValue (d : Dev) (c sub : Nat) : Option (List Byte) :=
  match sub with
  | 1 => some ((causeName c).toUTF8.toList.map (fun b => b.toBitVec))
  | 4 => some (leBytes 4 (tabGet 0 d.events.count c).toNat)
  | 5 => some (leBytes 4 (tabGet 0 d.events.seconds c).toNat)
  | 6 => some (leBytes 2 (tabGet 0xFFFF d.events.inst c).toNat)
  | _ => none
def Dev.unitValue (d : Dev) (idx sub : Nat) : Option (List Byte) :=
  if 0x2120 ≤ idx && idx < 0x2138 then
    (match sub with | 1 => some (leBytes 1 (d.pg (idx - 0x2120)).req) | 2 => some (leBytes 1 (d.pg (idx - 0x2120)).st) | _ => none)
  else if 0x2140 ≤ idx && idx < 0x2144 then
    (match sub with
      | 1 => some (leBytes 1 (d.func (idx - 0x2140)).upReq) | 2 => some (leBytes 1 (d.func (idx - 0x2140)).upState) | _ => none)
  else if 0x2150 ≤ idx && idx < 0x2152 then
    (match sub with
      | 1 => some (leBytes 2 (d.half (idx - 0x2150)).bankReq.toNat) | 2 => some (leBytes 2 (d.half (idx - 0x2150)).bankOn.toNat)
      | _ => none)
  else if idx = 0x2202 then some (leBytes 4 (Config.budget d.S sub))
  else none
def Dev.integrityValue (d : Dev) (idx sub : Nat) : Option (List Byte) :=
  if 0x7000 ≤ idx && idx < 0x7002 then
    let x := d.half (idx - 0x7000)
    (match sub with
      | 1 => some (leBytes 4 x.residueRetries.toNat) | 2 => some (leBytes 4 x.unitFences.toNat) | 3 => some (leBytes 4 x.genOut.toNat)
      | 4 => some (leBytes 4 x.sealMismatch.toNat) | 5 => some (leBytes 4 x.restarts.toNat) | _ => none)
  else if 0x7010 ≤ idx && idx < 0x7018 then
    let a := idx - 0x7010
    (match sub with
      | 1 => some (leBytes 4 (tabGet 0 d.sys.corrected a).toNat) | 2 => some (leBytes 4 (tabGet 0 d.sys.uncorrectable a).toNat)
      | 3 => some (leBytes 2 (tabGet 0 d.sys.repaired a).toNat) | 4 => some (leBytes 4 (tabGet 0 d.sys.lastScrub a).toNat) | _ => none)
  else if 0x7100 ≤ idx && idx < 0x7102 then
    let h := idx - 0x7100
    (match sub with
      | 1 => some (leBytes 2 (d.easelTasks h).length) | 2 => some (leBytes 2 (d.half h).easel.peak)
      | 3 => some (leBytes 4 (d.half h).easel.heldEvents.toNat) | _ => none)
  else if 0x7110 ≤ idx && idx < 0x711C then
    let x := d.core (idx - 0x7110)
    (match sub with
      | 1 => some (leBytes 1 x.st) | 2 => some (leBytes 4 x.restarts.toNat) | 3 => some (leBytes 4 x.tasks.toNat)
      | 4 => some (leBytes 4 x.version.toNat) | _ => none)
  else none

/-- The value that the state, not the dictionary store, gives an object. -/
def Dev.liveValue (d : Dev) (idx sub : Nat) : Option (List Byte) :=
  if idx < 0x2000 then d.lowValue (okey idx sub)
  else if 0x2010 ≤ idx && idx < 0x2014 then (if sub = 3 then some (leBytes 1 (hgCode (d.hgSt (idx - 0x2010)))) else none)
  else if 0x2120 ≤ idx && idx < 0x2160 || idx = 0x2202 then d.unitValue idx sub
  else if idx < 0x3000 then d.midValue (okey idx sub)
  else if idx < 0x3100 then (d.portValue (idx - 0x3000) sub).orElse (fun _ => d.portPdValue (idx - 0x3000) sub)
  else if idx < 0x3200 then d.policyValue (idx - 0x3100) sub
  else if idx < 0x4000 then d.pgValue (idx - 0x3200) sub
  else if idx < 0x5000 then d.sliceValue (idx - 0x4000) sub
  else if 0x6100 ≤ idx && idx < 0x6200 then d.causeValue (idx - 0x6100) sub
  else if 0x7000 ≤ idx && idx < 0x7018 || 0x7100 ≤ idx && idx < 0x711C then d.integrityValue idx sub
  else d.highValue (okey idx sub)

/-- The value that a read of an object returns (R6, R8, R398 to R400). -/
def Dev.objRead (d : Dev) (idx sub : Nat) (o : Obj) : List Byte :=
  if sub = 0 then leBytes 1 o.dflt
  else if isBuilderIdx idx then leBytes o.size (tabGet o.dflt d.dict.shadow (okey idx sub))
  else match d.liveValue idx sub with
    | some v => v
    | none => if o.acc == .const then leBytes o.size o.dflt else leBytes o.size (d.stored idx sub)

/-- A read by any role: the REASON of a refusal, or the value (R400, R412). -/
def Dev.dictRead (d : Dev) (idx sub : Nat) : Except Nat (List Byte) :=
  if !(d.idxExists idx) then .error 1 else
  match d.objOf idx sub with
  | none => .error 2
  | some o => if o.acc == .wo then .error 4 else .ok (d.objRead idx sub o)

/-! ### Registers: BAR0 (R22, R26, R281, R415) -/

/-- Function f is the manager port in effect. -/
def Dev.isManager (d : Dev) (f : Nat) : Bool := d.cfg 0x2002 1 == f

/-- ID registers (R22). GROUP_PROVEN of a function in no host group reads the state of group 0 (DESIGN CHOICE, log entry 62). -/
def Dev.identReg (d : Dev) (f off : Nat) : Nat :=
  let g := (d.groupOf f).getD 0
  match off with
  | 0 => 0xA0 + 256 * f + 1024 * halfOfFunc f + 2048 * b2n (d.isManager f)
  | 4 => d.S + 256 * g + 1024 * b2n (d.hgSt g == .single || d.hgSt g == .proven)
  | 8 => d.start.fwVersion.toNat
  | 12 => Config.shareVectors d.S + 65536 * Config.vecStride d.S
  | _ => 0

def Dev.ctlReg (d : Dev) (f off : Nat) : Nat :=
  match off with
  | 0 => b2n (d.func f).evtEnSh
  | 4 => b2n d.start.deviceReady + 2 * b2n d.sinopia.up + 4 * b2n ((d.peer f).any (fun m => (d.func m).linkUp))
  | _ => 0

/-- Handshake registers (R26). HG_STATE of a function in no host group reads 0 (DESIGN CHOICE, log entry 62). -/
def Dev.hgReg (d : Dev) (f off : Nat) : Nat :=
  let x := d.func f
  match off with
  | 4 => match d.groupOf f with
    | some g => hgCode (d.hgSt g) + 256 * (d.group g).cause + 4096 * (d.group g).startPort.toNat
    | none => 0
  | 8 => x.hgBufSh.toNat % 2 ^ 32
  | 12 => x.hgBufSh.toNat / 2 ^ 32
  | _ => 0

/-- Four bytes of a buffer. -/
def memDw (m : Mem) (off : Nat) : Nat := ofBytes (memRead m off 4)

def adminReg (m : Memory) (d : Dev) (off : Nat) : Nat :=
  let x := d.mbox
  if 0x1000 ≤ off && off < 0x2000 then memDw m.req (off - 0x1000)
  else if 0x2000 ≤ off && off < 0x3000 then memDw m.resp (off - 0x2000)
  else match off with
    | 4 => b2n x.busy + 2 * b2n x.done + 4 * b2n x.overrun + 8 * b2n (d.cfg 0x2004 1 == 0)
    | 0x10 => x.op.toNat + 256 * x.seq.toNat
    | 0x14 => x.index.toNat + 65536 * x.sub.toNat
    | 0x18 => x.length.toNat
    | 0x20 => x.code.toNat + 256 * x.reason.toNat + 65536 * x.rseq.toNat
    | 0x24 => x.rlength.toNat
    | _ => 0

def Dev.fenceReg (d : Dev) (off : Nat) : Nat :=
  if 0x10 ≤ off && off < 0x28 then
    orBits 32 (fun i => (d.slice ((off - 0x10) * 8 + i)).st == .quiescedFenced)
  else if 0x100 ≤ off && off < 0x700 then
    let x := d.slice ((off - 0x100) / 8)
    if off % 8 = 0 then sliceCode x.st + 256 * x.lastCode.toNat + 65536 * x.stall else x.deferred
  else 0

def Dev.evtReg (d : Dev) (f off : Nat) : Nat :=
  let x := d.func f
  if off = 0 then b2n x.restarted + 2 * b2n x.groupState + 4 * b2n (x.sliceEvt != 0)
  else if 0x10 ≤ off && off < 0x28 then x.sliceEvt.toNat / 2 ^ ((off - 0x10) * 8) % 2 ^ 32
  else 0

/-- A 32-bit register of BAR0 of function f. -/
def readBar0 (m : Memory) (d : Dev) (f off : Nat) : Nat :=
  if off < 0x1000 then d.identReg f off
  else if off < 0x2000 then d.ctlReg f (off - 0x1000)
  else if off < 0x3000 then d.hgReg f (off - 0x2000)
  else if off < 0x4000 then 0
  else if off < 0x8000 then (if d.isManager f then adminReg m d (off - 0x4000) else 0)
  else if off < 0xC000 then (if d.isManager f then d.fenceReg (off - 0x8000) else 0)
  else if off < 0x10000 then d.evtReg f (off - 0xC000)
  else 0

/-! ### Registers: BAR2 and BAR4 (R38, R40, R54, R55, R61) -/

def qstCode : QSt → Nat
  | .disabled => 0 | .active => 1 | .draining => 2 | .error => 3 | .stopped => 4

/-- Q_STATUS (R61). -/
def statusWord (st : QSt) (full refused : Bool) (err reason : Byte) : Nat :=
  qstCode st + 8 * b2n (st == .disabled) + 16 * b2n full + 32 * b2n refused + 256 * err.toNat + 65536 * reason.toNat

def wqReg (q : Nat) (w : WQ) (off : Nat) : Nat :=
  match off with
  | 0x148 => w.base.toNat % 2 ^ 32
  | 0x14C => w.base.toNat / 2 ^ 32
  | 0x150 => b2n w.sh.enable + 4 * w.sizeLog + (if q < 8 then 128 * b2n w.sh.pushEn else 0) + 256 * w.sh.weight.toNat +
      4096 * w.sh.burst.toNat + 2 ^ 20 * w.target.toNat
  | 0x158 => w.start.toNat
  | 0x160 => statusWord w.st false w.cfgRefused w.errCode w.reason
  | 0x164 => w.errIndex.toNat
  | 0x168 => w.ci.toNat
  | _ => 0

def cqReg (c : CQ) (off : Nat) : Nat :=
  match off with
  | 0x148 => c.base.toNat % 2 ^ 32
  | 0x14C => c.base.toNat / 2 ^ 32
  | 0x150 => b2n c.sh.enable + 4 * c.sizeLog
  | 0x154 => c.sh.vector.toNat + 65536 * c.sh.modCount.toNat + 2 ^ 24 * c.sh.modTime.toNat
  | 0x158 => c.start.toNat
  | 0x160 => statusWord c.st (c.st != .disabled && c.full) c.cfgRefused c.errCode 0
  | 0x164 => c.errIndex.toNat
  | 0x168 => c.pi.toNat
  | _ => 0

/-- The doorbell page of slice n (R54). -/
def Dev.pageReg (d : Dev) (n off : Nat) : Nat :=
  let x := d.slice n
  if 0x100 ≤ off && off < 0x130 then
    let b := tabGet 0 x.idxBase ((off - 0x100) / 8)
    if off % 8 = 0 then b.toNat % 2 ^ 32 else b.toNat / 2 ^ 32
  else if off = 0x140 then x.qNum.toNat + 4096 * b2n x.qKind
  else if 0x148 ≤ off && off < 0x16C then
    (if d.share ≤ x.qNum.toNat then 0 else if x.qKind then cqReg (x.cq x.qNum.toNat) off else wqReg x.qNum.toNat (x.wq x.qNum.toNat) off)
  else if off = 0x200 then x.dbIgnored.toNat
  else if off = 0x204 then x.pushFallback.toNat
  else 0

/-- One word of a vector table entry, and of a pending bit array. -/
def vecReg (v : Vec) (k : Nat) : Nat :=
  match k with
  | 0 => v.addr.toNat % 2 ^ 32
  | 1 => v.addr.toNat / 2 ^ 32
  | 2 => v.data.toNat
  | _ => b2n v.mask
def pbaReg (t : Tab Vec) (k : Nat) : Nat := orBits 32 (fun i => (tabGet {} t (32 * k + i)).pend)

/-- The slice and the offset in its vector region that an offset of BAR4 names. -/
def Dev.vecRegion (d : Dev) (off : Nat) : Nat × Nat :=
  let stride := 4096 * Config.vecStride d.S
  ((off - 0x10000) / stride, (off - 0x10000) % stride)
/-- What the configuration space of each of the four functions presents (R20): class code, capabilities, and sizes of BAR 0, 2 and
4, which are memory, 64-bit and not prefetchable. -/
structure FuncCaps where
  classCode : Nat := 0x0C0380
  virtualFuncs : Nat := 0
  ats : Bool := false
  pasidWidth : Nat := 20
  pasidExecute : Bool := false
  pasidPrivileged : Bool := false
  msixEntries : Nat := 64
  bars : List (Nat × Nat) := [(0, 0x10000), (2, 0x100000), (4, 0x200000)]
  barWidth : Nat := 64
  prefetchable : Bool := false
deriving DecidableEq, Repr
def funcCaps : FuncCaps := {}
/-- Size of a BAR, 0 for none. -/
def barSize (bar : Nat) : Nat := tabGet 0 funcCaps.bars bar

/-- Offset of the pending bit array in a vector region (R40). -/
def Dev.pbaOff (d : Dev) : Nat := 4096 * cdiv (16 * Config.shareVectors d.S) 4096

def Dev.bar4Reg (d : Dev) (f off : Nat) : Nat :=
  if off < 16 * funcCaps.msixEntries then vecReg (tabGet {} (d.func f).vecs (off / 16)) (off / 4 % 4)
  else if 0x800 ≤ off && off < 0x808 then pbaReg (d.func f).vecs ((off - 0x800) / 4)
  else if off < 0x10000 then 0
  else
    let r := d.vecRegion off
    if !(d.shows f r.1) then 0
    else if r.2 < 16 * Config.shareVectors d.S then vecReg (tabGet {} (d.slice r.1).vecs (r.2 / 16)) (r.2 / 4 % 4)
    else if d.pbaOff ≤ r.2 && r.2 - d.pbaOff < 4 * cdiv (Config.shareVectors d.S) 32 then pbaReg (d.slice r.1).vecs ((r.2 - d.pbaOff) / 4)
    else 0

/-- What a 32-bit read of a register returns: BAR 0, 2 or 4 of function f. -/
def readReg (m : Memory) (d : Dev) (f bar off : Nat) : Nat :=
  if barSize bar ≤ off then 0
  else if bar = 0 then readBar0 m d f off
  else if bar = 2 then (if d.shows f (off / 4096) then d.pageReg (off / 4096) (off % 4096) else 0)
  else if bar = 4 then d.bar4Reg f off
  else 0

end Sys2Proof.Machine
end

