-- ==== Sys2Proof/Machine/Manage.lean ====
section
/-! DEFINITION. Dictionary writes (R5 to R8, R25, R400, R401, R405, R406, R413, R416, R417, R423), the builder's dictionary accesses
(R372 to R374), and the rows of objects that have one. -/
namespace Sys2Proof.Machine

/-! ### The checks of a write (R401) -/

/-- The objects that the recovery loader serves (R449). -/
def loaderServes (idx : Nat) : Bool := idx = 0x1000 || idx = 0x1100 || idx = 0x1210 || idx = 0x6001

/-- Writes that R416 leaves to the role that is not owner. -/
def anyRole (idx sub : Nat) (bs : List Byte) : Bool :=
  idx = 0x1220 || (0x3200 ≤ idx && idx < 0x3218 && sub = 2) || (idx = 0x2030 && sub = 1 && bs.headD 0 = 0x42)

/-- The block that uses a Q field runs (R7, R25, R238, R333). -/
def Dev.qRuns (d : Dev) (idx : Nat) : Bool :=
  if 0x2010 ≤ idx && idx ≤ 0x2013 then (d.boundTo (idx - 0x2010)).length != 0
  else if 0x3100 ≤ idx && idx < 0x31C0 then !(d.port (idx - 0x3100)).tc.st.stopped
  else if 0x4000 ≤ idx && idx < 0x40C0 then (d.slice (idx - 0x4000)).st != .free
  else false

/-- A member that R25 refuses. -/
def Dev.groupBad (d : Dev) (g sub v : Nat) : Bool :=
  let a := if sub = 1 then v else d.cfg (0x2010 + g) 1
  let b := if sub = 2 then v else d.cfg (0x2010 + g) 2
  let other := fun f => f < 4 && (List.range 4).any (fun k => k != g && (d.members k).contains f)
  (sub = 2 && v != 0xFF && a = 0xFF) || other a || other b || (a < 4 && b < 4 && halfOfFunc a == halfOfFunc b)

/-- A rule of the object's chapter refuses the value: code and REASON (R25, R238, R270, R333, R417). -/
def Dev.ruleBad (d : Dev) (idx sub v : Nat) : Option (Nat × Nat) :=
  let bad := fun (c : Bool) (code reason : Nat) => if c then some (code, reason) else none
  if 0x2010 ≤ idx && idx ≤ 0x2013 && (sub = 1 || sub = 2) then bad (d.groupBad (idx - 0x2010) sub v) cNotPermitted 11
  else if 0x3100 ≤ idx && idx < 0x31C0 && sub = 0x0C then bad (d.port (idx - 0x3100)).seq.req.isSome cBusy 3
  else if 0x4000 ≤ idx && idx < 0x40C0 && sub = 0x11 then
    bad (v != 0xFF && !((d.members (d.slice (idx - 0x4000)).group).contains v)) cNotPermitted 11
  else if idx = 0x1220 && sub = 2 then
    (if d.S ≤ v then some (cNotPermitted, 6) else bad ((d.slice v).st == .free) cNotPermitted 11)
  else none

/-- The first check that a write fails, in the order of R401; owned: the writer is the owner. -/
def Dev.writeBad (d : Dev) (owned : Bool) (idx sub : Nat) (bs : List Byte) : Option (Nat × Nat) :=
  if !(d.idxExists idx) then some (cNotPermitted, 1) else
  match d.objOf idx sub with
  | none => some (cNotPermitted, 2)
  | some o =>
    let v := ofBytes bs
    if o.acc == .ro || o.acc == .const then some (cNotPermitted, 3)
    else if !owned && !(anyRole idx sub bs) then some (cNotPermitted, 7)
    else if bs.length != o.size then some (cNotPermitted, 5)
    else if o.size ≤ 8 && !(objRange o idx sub v d.stored) then some (cNotPermitted, 6)
    else if o.cls == .q && v != d.stored idx sub && d.qRuns idx then some (cBusy, 2)
    else d.ruleBad idx sub v

/-! ### What a write does (R5 to R8, R26) -/

/-- A write-only L field: the value waits for its commit; it is no value of the journal (R425). -/
def shadowPut (idx sub v : Nat) (d : Dev) : Dev :=
  let k := okey idx sub
  { d with dict := { d.dict with shadow := tabPut d.dict.shadow k v, dirty := k :: d.dict.dirty.filter (fun x => x != k) } }

/-- New members of a host group: Single becomes Unproven with a second port, and a two-port state Single without one. R26 has no
other row, so a two-port group keeps its state when a write replaces a member. -/
def groupWrite (g sub v : Nat) (d : Dev) : Dev :=
  let two := d.twoPort g
  let was := d.hgSt g
  let before := d.members g
  let d := storeObj .q (0x2010 + g) sub v d
  if two = d.twoPort g then d else
  let st : HgSt := if d.twoPort g then .unproven else .single
  let d := d.modGroup g (fun x => { x with st := st, cause := 0, nonce := none, lost := [] })
  if was = st then d else groupChanged g (before ++ (d.members g).filter (fun f => !(before.contains f))) d

/-- A value reaches the store of its class. Bit 0 of FIXED_MASK is always 1 (R333). -/
def storeWrite (o : Obj) (idx sub v : Nat) (d : Dev) : Dev :=
  if o.acc == .wo then shadowPut idx sub v d
  else if o.cls == .q && 0x2010 ≤ idx && idx ≤ 0x2013 then groupWrite (idx - 0x2010) sub v d
  else if 0x3100 ≤ idx && idx < 0x31C0 && sub = 4 then storeObj o.cls idx sub (v ||| 1) d
  else storeObj o.cls idx sub v d

/-! ### SAVE and RESTORE (R406, R425, R426) -/

/-- The shadow values of every RW object of class L, Q or B. -/
def Dev.savedShadow (d : Dev) : Tab Nat :=
  d.dict.shadow.filter (fun e => match d.objOf (e.1 / 256) (e.1 % 256) with
    | some o => o.acc == .rw && (o.cls == .l || o.cls == .q || o.cls == .b)
    | none => false)

/-- SAVE or RESTORE begins; what is written from now on is in the journal after it. -/
def saveBegin (p : Path) (isSave : Bool) (d : Dev) : Dev :=
  if d.flash.saving.isSome then refuse p cBusy 3 d else
  let t := d.dict.merge
  { d with
    dict := { t with jold := t.journal, journal := [], next := if isSave then d.savedShadow else [] }
    flash := { d.flash with saving := some (isSave, p), save := 1 } }

/-- It ends: the stored values are the new ones and what was written before is no longer in the journal; or nothing is lost. -/
def saveEnd (ok : Bool) (d : Dev) : Dev :=
  match d.flash.saving with
  | none => d
  | some (_, p) =>
    if ok then
      accept p { d with
        dict := { d.dict with saved := d.dict.next, jold := [], next := [] }, flash := { d.flash with saving := none, save := 2 } }
    else
      refuse p Config.saveFailCode.toNat Config.saveFailReason.toNat
        { d with dict := d.dict.merge, flash := { d.flash with saving := none, save := 3 } }

/-! ### Action objects -/

/-- STOP_MASK (R346, R417). -/
def stopMaskAct (mask : Nat) : Dev → Dev := forEach allGroups (fun g => setStop g (mask / 2 ^ g % 2 = 1))

/-- DEVICE_RESET (R417, R445): reset as RESET_N does, with trigger 3. -/
def deviceReset (d : Dev) : Dev :=
  let d := holdReset allGroups d
  beginCold 3 { d with start := { d.start with waitTrigger := 3 } }

/-- The writable objects of 0x1220; w: who waits for a fence. ack: the answer. -/
def gessoAct (sub v : Nat) (w : FenceWho) (ack : Dev → Dev) (d : Dev) : Dev :=
  match sub with
  | 1 => ack (stopMaskAct v d)
  | 2 => fence [v] (some w) d
  | 3 => if v = 1 then fence d.notFree (some w) d else ack d
  | 4 => clearLock (ack d)
  | 5 => deviceReset (ack d)
  | _ => d

/-- EVENT_ACK (R423). -/
def ackEvent (v : Nat) (d : Dev) : Dev :=
  { d with events := { d.events with pending := if v = 256 then 0 else d.events.pending &&& ~~~(1#256 <<< v) } }

/-- A manager operation block (R413). -/
def blockWrite (p : Path) (bs : List Byte) (image : List Dword) (d : Dev) : Dev :=
  let w := bytesDw bs
  let op := blockOp w
  let b := blockOf w
  if op < 0x40 || 0x4A < op then blockRefuse p op b 6 d
  else if blockReserved w then blockRefuse p op b 12 d
  else managerOp p op b image d

/-- An action object takes effect when the write arrives; image: what an import reads. -/
def actWrite (p : Path) (idx sub v : Nat) (bs : List Byte) (image : List Dword) (d : Dev) : Dev :=
  if idx = 0x1200 then (if v = 1 then startCmd p 2 5 d else startCmd p 1 4 d)
  else if idx = 0x1210 then (if sub = 7 then stageData p bs d else stageCmdAct p (if v = 1 then 1 else 3) d)
  else if idx = 0x1220 then gessoAct sub v (.obj p) (accept p) d
  else if idx = 0x2005 then saveBegin p (sub = 1) d
  else if idx = 0x2030 then blockWrite p bs image d
  else if idx = 0x2101 then levelReq p v d
  else if idx = 0x6000 then accept p (ackEvent v d)
  else if idx = 0x7120 then updateCmd p (if v = 0x80 then vendorCores else [v]) d
  else if idx = 0x7130 then
    reloadBuilder p v (Config.builderOk d.freeCtr d.start.part) (Config.builderVersion d.freeCtr d.start.part)
      { d with freeCtr := d.freeCtr + 1 }
  else if 0x2120 ≤ idx && idx < 0x2138 then pgWrite p (idx - 0x2120) v d
  else if 0x2140 ≤ idx && idx < 0x2144 then (if v = 0 then upOnWrite p (idx - 0x2140) d else upOffWrite p (idx - 0x2140) d)
  else if 0x2150 ≤ idx && idx < 0x2152 then bankWrite p (idx - 0x2150) (BitVec.ofNat 16 v) d
  else if 0x3200 ≤ idx && idx < 0x3218 then accept p (setStop (idx - 0x3200) (v = 1) d)
  else d

/-- The builder class of half 0, by which the dictionary server forwards, has no slot (R364, R365). -/
def Dev.builderFull (d : Dev) : Bool := 128 ≤ ((d.easelTasks 0).filter (fun t => t.target == 5)).length

/-- A write of a builder object is forwarded as a task of level 5 to the builder core of the dictionary server's half (R360, R365,
R374; log entry 45). -/
def forwardWrite (p : Path) (idx sub : Nat) (bs : List Byte) (d : Dev) : Dev :=
  if d.update.fwd.isSome then refuse p cBusy 3 d
  else if d.builderFull then refuse p cBusy 1 d
  else
    let arg := (List.range 4).map (Config.taskArg d.freeCtr)
    (addTask 0 (hwTask .builderForward 9 5 ++ arg)
      { d with freeCtr := d.freeCtr + 1, update := { d.update with fwd := some (p, idx, sub, bs) } }).2

/-- A write that the dictionary server takes (R401). -/
def dictWrite (p : Path) (owned : Bool) (idx sub : Nat) (bs : List Byte) (image : List Dword) (d : Dev) : Dev :=
  match d.writeBad owned idx sub bs with
  | some (code, reason) => refuse p code reason d
  | none =>
    if isBuilderIdx idx then forwardWrite p idx sub bs d
    else match d.objOf idx sub with
      | none => d
      | some o =>
        if o.cls == .act then actWrite p idx sub (ofBytes bs) bs image d
        else accept p (storeWrite o idx sub (ofBytes bs) d)

/-- The answer to a read (R400, R412). -/
def dictAnswer (p : Path) (idx sub : Nat) (d : Dev) : Dev :=
  match d.dictRead idx sub with
  | .error reason => refuse p cNotPermitted reason d
  | .ok bs => answer p cOk 0 bs d

/-! ### Rows -/

def writeRow (p : Path) (idx sub : Nat) (bs : List Byte) (image : List Dword) (s : State) : Outc :=
  runP (entered p (loaderServes idx) (fun d => dictWrite p (d.isOwner p) idx sub bs image d)) s

def execObjectWrite (p : Path) (index : BitVec 16) (sub : Byte) (value : List Byte) (image : List Dword) (s : State) : Outc :=
  writeRow p index.toNat sub.toNat value image s
def execObjectRead (p : Path) (index : BitVec 16) (sub : Byte) (s : State) : Outc :=
  run (entered p (loaderServes index.toNat) (dictAnswer p index.toNat sub.toNat)) s

def execSave (p : Path) (v : Byte) (s : State) : Outc := writeRow p 0x2005 1 [v] [] s
def execRestore (p : Path) (v : Byte) (s : State) : Outc := writeRow p 0x2005 2 [v] [] s
def execSaveDone (ok : Bool) (s : State) : Outc := run (saveEnd ok) s
def execEventAck (p : Path) (v : BitVec 16) (s : State) : Outc := writeRow p 0x6000 2 (leBytes 2 v.toNat) [] s

/-- The minimal responder answers on link l (R418); Gesso's loop runs its receiver (R438, R439). -/
def Dev.miniUp (d : Dev) (l : Nat) : Bool :=
  let g := d.gesso
  (g.vdd || g.vsrv) && g.clock && g.loop && d.linkEnabled l && !(d.can l).busOff

/-- A Gesso command (R384, R417): through the dictionary server, or, where that serves no such object, through the minimal responder
of a CAN link. -/
def gessoRow (p : Path) (sub : Nat) (bs : List Byte) (s : State) : Outc :=
  runP (fun d =>
    let f := dictWrite p (d.isOwner p) 0x1220 sub bs []
    if d.gesso.level = 0 && d.start.st != 2 then entered p false f d
    else match p with
      | .can l => if d.miniUp l.val then f d else d
      | .admin => d) s
def execStopMask (p : Path) (mask : Dword) (s : State) : Outc := gessoRow p 1 (leBytes 4 mask.toNat) s
def execFenceSlice (p : Path) (n : Byte) (s : State) : Outc := gessoRow p 2 [n] s
def execFenceAll (p : Path) (v : Byte) (s : State) : Outc := gessoRow p 3 [v] s
def execLockClear (p : Path) (v : Byte) (s : State) : Outc := gessoRow p 4 [v] s
def execDeviceReset (p : Path) (v : Byte) (s : State) : Outc := gessoRow p 5 [v] s

/-! ### The builder's accesses (R372, R373) -/

/-- A write that BUILDER_WRITE_MASK, or the builder's object table, permits. -/
def Dev.builderMay (d : Dev) (idx sub : Nat) : Bool :=
  let m := fun k => d.cfg 0x7130 2 / 2 ^ k % 2 == 1
  let policy := 0x3100 ≤ idx && idx < 0x31C0
  (isBuilderIdx idx && (d.builderRow idx sub).any (fun o => o.acc != .const)) ||
  (policy && 0x20 ≤ sub && sub ≤ 0x22 && m 0) ||
  (idx = 0x5000 && 1 ≤ sub && sub ≤ 4 && m 1) ||
  (policy && (sub = 2 || (4 ≤ sub && sub ≤ 0x0A)) && m 2) ||
  (0x3200 ≤ idx && idx < 0x3218 && sub = 2 && m 3)

/-- Status and value of an access: 0 done, 1 not permitted, 2 busy, 3 no such object, 4 range. -/
def builderAccess (idx sub : Nat) (write : Bool) (bs : List Byte) (d : Dev) : Nat × List Byte × Dev :=
  if write then
    if !(d.builderMay idx sub) then (1, [], d) else
    match d.objOf idx sub with
    | none => (3, [], d)
    | some o =>
      let v := ofBytes bs
      if bs.length != o.size || (o.size ≤ 8 && !(objRange o idx sub v d.stored)) then (4, [], d)
      else if o.cls == .q && v != d.stored idx sub && d.qRuns idx then (2, [], d)
      else if o.cls == .act then (0, [], setStop (idx - 0x3200) (v = 1) d)
      else (0, [], if isBuilderIdx idx then storeObj o.cls idx sub v d else storeWrite o idx sub v d)
  else if 0x4000 ≤ idx && idx < 0x40C0 then (1, [], d)
  else match d.dictRead idx sub with
    | .error 4 => (1, [], d)
    | .error _ => (3, [], d)
    | .ok v => (0, v, d)

/-- DICT_WAIT reads the status; the value is in the block. -/
def dictDeliver (c : Nat) (d : Dev) : Dev :=
  let x := d.core c
  let d := emit (.csr (toCore c) (w32 x.dictStatus)) (d.modCore c (fun x => { x with dictBlocked := false }))
  if x.dictStatus = 0 && x.dictValue.length != 0 then emit (.sram (toCore c) x.dictValue) d else d

/-- The dictionary server cannot take a request: L0's tasks have no core, or the device class is full (R237, R365). -/
def Dev.serverOut (d : Dev) : Bool := d.start.st = 0 && (d.deviceFull 0 || (d.servedBy 0 0).isNone)

/-- The server takes the access of builder core c. -/
def serveBuilder (c : Nat) (d : Dev) : Dev :=
  match (d.core c).dictReq with
  | none => d
  | some r =>
    if d.serverOut then d else
    let t := builderAccess r.1 r.2.1 r.2.2.1 r.2.2.2 d
    let d := t.2.2.modCore c (fun x => { x with dictReq := none, dictStatus := t.1, dictValue := t.2.1 })
    if (d.core c).dictBlocked then dictDeliver c d else d

def execDictReq (c : CoreId) (index : BitVec 16) (sub : Byte) (write : Bool) (value : List Byte) (s : State) : Outc :=
  runP (fun d =>
    if !(isBuilder c && d.coreUp c) || (d.core c).dictReq.isSome then d
    else serveBuilder c (d.modCore c (fun x => { x with dictReq := some (index.toNat, sub.toNat, write, value) }))) s

def execDictWait (c : CoreId) (s : State) : Outc :=
  run (fun d =>
    if !(isBuilder c && d.coreUp c) then d
    else if (d.core c).dictReq.isSome then d.modCore c (fun x => { x with dictBlocked := true })
    else dictDeliver c d) s

end Sys2Proof.Machine
end

