-- ==== Sys2Proof/Machine/Herob.lean ====
section
/-! DEFINITION. Herob (R407 to R412), the minimal responder (R418), the mailbox (R415), heartbeat and event frames (R419, R422), bus-off
(R404), and the requests that wait for the dictionary server (R365, R411). -/
namespace Sys2Proof.Machine

/-! ### Frames to the dictionary server (R408 to R411) -/

/-- The server hears frames on link l. -/
def Dev.canServes (d : Dev) (l : Nat) : Bool :=
  d.linkEnabled l && !(d.can l).busOff && d.gesso.level == 0 &&
    (if d.start.st = 2 then d.gesso.railsGood else d.start.st != 1 || !(d.half 0).inReset)

/-- A response that leaves what awaits its answer as it is. -/
def herobReply (l cmd : Nat) (fr : HFrame) (seq : Nat) (data : List Byte) (d : Dev) : Dev :=
  let bs := herobBytes cmd fr seq data
  canSend l 9 bs (d.modCan l (fun x => { x with lastResp := bs }))
def herobAbort (l : Nat) (fr : HFrame) (code reason : Nat) : Dev → Dev := herobReply l 0x7F fr 0 (leBytes 4 (code + 256 * reason))

/-- A protocol error is counted and raises an event (R404, R421). -/
def protoCount (l : Nat) (d : Dev) : Dev :=
  raise { c := 193, inst := l } { d with sys := { d.sys with
    errorsA := if l = 0 then d.sys.errorsA + 1 else d.sys.errorsA, errorsB := if l = 0 then d.sys.errorsB else d.sys.errorsB + 1 } }

/-- The frame is one of the transfer in progress. -/
def Seg.owns (x : Seg) (fr : HFrame) : Bool := x.txn == fr.txn && x.index == fr.index && x.sub == fr.sub

/-- A protocol error ends the transfer that the frame belongs to. -/
def protoError (l : Nat) (fr : HFrame) (d : Dev) : Dev :=
  herobAbort l fr cNotPermitted 8 (protoCount l (d.modCan l (fun x => { x with seg := x.seg.filter (fun s => !(s.owns fr)) })))

/-- In Safe hold the recovery loader serves few objects (R449). -/
def Dev.unserved (d : Dev) (idx : Nat) : Bool := d.start.st = 2 && !(loaderServes idx)

/-- Data of segment seq of a value (R409). -/
def segment (data : List Byte) (seq : Nat) : List Byte := (data.drop (56 * (seq - 1))).take 56

/-- READ: one snapshot of the value. -/
def frameRead (l : Nat) (fr : HFrame) (d : Dev) : Dev :=
  if d.unserved fr.index.toNat then herobAbort l fr cNotPermitted 1 d else
  match d.dictRead fr.index.toNat fr.sub.toNat with
  | .error reason => herobAbort l fr cNotPermitted reason d
  | .ok bs =>
    if bs.length ≤ 56 then herobReply l 0x11 fr 0 bs d
    else
      let x : Seg := { isWrite := false, txn := fr.txn, index := fr.index, sub := fr.sub, total := bs.length, next := 1, data := bs }
      herobReply l 0x12 fr 0 (leBytes 4 bs.length) (d.modCan l (fun y => { y with seg := some x }))

def frameSegGet (l : Nat) (fr : HFrame) (d : Dev) : Dev :=
  match (d.can l).seg with
  | none => protoError l fr d
  | some x =>
    if !(x.owns fr) || x.isWrite || fr.seq != x.next then protoError l fr d
    else
      let last := x.total ≤ 56 * fr.seq
      herobReply l 0x14 fr fr.seq (segment x.data fr.seq)
        (d.modCan l (fun y => { y with seg := if last then none else some { x with next := x.next + 1 } }))

/-- A whole value has arrived: it is checked and applied (R401, R405). -/
def frameApply (l : Nat) (fr : HFrame) (owned : Bool) (bs : List Byte) (image : List Dword) (d : Dev) : Dev :=
  let p : Path := .can (toLink l)
  let d := d.modCan l (fun y => { y with seg := none, cur := some fr })
  if d.unserved fr.index.toNat then refuse p cNotPermitted 1 d
  else dictWrite p (owned && d.isOwner p) fr.index.toNat fr.sub.toNat bs image d

def frameWrite (l : Nat) (fr : HFrame) (d : Dev) : Dev :=
  if fr.data.length = 0 || 56 < fr.data.length then protoError l fr d else frameApply l fr true fr.data [] d

def frameSegStart (l : Nat) (fr : HFrame) (d : Dev) : Dev :=
  let total := ofBytes (fr.data.take 4)
  if fr.data.length < 4 || total < 57 || 4096 < total then protoError l fr d
  else
    let x : Seg := {
      isWrite := true, txn := fr.txn, index := fr.index, sub := fr.sub, total := total, next := 1, data := []
      owned := d.isOwner (.can (toLink l)) }
    herobReply l 0x24 fr 0 [] (d.modCan l (fun y => { y with seg := some x }))

def frameSegPut (l : Nat) (fr : HFrame) (image : List Dword) (d : Dev) : Dev :=
  match (d.can l).seg with
  | none => protoError l fr d
  | some x =>
    if !(x.owns fr) || !x.isWrite || fr.seq != x.next || fr.data.length != min 56 (x.total - 56 * (fr.seq - 1)) then protoError l fr d
    else if x.total ≤ 56 * fr.seq then frameApply l fr x.owned (x.data ++ fr.data) image d
    else
      herobReply l 0x24 fr fr.seq []
        (d.modCan l (fun y => { y with seg := some { x with next := x.next + 1, data := x.data ++ fr.data } }))

/-- The server takes a frame: commands 0x10 READ, 0x13 SEG_GET, 0x20 WRITE, 0x22 WRITE_SEG_START, 0x23 SEG_PUT. -/
def herobTake (l cmd : Nat) (fr : HFrame) (image : List Dword) (d : Dev) : Dev :=
  if cmd = 0x13 then frameSegGet l fr d
  else if cmd = 0x23 then frameSegPut l fr image d
  else if d.pathBusy (.can (toLink l)) then herobAbort l fr cBusy 3 d
  else if fr.seq != 0 then protoError l fr d
  else if cmd = 0x10 then frameRead l fr d
  else if cmd = 0x20 then frameWrite l fr d
  else frameSegStart l fr d

/-- TXN, INDEX, SUBINDEX and SEQ repeat those of the last frame (R410). -/
def repeats (last : Option (Nat × HFrame)) (fr : HFrame) : Bool :=
  last.any (fun x => x.2.txn == fr.txn && x.2.index == fr.index && x.2.sub == fr.sub && x.2.seq == fr.seq)

/-- A frame arrives: a repeat has the last response again; with the server out it waits, 8 at most (R365, R410, R411). -/
def herobFrame (l cmd : Nat) (fr : HFrame) (image : List Dword) (d : Dev) : Dev :=
  if !(d.canServes l) then d
  else if repeats (d.can l).lastFrame fr then
    (if (d.can l).cur.isSome || (d.can l).waiting.length != 0 then d else canSend l 9 (d.can l).lastResp d)
  else
    let d := d.modCan l (fun x => { x with lastFrame := some (cmd, fr) })
    if !d.serverOut && (d.can l).waiting.length = 0 then herobTake l cmd fr image d
    else if (d.can l).waiting.length < 8 then
      (d.modCan l (fun x => { x with waiting := x.waiting ++ [(cmd, fr, image)] })).modEasel 0
        (fun x => { x with heldEvents := x.heldEvents + 1 })
    else herobAbort l fr cBusy 1 d

def execRead (l : LinkId) (fr : HFrame) (s : State) : Outc := run (herobFrame l 0x10 fr []) s
def execSegGet (l : LinkId) (fr : HFrame) (s : State) : Outc := run (herobFrame l 0x13 fr []) s
def execWrite (l : LinkId) (fr : HFrame) (s : State) : Outc := runP (herobFrame l 0x20 fr []) s
def execWriteSegStart (l : LinkId) (fr : HFrame) (s : State) : Outc := run (herobFrame l 0x22 fr []) s
def execSegPut (l : LinkId) (fr : HFrame) (image : List Dword) (s : State) : Outc := runP (herobFrame l 0x23 fr image) s

/-- ABORT from the client: the transfer ends, and frames of it that wait are dropped. -/
def clientAbort (l : Nat) (fr : HFrame) (d : Dev) : Dev :=
  if !(d.canServes l) then d else
  let own := fun (x : HFrame) => x.txn == fr.txn && x.index == fr.index && x.sub == fr.sub
  d.modCan l (fun x => { x with
    seg := x.seg.filter (fun s => !(s.owns fr)), waiting := x.waiting.filter (fun w => !(own w.2.1)), lastFrame := none })
def execAbort (l : LinkId) (fr : HFrame) (s : State) : Outc := run (clientAbort l fr) s

/-- SEG_TIMEOUT_MS passes in a transfer of the server, else in one of the minimal responder. -/
def segTimeout (l : Nat) (d : Dev) : Dev :=
  match (d.can l).seg with
  | some x =>
    herobAbort l { txn := x.txn, index := x.index, sub := x.sub } cNotPermitted 9 (d.modCan l (fun y => { y with seg := none }))
  | none =>
    match (d.can l).mini with
    | some x =>
      miniAbort l { txn := x.txn, index := x.index, sub := x.sub } cNotPermitted 9 (d.modCan l (fun y => { y with mini := none }))
    | none => d
def execSegTimeoutExpiry (l : LinkId) (s : State) : Outc := run (segTimeout l) s

/-! ### Mailbox (R413, R415) -/

/-- The dictionary server takes the mailbox request. -/
def adminTake (op idx sub : Nat) (bs : List Byte) (image : List Dword) (d : Dev) : Dev :=
  if op = 1 then dictAnswer .admin idx sub d
  else if op = 2 then dictWrite .admin (d.isOwner .admin) idx sub bs image d
  else if op = 3 then dictWrite .admin (d.isOwner .admin) 0x2030 1 bs image d
  else refuse .admin cNotPermitted 8 d

/-- GO on function f; image: what an import reads. -/
def mailboxGo (f : Nat) (image : List Dword) (m : Memory) (d : Dev) : Dev :=
  if !(d.isManager f) || d.gesso.level != 0 || d.start.st = 2 || (d.half 0).inReset then d
  else if d.mbox.busy then { d with mbox := { d.mbox with overrun := true } }
  else
    let x := d.mbox
    let bs := memRead m.req 0 (min x.length.toNat 4097)
    let d := { d with mbox := { x with busy := true, done := false, overrun := false, rseq := x.seq } }
    if d.serverOut then
      { d with mbox := { d.mbox with held := some (x.op.toNat, x.index.toNat, x.sub.toNat, bs, image) } }.modEasel 0
        (fun y => { y with heldEvents := y.heldEvents + 1 })
    else adminTake x.op.toNat x.index.toNat x.sub.toNat bs image d

/-- GO with the REQ.OP of the row. -/
def adminRow (op f : Nat) (image : List Dword) (s : State) : Outc :=
  .next (s.on (fun m d => if d.mbox.op.toNat = op then settlePd (mailboxGo f image m d) else d))
def execAdminRead (f : FuncId) (s : State) : Outc := adminRow 1 f [] s
def execAdminWrite (f : FuncId) (s : State) : Outc := adminRow 2 f [] s
def execAdminManagerOperation (f : FuncId) (image : List Dword) (s : State) : Outc := adminRow 3 f image s

/-! ### What waited for the dictionary server (R365) -/

/-- The server runs again: requests of the links, the mailbox and the builder cores, each in its order. -/
def serveHeld (d : Dev) : Dev :=
  if d.serverOut then d else
  let d := forEach [0, 1] (fun l d =>
    (d.can l).waiting.foldl (fun d w => herobTake l w.1 w.2.1 w.2.2 d) (d.modCan l (fun x => { x with waiting := [] }))) d
  let d := match d.mbox.held with
    | none => d
    | some r => adminTake r.1 r.2.1 r.2.2.1 r.2.2.2.1 r.2.2.2.2 { d with mbox := { d.mbox with held := none } }
  forEach [5, 11] serveBuilder d

def execTaskEnd (c : CoreId) (cycles : Nat) (s : State) : Outc := runP (fun d => serveHeld (endTask c cycles d)) s
def execTaskYield (c : CoreId) (cycles : Nat) (w : List Dword) (s : State) : Outc := runP (fun d => serveHeld (yieldTask c cycles w d)) s
def execTaskCancel (c : CoreId) (handle : Dword) (s : State) : Outc := runP (fun d => serveHeld (cancelTask c handle d)) s
def execCoreWedge (c : CoreId) (s : State) : Outc := runP (fun d => serveHeld (wedge c d)) s
def execCoreRestartDone (c : CoreId) (s : State) : Outc := runP (fun d => serveHeld (coreBack c d)) s
def execCoreUpdateLoadDone (c : CoreId) (hashOk : Bool) (s : State) : Outc := runP (fun d => serveHeld (coreLoaded c hashOk d)) s

/-! ### The minimal responder (R418) -/

/-- Objects that it serves. -/
def miniServes (idx sub : Nat) : Bool :=
  (idx = 0x1000 && (sub ≤ 3 || sub = 6)) || (idx = 0x1100 && sub ≤ 1) || (idx = 0x1220 && sub ≤ 6) ||
  (0x3200 ≤ idx && idx < 0x3218 && (sub = 2 || sub = 3)) || (0x4000 ≤ idx && idx < 0x40C0 && sub = 0x30) || (idx = 0x6001 && sub = 1)

/-- A transfer of the responder on link l is in progress, or a fence that it asked for. -/
def Dev.miniBusy (d : Dev) (l : Nat) : Bool :=
  (d.can l).mini.isSome || d.sys.fenceReqs.any (fun r => match r.who with | .mini k _ => k == l | _ => false)

def miniRead (l : Nat) (fr : HFrame) (d : Dev) : Dev :=
  match d.dictRead fr.index.toNat fr.sub.toNat with
  | .error reason => miniAbort l fr cNotPermitted reason d
  | .ok bs =>
    if bs.length ≤ 56 then miniAnswer l 0x11 fr 0 bs d
    else
      let x : Seg := { isWrite := false, txn := fr.txn, index := fr.index, sub := fr.sub, total := bs.length, next := 1, data := bs }
      miniAnswer l 0x12 fr 0 (leBytes 4 bs.length) (d.modCan l (fun y => { y with mini := some x }))

def miniProto (l : Nat) (fr : HFrame) (d : Dev) : Dev :=
  miniAbort l fr cNotPermitted 8 (protoCount l (d.modCan l (fun x => { x with mini := x.mini.filter (fun s => !(s.owns fr)) })))

def miniSegGet (l : Nat) (fr : HFrame) (d : Dev) : Dev :=
  match (d.can l).mini with
  | none => miniProto l fr d
  | some x =>
    if !(x.owns fr) || fr.seq != x.next then miniProto l fr d
    else
      let last := x.total ≤ 56 * fr.seq
      miniAnswer l 0x14 fr fr.seq (segment x.data fr.seq)
        (d.modCan l (fun y => { y with mini := if last then none else some { x with next := x.next + 1 } }))

def miniWrite (l : Nat) (fr : HFrame) (d : Dev) : Dev :=
  let idx := fr.index.toNat
  let v := ofBytes fr.data
  match d.writeBad true idx fr.sub.toNat fr.data with
  | some (code, reason) => miniAbort l fr code reason d
  | none =>
    let ok := miniAnswer l 0x21 fr 0 []
    if idx = 0x1220 then gessoAct fr.sub.toNat v (.mini l fr) ok d else ok (setStop (idx - 0x3200) (v = 1) d)

/-- A frame on FUNC 0xA. -/
def miniFrame (l cmd : Nat) (fr : HFrame) (d : Dev) : Dev :=
  if !(d.miniUp l) then d
  else if cmd = 0x7F then
    d.modCan l (fun x => { x with mini := x.mini.filter (fun s => !(s.owns fr)), lastMini := none })
  else if repeats (d.can l).lastMini fr then
    (if d.sys.fenceReqs.any (fun r => r.who == .mini l fr) then d else canSend l 0xB (d.can l).lastMiniResp d)
  else
    let d := d.modCan l (fun x => { x with lastMini := some (cmd, fr) })
    if cmd = 0x13 then miniSegGet l fr d
    else if d.miniBusy l then miniAbort l fr cBusy 3 d
    else if (cmd != 0x10 && cmd != 0x20) || fr.seq != 0 || (cmd = 0x20 && (fr.data.length = 0 || 56 < fr.data.length)) then miniProto l fr d
    else if !(miniServes fr.index.toNat fr.sub.toNat) then miniAbort l fr cNotPermitted 10 d
    else if cmd = 0x10 then miniRead l fr d
    else miniWrite l fr d
def execMinimalResponderRequest (l : LinkId) (cmd : Byte) (fr : HFrame) (s : State) : Outc := runP (miniFrame l cmd.toNat fr) s

/-! ### Heartbeat, bus-off, event frames (R404, R419, R422) -/

/-- STATE of the heartbeat. -/
def Dev.heartState (d : Dev) : Nat :=
  if d.gesso.level = 2 then 4 else if d.start.st = 2 then 3 else if d.start.st = 1 then 0
  else if (d.half 0).restarting || (d.half 1).restarting || !d.sinopia.up then 2 else 1

/-- The dictionary server runs: L0 or the core that takes its tasks. -/
def Dev.serverRuns (d : Dev) : Bool := d.gesso.level == 0 && d.start.st == 0 && (d.servedBy 0 0).isSome

def heartbeatBytes (d : Dev) : List Byte :=
  [BitVec.ofNat 8 d.heartState, BitVec.ofNat 8 (d.cfg 0x2004 1), BitVec.ofNat 8 d.gesso.failedStarts,
   BitVec.ofNat 8 (b2n d.serverRuns + 2 * b2n (d.events.pending != 0) + 4 * b2n d.gesso.locked)] ++ leBytes 4 d.gesso.seconds.toNat

def heartbeat (d : Dev) : Dev :=
  let g := d.gesso
  if !(g.vdd || g.vsrv) || !g.clock || g.level = 3 || (d.cfg 0x1100 5 = 0 && d.start.st != 2) then d else
  forEach [0, 1] (fun l d => if d.linkEnabled l then canSend l 2 (heartbeatBytes d) d else d) d
def execHeartbeat (s : State) : Outc := run heartbeat s

def canBusOff (l : Nat) (d : Dev) : Dev :=
  if !(d.linkEnabled l) || (d.can l).busOff then d else
  raise { c := 194, inst := l } ({ d with sys := { d.sys with busOff := d.sys.busOff + 1 } }.modCan l (fun x => { x with busOff := true }))
def execCanBusOff (l : LinkId) (s : State) : Outc := run (canBusOff l) s

/-- Recovery: the frames queued meanwhile go out in their order. -/
def busOffRecovery (l : Nat) (d : Dev) : Dev :=
  if !(d.can l).busOff then d else
  let fs := (d.can l).held
  fs.foldl (fun d f => emit (.can (toLink l) f.1 f.2) d) (d.modCan l (fun x => { x with busOff := false, held := [] }))
def execCanBusOffRecovery (l : LinkId) (s : State) : Outc := run (busOffRecovery l) s

/-- The event of cause c as it last was. -/
def Dev.lastEvent (d : Dev) (c : Nat) : List Byte :=
  let w := tabGet (0xFF, 0) d.events.who c
  eventFrame { c := c, inst := (tabGet 0xFFFF d.events.inst c).toNat, slice := w.1, half := w.2 }
    (tabGet 0 d.events.seconds c) (tabGet 0 d.events.count c)

/-- The queue of link l drains; one frame is then queued for each cause that it missed, in ascending order. -/
def drainEvents (l : Nat) (d : Dev) : Dev :=
  if (d.can l).busOff then d else
  let d := (d.can l).evQueue.foldl (fun d f => emit (.can (toLink l) 3 f) d) d
  let cs := (List.range 256).filter (fun c => (d.can l).overflow.contains c)
  let frames := (cs.take 32).map d.lastEvent
  d.modCan l (fun x => { x with evQueue := frames, overflow := cs.drop 32 })
def execEventFrameQueueDrain (l : LinkId) (s : State) : Outc := run (drainEvents l) s

end Sys2Proof.Machine
end

