-- ==== Sys2Proof/Machine/Regs.lean ====
section
/-! DEFINITION. Register writes of BAR0, BAR2 and BAR4 and of the Device Control word of a function (R7, R20 to R22, R26, R40, R41,
R54, R55, R61, R62, R281, R415). -/
namespace Sys2Proof.Machine

/-- One word of a 64-bit field. -/
def setHalfWord (hi : Bool) (v : Dword) (x : Qword) : Qword :=
  if hi then BitVec.ofNat 64 (v.toNat * 2 ^ 32 + x.toNat % 2 ^ 32) else BitVec.ofNat 64 (x.toNat / 2 ^ 32 * 2 ^ 32 + v.toNat)

/-! ### BAR0 -/

/-- Mailbox registers and request data on the manager port (R415). -/
def mboxWrite (f off : Nat) (v : Dword) (m : Memory) (d : Dev) : Dev :=
  if 0x1000 ≤ off && off < 0x2000 then { d with memOps := d.memOps ++ [.req (off - 0x1000) (leBytes 4 v.toNat)] }
  else match off with
    | 0 => if bitOf v 0 then mailboxGo f [] m d else d
    | 0x10 => { d with mbox := { d.mbox with op := BitVec.ofNat 8 (bitsOf v 7 0), seq := BitVec.ofNat 8 (bitsOf v 15 8) } }
    | 0x14 => { d with mbox := { d.mbox with index := BitVec.ofNat 16 (bitsOf v 15 0), sub := BitVec.ofNat 8 (bitsOf v 23 16) } }
    | 0x18 => { d with mbox := { d.mbox with length := BitVec.ofNat 16 (bitsOf v 15 0) } }
    | _ => d

/-- Function control and handshake registers (R22, R26); the last write to a field before the boundary counts (R5). -/
def ctlWrite (f off : Nat) (v : Dword) (d : Dev) : Dev :=
  match off with
  | 0x1000 => d.modFunc f (fun x => { x with evtEnSh := bitOf v 0 })
  | 0x2000 => d.modFunc f (fun x => { x with start := bitOf v 0, cancel := bitOf v 1 })
  | 0x2008 => d.modFunc f (fun x => { x with hgBufSh := setHalfWord false v x.hgBufSh })
  | 0x200C => d.modFunc f (fun x => { x with hgBufSh := setHalfWord true v x.hgBufSh })
  | 0x2010 => d.modFunc f (fun x => { x with retLo := v })
  | 0x2014 => hgReturn f v d
  | _ => d

/-- EVT_CAUSE and SLICE_EVT: write 1 to clear (R22). -/
def evtWrite (f off : Nat) (v : Dword) (d : Dev) : Dev :=
  if off = 0 then d.modFunc f (fun x => { x with
    restarted := x.restarted && !(bitOf v 0), groupState := x.groupState && !(bitOf v 1) })
  else if 0x10 ≤ off && off < 0x28 then
    d.modFunc f (fun x => { x with sliceEvt := x.sliceEvt &&& ~~~(BitVec.ofNat 192 (v.toNat * 2 ^ (8 * (off - 0x10)))) })
  else d

/-- One 32-bit write to BAR0. -/
def bar0Write (f off : Nat) (v : Dword) (m : Memory) (d : Dev) : Dev :=
  if off < 0x3000 then ctlWrite f off v d
  else if 0x4000 ≤ off && off < 0x8000 then (if d.isManager f then mboxWrite f (off - 0x4000) v m d else d)
  else if off = 0x8000 then fenceReq f v d
  else if 0xC000 ≤ off && off < 0x10000 then evtWrite f (off - 0xC000) v d
  else d

/-! ### The doorbell page (R54, R55, R61, R62) -/

/-- A class Q field: the value it has then, and whether the write is refused. -/
def qField {α : Type} [BEq α] (runs : Bool) (old new : α) : α × Bool := if old == new || !runs then (new, false) else (old, true)

/-- A write to a setup register of a work queue: whether it is refused, and the queue; none where there is no field. -/
def wqWrite (q off : Nat) (v : Dword) (w : WQ) : Option (Bool × WQ) :=
  let runs := w.st != .disabled
  match off with
  | 0x148 => let t := qField runs w.base (setHalfWord false v w.base); some (t.2, { w with base := t.1 })
  | 0x14C => let t := qField runs w.base (setHalfWord true v w.base); some (t.2, { w with base := t.1 })
  | 0x150 =>
    let k := bitsOf v 6 2
    let t := qField (runs || k < 4 || 16 < k) w.sizeLog k
    let c := qField runs w.target (BitVec.ofNat 12 (bitsOf v 31 20))
    some (t.2 || c.2, { w with
      sh := { enable := bitOf v 0, pushEn := bitOf v 7 && q < 8, weight := BitVec.ofNat 4 (bitsOf v 11 8), burst := BitVec.ofNat 6 (bitsOf v 17 12) }
      resume := bitOf v 1, dirty := true, sizeLog := t.1, target := c.1 })
  | 0x158 => let t := qField runs w.start v; some (t.2, { w with start := t.1 })
  | _ => none

/-- The same for a completion queue. -/
def cqWrite (off : Nat) (v : Dword) (c : CQ) : Option (Bool × CQ) :=
  let runs := c.st != .disabled
  match off with
  | 0x148 => let t := qField runs c.base (setHalfWord false v c.base); some (t.2, { c with base := t.1 })
  | 0x14C => let t := qField runs c.base (setHalfWord true v c.base); some (t.2, { c with base := t.1 })
  | 0x150 =>
    let k := bitsOf v 6 2
    let t := qField (runs || k < 4 || 16 < k) c.sizeLog k
    some (t.2, { c with sh := { c.sh with enable := bitOf v 0 }, resume := bitOf v 1, dirty := true, sizeLog := t.1 })
  | 0x154 => some (false, { c with
      sh := { c.sh with
        vector := BitVec.ofNat 14 (bitsOf v 13 0), modCount := BitVec.ofNat 8 (bitsOf v 23 16), modTime := BitVec.ofNat 8 (bitsOf v 31 24) }
      dirty := true })
  | 0x158 => let t := qField runs c.start v; some (t.2, { c with start := t.1 })
  | _ => none

/-- The words of one write, applied one after the other; refused where one of them is. -/
def wordsOf {α : Type} (put : Nat → Dword → α → Option (Bool × α)) (ws : List (Nat × Dword)) (x : α) : Option (Bool × α) :=
  ws.foldl (fun t w => match put w.1 w.2 (t.elim x (fun y => y.2)) with
    | some r => some (r.1 || t.any (fun y => y.1), r.2)
    | none => t) none

/-- A write to the setup registers goes to the selected queue; CFG_REFUSED follows it. -/
def setupWrite (n : Nat) (ws : List (Nat × Dword)) (d : Dev) : Dev :=
  let x := d.slice n
  let q := x.qNum.toNat
  if d.share ≤ q then d
  else if x.qKind then
    match wordsOf cqWrite ws (x.cq q) with
    | some (bad, c) => d.modCq n q (fun _ => { c with cfgRefused := bad })
    | none => d
  else
    match wordsOf (wqWrite q) ws (x.wq q) with
    | some (bad, w) => d.modWq n q (fun _ => { w with cfgRefused := bad })
    | none => d

/-- IDX_BASE[k]: refused while a work queue of its set is not Disabled, on which CFG_REFUSED shows it (R55, R62). -/
def idxWrite (n k : Nat) (new : Qword) (d : Dev) : Dev :=
  let x := d.slice n
  if tabGet 0 x.idxBase k = new then d else
  let inSet := fun (q : Nat) (w : WQ) => q / 512 == k && w.st != .disabled
  if x.wqs.any (fun w => inSet w.1 w.2) then
    d.modSlice n (fun x => { x with wqs := tabMap (fun q w => if inSet q w then { w with cfgRefused := true } else w) x.wqs })
  else d.modSlice n (fun x => { x with idxBase := tabPut x.idxBase k new })

/-- A 4- or 8-byte write to slice n's page; ws are its words. -/
def pageWrite (f n off size : Nat) (v : Qword) (ws : List (Nat × Dword)) (d : Dev) : Dev :=
  let lo := w32 (v.toNat % 2 ^ 32)
  if off = 0 then doorbellWq n (bitsOf lo 11 0) d
  else if 8 ≤ off && off < 0x18 then
    (if size != 8 then badAccess f 2 (4096 * n + off) size true d else if off = 8 then epRing n v d else cqRing n v d)
  else if (0x40 ≤ off && off < 0x80) || 0x800 ≤ off then badAccess f 2 (4096 * n + off) size true d
  else if 0x100 ≤ off && off < 0x130 then
    let k := (off - 0x100) / 8
    let old := tabGet 0 (d.slice n).idxBase k
    idxWrite n k (if size = 8 then v else setHalfWord (off % 8 = 4) lo old) d
  else if off = 0x140 then d.modSlice n (fun x => { x with qNum := BitVec.ofNat 12 (bitsOf lo 11 0), qKind := bitOf lo 12 })
  else if 0x148 ≤ off && off < 0x16C then setupWrite n ws d
  else d

/-! ### BAR4 (R40, R41) -/

/-- One word of a vector table entry. -/
def vecPut (k : Nat) (v : Dword) (x : Vec) : Vec :=
  match k with
  | 0 => { x with addr := setHalfWord false v x.addr }
  | 1 => { x with addr := setHalfWord true v x.addr }
  | 2 => { x with data := v }
  | _ => { x with mask := bitOf v 0 }

def bar4Write (f off : Nat) (v : Dword) (d : Dev) : Dev :=
  if off < 0x400 then
    let put := fun (x : Func) => { x with vecs := tabPut x.vecs (off / 16) (vecPut (off / 4 % 4) v (tabGet {} x.vecs (off / 16))) }
    releaseOwn f (d.modFunc f put)
  else if off < 0x10000 then d
  else
    let r := d.vecRegion off
    if !(d.shows f r.1) || 16 * Config.shareVectors d.S ≤ r.2 then d
    else
      let put := fun (x : Slice) => { x with vecs := tabPut x.vecs (r.2 / 16) (vecPut (r.2 / 4 % 4) v (tabGet {} x.vecs (r.2 / 16))) }
      releaseVectors r.1 (d.modSlice r.1 put)

/-! ### The row -/

/-- Maximum payload, maximum read request and Relaxed Ordering of a function (R218, R242, log entry 41). -/
def devControl (f : Nat) (v : Dword) : Dev → Dev :=
  Dev.modFunc f (fun x => { x with
    mps := 128 * 2 ^ bitsOf v 7 5, mrrs := 128 * 2 ^ bitsOf v 14 12, relaxed := bitOf v 4 })

/-- A write of 4 or 8 bytes, naturally aligned, to BAR 0, 2 or 4; bar 15 is the Device Control word. -/
def registerWrite (f bar off size : Nat) (v : Qword) (m : Memory) (d : Dev) : Dev :=
  let lo := w32 (v.toNat % 2 ^ 32)
  let ws : List (Nat × Dword) := if size = 8 then [(off, lo), (off + 4, w32 (v.toNat / 2 ^ 32))] else [(off, lo)]
  if bar = 15 then devControl f lo d
  else if !(size = 4 || size = 8) || off % size != 0 then badAccess f bar off size true d
  else if bar = 0 then ws.foldl (fun d w => bar0Write f w.1 w.2 m d) d
  else if bar = 2 then
    (if d.shows f (off / 4096) then
      pageWrite f (off / 4096) (off % 4096) size v (ws.map (fun w => (w.1 % 4096, w.2))) d
    else d)
  else if bar = 4 then ws.foldl (fun d w => bar4Write f w.1 w.2 d) d
  else d
def execRegisterWrite (f : FuncId) (bar off size : Nat) (v : Qword) (s : State) : Outc :=
  .next (s.on (fun m d => settlePd (registerWrite f bar off size v m d)))

end Sys2Proof.Machine
end

