-- ==== Sys2Proof/Machine/Micro.lean ====
section
/-! DEFINITION. The microframe boundary: the counter, the commit of L fields, plan commits, Palette's period, and what each port does
(R5, R6, R28, R62, R63, R99, R128, R129, R154, R182, R244, R255, R341, R405). -/
namespace Sys2Proof.Machine

/-! ### The commit of the dictionary (R5, R6) -/

/-- Fields whose commit does something. -/
def commitActs (idx sub v : Nat) (d : Dev) : Dev :=
  if 0x3000 ≤ idx && idx < 0x30C0 && v = 1 then
    (if sub = 0x26 then d.modPort (idx - 0x3000) (fun x => { x with cnt := {} })
    else if sub = 0x42 then d.modPort (idx - 0x3000) (fun x => { x with outageMs := 0, outageEvents := 0 })
    else d)
  else if 0x3100 ≤ idx && idx < 0x31C0 && sub = 0x0C then roleReq (idx - 0x3100) v d
  else if 0x3200 ≤ idx && idx < 0x3218 && sub = 8 then faultClear (idx - 0x3200) v d
  else if idx = 0x6001 && sub = 2 && v = 1 then
    { d with gesso := { d.gesso with
        frTotal := 0, coldStarts := 0, warmStarts := 0, frFatal := none, fr := tabMap (fun _ r => { r with valid := false }) d.gesso.fr } }
  else d

/-- OWNER changes hands (R405). -/
def ownerCommit (was : Nat) (d : Dev) : Dev :=
  if d.cfg 0x2004 1 = was then d
  else raise { c := 192, inst := d.cfg 0x2004 1 } { d with sys := { d.sys with ownerChanges := d.sys.ownerChanges + 1 } }

/-- Fields on which the allocation depends. -/
def allocField (k : Nat) : Bool :=
  let idx := k / 256
  let sub := k % 256
  (0x3100 ≤ idx && idx < 0x31C0 && 0x20 ≤ sub && sub ≤ 0x22) || idx = 0x5000

/-- Every L field written since the last boundary is committed in one step. -/
def commitDict (d : Dev) : Dev :=
  let ks := d.dict.dirty.reverse
  let was := d.cfg 0x2004 1
  let t := d.dict
  let keep := fun (k : Nat) => (d.objOf (k / 256) (k % 256)).any (fun o => o.acc == .wo)
  let vals := ks.map (fun k => (k, tabGet (objDflt (k / 256) (k % 256)) t.shadow k))
  let use := vals.foldl (fun u e => if keep e.1 then u else tabPut u e.1 e.2) t.inUse
  let d := { d with dict := { t with dirty := [], inUse := use, shadow := t.shadow.filter (fun e => !(ks.contains e.1 && keep e.1)) } }
  let d := vals.foldl (fun d e => commitActs (e.1 / 256) (e.1 % 256) e.2 d) (ownerCommit was d)
  if ks.any allocField then allocate d else d

/-! ### The boundary (R128) -/

/-- Function registers of class L (R22, R26). -/
def commitFuncs (d : Dev) : Dev :=
  { d with funcs := tabMap (fun _ x => { x with evtEn := x.evtEnSh, hgBuf := x.hgBufSh }) d.funcs }

/-- A half that counts: not in reset, and not waiting in a restart for the counter of the other half (R128, R388). -/
def Dev.counts (d : Dev) (h : Nat) : Bool := !(d.half h).inReset && !((d.half h).restarting && (d.half h).takeFromSync)

/-- Stopping periodic endpoints without a service on the bus have their boundary (R99). -/
def stopPeriodic (n : Nat) (d : Dev) : Dev :=
  ((d.liveEps n).filter (fun e => let y := d.ep n e.1 e.2; y.stopping && !y.service)).foldl (fun d e => doStop n e.1 e.2 d) d

/-- The reference half sends SYNC (R182, R244). -/
def syncOut (d : Dev) : Dev :=
  let src := b2n (d.half 0).takeFromSync
  if d.sinopia.up && d.counts src then emit (.sinopiaSync (toHalf src) (d.half src).mf) d else d

/-- The microframe begins on both halves. -/
def boundary (d : Dev) : Dev :=
  let hs := [0, 1].filter d.counts
  let d := forEach hs (fun h => Dev.modHalf h (fun x => { x with mf := x.mf + 1 })) d
  let d := repath (fun d => commitHandshakes (commitDict d)) (commitFuncs d)
  let ns := d.notFree
  let d := palPeriod (forEach ns commitQueues d)
  let d := forEach ns (fun n d => reissueHalf n 1 (reissueHalf n 0 d)) d
  let d := forEach ns stopPeriodic (forEach ns applyCommits d)
  let d := forEach (d.usedPorts.filter (fun p => d.counts (halfOfPort p))) portMicro d
  let d := forEach allGroups pollGroup (syncOut d)
  serveHeld (forEach [0, 1, 2, 3] upDrained d)

/-- A boundary; with the halves held in reset only the recovery loader's fields commit (R449), and a warm start polls the stages
(R340). -/
def microframe (d : Dev) : Dev :=
  if d.gesso.level != 0 then d
  else if (d.half 0).inReset then
    let d := if d.start.st = 2 && d.gesso.railsGood then commitDict d else d
    if d.start.st = 1 && d.start.type != 1 && d.gesso.railsGood then forEach allGroups pollGroup d else d
  else boundary d
def execMicroframeBoundary (s : State) : Outc := runP microframe s

end Sys2Proof.Machine
end

