-- ==== Sys2Proof/Machine/Dispatch.lean ====
section
/-! DEFINITION. One arm per command: a direct call of its meaning. -/
namespace Sys2Proof.Machine

/-- The effect of a command on everything but the queue. -/
def exec (i : Instr) (s : State) : Host.Outcome State Fault Refusal :=
  match i with
  | .registerWrite f bar off size v => Sys2Proof.Machine.execRegisterWrite f bar off size v s
  | .objectWrite p index sub value image => Sys2Proof.Machine.execObjectWrite p index sub value image s
  | .objectRead p index sub => Sys2Proof.Machine.execObjectRead p index sub s
  | .badRegisterAccess f bar off size write => Sys2Proof.Machine.execBadRegisterAccess f bar off size write s
  | .microframeBoundary => Sys2Proof.Machine.execMicroframeBoundary s
  | .hgReturn f upper => Sys2Proof.Machine.execHgReturn f upper s
  | .hsTimeoutExpiry g => Sys2Proof.Machine.execHsTimeoutExpiry g s
  | .evtCauseClear f causes slices => Sys2Proof.Machine.execEvtCauseClear f causes slices s
  | .vectorUnmask f n vec => Sys2Proof.Machine.execVectorUnmask f n vec s
  | .msixEnableChange f enable mask => Sys2Proof.Machine.execMsixEnableChange f enable mask s
  | .upstreamLinkDown f => Sys2Proof.Machine.execUpstreamLinkDown f s
  | .upstreamLinkUp f => Sys2Proof.Machine.execUpstreamLinkUp f s
  | .upstreamPerst f fundamental => Sys2Proof.Machine.execUpstreamPerst f fundamental s
  | .wqDoorbell f n v => Sys2Proof.Machine.execWqDoorbell f n v s
  | .epDoorbell f n v => Sys2Proof.Machine.execEpDoorbell f n v s
  | .cqDoorbell f n v => Sys2Proof.Machine.execCqDoorbell f n v s
  | .wqPush f n q k e => Sys2Proof.Machine.execWqPush f n q k e s
  | .epPush f n e => Sys2Proof.Machine.execEpPush f n e s
  | .qSelect f n v => Sys2Proof.Machine.execQSelect f n v s
  | .piReadComplete n wq pi => Sys2Proof.Machine.execPiReadComplete n wq pi s
  | .workEntryReadComplete n wq data => Sys2Proof.Machine.execWorkEntryReadComplete n wq data s
  | .wqArbitrationTurn n => Sys2Proof.Machine.execWqArbitrationTurn n s
  | .nop n wq ix => Sys2Proof.Machine.execNop n wq ix s
  | .openDevice n wq ix => Sys2Proof.Machine.execOpenDevice n wq ix s
  | .assignAddress n wq ix => Sys2Proof.Machine.execAssignAddress n wq ix s
  | .assignAddressRecoveryEnd n wq ix => Sys2Proof.Machine.execAssignAddressRecoveryEnd n wq ix s
  | .updateDevice n wq ix => Sys2Proof.Machine.execUpdateDevice n wq ix s
  | .closeDevice n wq ix => Sys2Proof.Machine.execCloseDevice n wq ix s
  | .admitEndpoints n wq ix => Sys2Proof.Machine.execAdmitEndpoints n wq ix s
  | .retireEndpoints n wq ix => Sys2Proof.Machine.execRetireEndpoints n wq ix s
  | .stopEndpoint n wq ix => Sys2Proof.Machine.execStopEndpoint n wq ix s
  | .clearHalt n wq ix => Sys2Proof.Machine.execClearHalt n wq ix s
  | .moveDequeue n wq ix => Sys2Proof.Machine.execMoveDequeue n wq ix s
  | .portReset n wq ix => Sys2Proof.Machine.execPortReset n wq ix s
  | .portSuspend n wq ix => Sys2Proof.Machine.execPortSuspend n wq ix s
  | .portResume n wq ix => Sys2Proof.Machine.execPortResume n wq ix s
  | .portPowerCycle n wq ix => Sys2Proof.Machine.execPortPowerCycle n wq ix s
  | .pdRequest n wq ix => Sys2Proof.Machine.execPdRequest n wq ix s
  | .carvePool n wq ix => Sys2Proof.Machine.execCarvePool n wq ix s
  | .releasePool n wq ix => Sys2Proof.Machine.execReleasePool n wq ix s
  | .queryPlan n wq ix => Sys2Proof.Machine.execQueryPlan n wq ix s
  | .queryBudget n wq ix => Sys2Proof.Machine.execQueryBudget n wq ix s
  | .hostStructureReadComplete n wq ix data => Sys2Proof.Machine.execHostStructureReadComplete n wq ix data s
  | .modTimeExpiry n cq => Sys2Proof.Machine.execModTimeExpiry n cq s
  | .ciWriteDeadline n wq => Sys2Proof.Machine.execCiWriteDeadline n wq s
  | .transferEntryReadComplete n h ep stream data => Sys2Proof.Machine.execTransferEntryReadComplete n h ep stream data s
  | .fragmentTableReadComplete n h ep stream data => Sys2Proof.Machine.execFragmentTableReadComplete n h ep stream data s
  | .streamContextReadComplete n h ep stream data => Sys2Proof.Machine.execStreamContextReadComplete n h ep stream data s
  | .contextLoadComplete n h ep data => Sys2Proof.Machine.execContextLoadComplete n h ep data s
  | .dataReadComplete n h ep stream off bytes sealBad => Sys2Proof.Machine.execDataReadComplete n h ep stream off bytes sealBad s
  | .hostReadFailure n r k => Sys2Proof.Machine.execHostReadFailure n r k s
  | .completionTimeout n r => Sys2Proof.Machine.execCompletionTimeout n r s
  | .confirmReadIssue n f => Sys2Proof.Machine.execConfirmReadIssue n f s
  | .confirmReadComplete n f => Sys2Proof.Machine.execConfirmReadComplete n f s
  | .flushReadIssue n cq => Sys2Proof.Machine.execFlushReadIssue n cq s
  | .funnelHoldExpiry n h ep stream => Sys2Proof.Machine.execFunnelHoldExpiry n h ep stream s
  | .washEnd h => Sys2Proof.Machine.execWashEnd h s
  | .bankPowerUpDone h b => Sys2Proof.Machine.execBankPowerUpDone h b s
  | .usb2TransactionResponse p h ep r sealBad => Sys2Proof.Machine.execUsb2TransactionResponse p h ep r sealBad s
  | .periodicTransactionResponse p h ep r sealBad => Sys2Proof.Machine.execPeriodicTransactionResponse p h ep r sealBad s
  | .splitResponse p h ep r => Sys2Proof.Machine.execSplitResponse p h ep r s
  | .transactionTimeout p h ep => Sys2Proof.Machine.execTransactionTimeout p h ep s
  | .nonperiodicTurn p b => Sys2Proof.Machine.execNonperiodicTurn p b s
  | .repollIntervalExpiry p h ep => Sys2Proof.Machine.execRepollIntervalExpiry p h ep s
  | .portBabble p h ep => Sys2Proof.Machine.execPortBabble p h ep s
  | .nrdyReceived p h ep stream => Sys2Proof.Machine.execNrdyReceived p h ep stream s
  | .erdyReceived p h ep stream => Sys2Proof.Machine.execErdyReceived p h ep stream s
  | .functionWakeReceived p intf => Sys2Proof.Machine.execFunctionWakeReceived p intf s
  | .pullupSeen p lowSpeed => Sys2Proof.Machine.execPullupSeen p lowSpeed s
  | .connectDebounceEnd p => Sys2Proof.Machine.execConnectDebounceEnd p s
  | .usb2Disconnect p => Sys2Proof.Machine.execUsb2Disconnect p s
  | .resetDriveEnd p chirped => Sys2Proof.Machine.execResetDriveEnd p chirped s
  | .recoveryEnd p b => Sys2Proof.Machine.execRecoveryEnd p b s
  | .resumeDriveEnd p => Sys2Proof.Machine.execResumeDriveEnd p s
  | .suspendReached p => Sys2Proof.Machine.execSuspendReached p s
  | .partnerKDetected p within1ms => Sys2Proof.Machine.execPartnerKDetected p within1ms s
  | .lpmAnswer p a => Sys2Proof.Machine.execLpmAnswer p a s
  | .ssTerminationsDetected p => Sys2Proof.Machine.execSsTerminationsDetected p s
  | .rxDetectProbe p => Sys2Proof.Machine.execRxDetectProbe p s
  | .ssTrainingComplete p gen2 => Sys2Proof.Machine.execSsTrainingComplete p gen2 s
  | .pollingTimeout p => Sys2Proof.Machine.execPollingTimeout p s
  | .u1U2InactivityTimeout p u2 => Sys2Proof.Machine.execU1U2InactivityTimeout p u2 s
  | .partnerLgo p u2 => Sys2Proof.Machine.execPartnerLgo p u2 s
  | .partnerU1U2Exit p => Sys2Proof.Machine.execPartnerU1U2Exit p s
  | .lauReceived p => Sys2Proof.Machine.execLauReceived p s
  | .u3EntryTimeout p => Sys2Proof.Machine.execU3EntryTimeout p s
  | .u3ExitLfps p partner => Sys2Proof.Machine.execU3ExitLfps p partner s
  | .ssRecoveryFailed p => Sys2Proof.Machine.execSsRecoveryFailed p s
  | .ssTerminationsLost p => Sys2Proof.Machine.execSsTerminationsLost p s
  | .ssResetEnd p gen2 => Sys2Proof.Machine.execSsResetEnd p gen2 s
  | .powerCycleOffEnd p => Sys2Proof.Machine.execPowerCycleOffEnd p s
  | .sinopiaDown w => Sys2Proof.Machine.execSinopiaDown w s
  | .sinopiaRetrainAttempt => Sys2Proof.Machine.execSinopiaRetrainAttempt s
  | .sinopiaLinkUp => Sys2Proof.Machine.execSinopiaLinkUp s
  | .sinopiaHoldExpiry => Sys2Proof.Machine.execSinopiaHoldExpiry s
  | .sinopiaSyncReceived offsetNs => Sys2Proof.Machine.execSinopiaSyncReceived offsetNs s
  | .sinopiaCtrlMessage dst m => Sys2Proof.Machine.execSinopiaCtrlMessage dst m s
  | .sinopiaDataMessage dst m => Sys2Proof.Machine.execSinopiaDataMessage dst m s
  | .sinopiaFenceMessage dst n => Sys2Proof.Machine.execSinopiaFenceMessage dst n s
  | .sinopiaFlitCrcError src => Sys2Proof.Machine.execSinopiaFlitCrcError src s
  | .sinopiaLaneRetire src => Sys2Proof.Machine.execSinopiaLaneRetire src s
  | .arbiterTurn a reqs => Sys2Proof.Machine.execArbiterTurn a reqs s
  | .sliceCreate p b => Sys2Proof.Machine.execSliceCreate p b s
  | .sliceQuiesce p b => Sys2Proof.Machine.execSliceQuiesce p b s
  | .quiesceDrainEnd n => Sys2Proof.Machine.execQuiesceDrainEnd n s
  | .quiesceTimeoutExpiry n enginesBusy => Sys2Proof.Machine.execQuiesceTimeoutExpiry n enginesBusy s
  | .sliceFence p b => Sys2Proof.Machine.execSliceFence p b s
  | .fenceBusResetTimeout p => Sys2Proof.Machine.execFenceBusResetTimeout p s
  | .fenceReq f v => Sys2Proof.Machine.execFenceReq f v s
  | .fenceReqAll f v => Sys2Proof.Machine.execFenceReqAll f v s
  | .sliceFreeze p b => Sys2Proof.Machine.execSliceFreeze p b s
  | .sliceRehome p b => Sys2Proof.Machine.execSliceRehome p b s
  | .sliceThaw p b => Sys2Proof.Machine.execSliceThaw p b s
  | .sliceExport p b => Sys2Proof.Machine.execSliceExport p b s
  | .sliceImport p b image => Sys2Proof.Machine.execSliceImport p b image s
  | .sliceReset p b => Sys2Proof.Machine.execSliceReset p b s
  | .sliceRemove p b => Sys2Proof.Machine.execSliceRemove p b s
  | .portAssign p b => Sys2Proof.Machine.execPortAssign p b s
  | .pgOn p g => Sys2Proof.Machine.execPgOn p g s
  | .pgSleep p g => Sys2Proof.Machine.execPgSleep p g s
  | .pgOff p g => Sys2Proof.Machine.execPgOff p g s
  | .pgDrainEnd g => Sys2Proof.Machine.execPgDrainEnd g s
  | .portSleepWake g => Sys2Proof.Machine.execPortSleepWake g s
  | .upOn p u => Sys2Proof.Machine.execUpOn p u s
  | .upOff p u => Sys2Proof.Machine.execUpOff p u s
  | .upDrainDeadlineExpiry u => Sys2Proof.Machine.execUpDrainDeadlineExpiry u s
  | .bankOffReq p h mask => Sys2Proof.Machine.execBankOffReq p h mask s
  | .ccChange p cc1 cc2 => Sys2Proof.Machine.execCcChange p cc1 cc2 s
  | .tdrpToggle p => Sys2Proof.Machine.execTdrpToggle p s
  | .tccdebounceExpiry p => Sys2Proof.Machine.execTccdebounceExpiry p s
  | .tpddebounceExpiry p => Sys2Proof.Machine.execTpddebounceExpiry p s
  | .ttryccdebounceExpiry p => Sys2Proof.Machine.execTtryccdebounceExpiry p s
  | .tdrptryExpiry p => Sys2Proof.Machine.execTdrptryExpiry p s
  | .ttrytimeoutExpiry p => Sys2Proof.Machine.execTtrytimeoutExpiry p s
  | .terrorrecoveryExpiry p => Sys2Proof.Machine.execTerrorrecoveryExpiry p s
  | .vsnsSample p code => Sys2Proof.Machine.execVsnsSample p code s
  | .vddCcRise p => Sys2Proof.Machine.execVddCcRise p s
  | .pdMessageReceived p so rev3 id m => Sys2Proof.Machine.execPdMessageReceived p so rev3 id m s
  | .pdGoodcrcReceived p so id => Sys2Proof.Machine.execPdGoodcrcReceived p so id s
  | .treceiveExpiry p so => Sys2Proof.Machine.execTreceiveExpiry p so s
  | .hardResetReceived p => Sys2Proof.Machine.execHardResetReceived p s
  | .cableResetReceived p => Sys2Proof.Machine.execCableResetReceived p s
  | .tsinktxExpiry p => Sys2Proof.Machine.execTsinktxExpiry p s
  | .ppeAutoAnswer p => Sys2Proof.Machine.execPpeAutoAnswer p s
  | .tsenderresponseExpiry p => Sys2Proof.Machine.execTsenderresponseExpiry p s
  | .tsrctransitionExpiry p => Sys2Proof.Machine.execTsrctransitionExpiry p s
  | .tpssourceoffExpiry p => Sys2Proof.Machine.execTpssourceoffExpiry p s
  | .tpssourceonExpiry p => Sys2Proof.Machine.execTpssourceonExpiry p s
  | .tswapsourcestartExpiry p => Sys2Proof.Machine.execTswapsourcestartExpiry p s
  | .ttypecsendsourcecapExpiry p => Sys2Proof.Machine.execTtypecsendsourcecapExpiry p s
  | .tfirstsourcecapExpiry p => Sys2Proof.Machine.execTfirstsourcecapExpiry p s
  | .tdiscoveridentityExpiry p => Sys2Proof.Machine.execTdiscoveridentityExpiry p s
  | .tvconnsourceonExpiry p => Sys2Proof.Machine.execTvconnsourceonExpiry p s
  | .tsinkrequestExpiry p => Sys2Proof.Machine.execTsinkrequestExpiry p s
  | .tnoresponseExpiry p => Sys2Proof.Machine.execTnoresponseExpiry p s
  | .tpshardresetExpiry p => Sys2Proof.Machine.execTpshardresetExpiry p s
  | .tsrcrecoverExpiry p => Sys2Proof.Machine.execTsrcrecoverExpiry p s
  | .thardresetcompleteExpiry p => Sys2Proof.Machine.execThardresetcompleteExpiry p s
  | .tchunksenderresponseExpiry p => Sys2Proof.Machine.execTchunksenderresponseExpiry p s
  | .tppstimeoutExpiry p => Sys2Proof.Machine.execTppstimeoutExpiry p s
  | .tsourceeprkeepaliveExpiry p => Sys2Proof.Machine.execTsourceeprkeepaliveExpiry p s
  | .tvbusonExpiry p => Sys2Proof.Machine.execTvbusonExpiry p s
  | .ppeRestart p => Sys2Proof.Machine.execPpeRestart p s
  | .pslResponse g k frame => Sys2Proof.Machine.execPslResponse g k frame s
  | .pslWatchPoll g => Sys2Proof.Machine.execPslWatchPoll g s
  | .pslAlert g => Sys2Proof.Machine.execPslAlert g s
  | .faultRetryExpiry p => Sys2Proof.Machine.execFaultRetryExpiry p s
  | .stop p g v => Sys2Proof.Machine.execStop p g v s
  | .forceSafeNFall => Sys2Proof.Machine.execForceSafeNFall s
  | .forceSafeNRise => Sys2Proof.Machine.execForceSafeNRise s
  | .ilimitClipTimer p => Sys2Proof.Machine.execIlimitClipTimer p s
  | .supplyAlertFall => Sys2Proof.Machine.execSupplyAlertFall s
  | .supplyAlertRise => Sys2Proof.Machine.execSupplyAlertRise s
  | .alertHoldExpiry => Sys2Proof.Machine.execAlertHoldExpiry s
  | .allocationRun => Sys2Proof.Machine.execAllocationRun s
  | .taskTake c => Sys2Proof.Machine.execTaskTake c s
  | .taskEnd c cycles => Sys2Proof.Machine.execTaskEnd c cycles s
  | .taskPost c d => Sys2Proof.Machine.execTaskPost c d s
  | .taskYield c cycles d => Sys2Proof.Machine.execTaskYield c cycles d s
  | .taskCancel c handle => Sys2Proof.Machine.execTaskCancel c handle s
  | .easelTick h => Sys2Proof.Machine.execEaselTick h s
  | .coreWedge c => Sys2Proof.Machine.execCoreWedge c s
  | .coreRestartDone c => Sys2Proof.Machine.execCoreRestartDone c s
  | .updateCmdCore p c => Sys2Proof.Machine.execUpdateCmdCore p c s
  | .updateCmdAll p => Sys2Proof.Machine.execUpdateCmdAll p s
  | .coreUpdateLoadDone c hashOk => Sys2Proof.Machine.execCoreUpdateLoadDone c hashOk s
  | .dictReq c index sub write value => Sys2Proof.Machine.execDictReq c index sub write value s
  | .dictWait c => Sys2Proof.Machine.execDictWait c s
  | .eventRaise c v => Sys2Proof.Machine.execEventRaise c v s
  | .objAnswer c code => Sys2Proof.Machine.execObjAnswer c code s
  | .objAnswerTimeout => Sys2Proof.Machine.execObjAnswerTimeout s
  | .builderReload p v imageOk version => Sys2Proof.Machine.execBuilderReload p v imageOk version s
  | .residueMismatch u v second => Sys2Proof.Machine.execResidueMismatch u v second s
  | .unitReturn u => Sys2Proof.Machine.execUnitReturn u s
  | .sramError arr loc uncorrectable => Sys2Proof.Machine.execSramError arr loc uncorrectable s
  | .patrolScrubRead arr loc word badBit uncorrectable => Sys2Proof.Machine.execPatrolScrubRead arr loc word badBit uncorrectable s
  | .gessoVote => Sys2Proof.Machine.execGessoVote s
  | .read l fr => Sys2Proof.Machine.execRead l fr s
  | .segGet l fr => Sys2Proof.Machine.execSegGet l fr s
  | .write l fr => Sys2Proof.Machine.execWrite l fr s
  | .writeSegStart l fr => Sys2Proof.Machine.execWriteSegStart l fr s
  | .segPut l fr image => Sys2Proof.Machine.execSegPut l fr image s
  | .abort l fr => Sys2Proof.Machine.execAbort l fr s
  | .segTimeoutExpiry l => Sys2Proof.Machine.execSegTimeoutExpiry l s
  | .minimalResponderRequest l cmd fr => Sys2Proof.Machine.execMinimalResponderRequest l cmd fr s
  | .heartbeat => Sys2Proof.Machine.execHeartbeat s
  | .canBusOff l => Sys2Proof.Machine.execCanBusOff l s
  | .eventFrameQueueDrain l => Sys2Proof.Machine.execEventFrameQueueDrain l s
  | .adminRead f => Sys2Proof.Machine.execAdminRead f s
  | .adminWrite f => Sys2Proof.Machine.execAdminWrite f s
  | .adminManagerOperation f image => Sys2Proof.Machine.execAdminManagerOperation f image s
  | .save p v => Sys2Proof.Machine.execSave p v s
  | .restore p v => Sys2Proof.Machine.execRestore p v s
  | .stopMask p mask => Sys2Proof.Machine.execStopMask p mask s
  | .fenceSlice p n => Sys2Proof.Machine.execFenceSlice p n s
  | .fenceAll p v => Sys2Proof.Machine.execFenceAll p v s
  | .lockClear p v => Sys2Proof.Machine.execLockClear p v s
  | .deviceReset p v => Sys2Proof.Machine.execDeviceReset p v s
  | .eventAck p v => Sys2Proof.Machine.execEventAck p v s
  | .railFail => Sys2Proof.Machine.execRailFail s
  | .railsGood => Sys2Proof.Machine.execRailsGood s
  | .gessoClockStart => Sys2Proof.Machine.execGessoClockStart s
  | .gessoClockStop => Sys2Proof.Machine.execGessoClockStop s
  | .resetNFall => Sys2Proof.Machine.execResetNFall s
  | .resetNRise => Sys2Proof.Machine.execResetNRise s
  | .refclkLoss h => Sys2Proof.Machine.execRefclkLoss h s
  | .refclkReturn => Sys2Proof.Machine.execRefclkReturn s
  | .startCmdWarm p => Sys2Proof.Machine.execStartCmdWarm p s
  | .startCmdCold p => Sys2Proof.Machine.execStartCmdCold p s
  | .portsReady okA okB calOk idents us => Sys2Proof.Machine.execPortsReady okA okB calOk idents us s
  | .startFailure okA okB us => Sys2Proof.Machine.execStartFailure okA okB us s
  | .failedStartRetry => Sys2Proof.Machine.execFailedStartRetry s
  | .failedStartWindowExpiry => Sys2Proof.Machine.execFailedStartWindowExpiry s
  | .levelReqAttachWatch p => Sys2Proof.Machine.execLevelReqAttachWatch p s
  | .levelReqDeepStandby p => Sys2Proof.Machine.execLevelReqDeepStandby p s
  | .watchPeriod => Sys2Proof.Machine.execWatchPeriod s
  | .wakeNLow => Sys2Proof.Machine.execWakeNLow s
  | .canWakePattern l id data => Sys2Proof.Machine.execCanWakePattern l id data s
  | .canDominantEdge l => Sys2Proof.Machine.execCanDominantEdge l s
  | .gessoLoopIdleStop => Sys2Proof.Machine.execGessoLoopIdleStop s
  | .vsrvRise => Sys2Proof.Machine.execVsrvRise s
  | .attachWake p => Sys2Proof.Machine.execAttachWake p s
  | .perstWake f => Sys2Proof.Machine.execPerstWake f s
  | .usb2BusWake p => Sys2Proof.Machine.execUsb2BusWake p s
  | .wakeRailsGood => Sys2Proof.Machine.execWakeRailsGood s
  | .stageData p data => Sys2Proof.Machine.execStageData p data s
  | .stageCmdErase p => Sys2Proof.Machine.execStageCmdErase p s
  | .stageCmdVerify p => Sys2Proof.Machine.execStageCmdVerify p s
  | .stageCmdDone ok version minVersion => Sys2Proof.Machine.execStageCmdDone ok version minVersion s
  | .thermalTrip h tenths => Sys2Proof.Machine.execThermalTrip h tenths s
  | .thermalClearStart => Sys2Proof.Machine.execThermalClearStart s
  | .ppeRestartEnd p ok => Sys2Proof.Machine.execPpeRestartEnd p ok s
  | .gessoSupplyGood vsrv straps => Sys2Proof.Machine.execGessoSupplyGood vsrv straps s
  | .gessoSupplyLoss => Sys2Proof.Machine.execGessoSupplyLoss s
  | .canBusOffRecovery l => Sys2Proof.Machine.execCanBusOffRecovery l s
  | .saveDone ok => Sys2Proof.Machine.execSaveDone ok s

end Sys2Proof.Machine
end

