-- ==== Sys2Proof/Safety.lean ====
section
/-! DEFINITION. What counts as a good state and a safe step, in the terms the statements use. -/
namespace Sys2Proof.Machine

/-- The addressed buffers and flash partitions keep their canonical form. -/
def State.Canonical (s : State) : Prop := s.mem.wf = true

/-- No memory operation is left over between commands. -/
def State.Settled (s : State) : Prop := s.dev.memOps = []

/-- The state after a command that leaves the part as d: its memory operations are applied in order, and nothing else changes. -/
def State.after (s : State) (d : Dev) : State :=
  { s with dev := { d with memOps := [] }, mem := d.memOps.foldl Memory.apply s.mem }

/-- The same for a command that may change attachments, contracts, limits or demands: power is allocated again, and each port's PD
policy goes on where it can. -/
def State.afterPd (s : State) (d : Dev) : State := s.after (settlePd d)

/-- Entry e of work queue q of slice n, at index i, executes opcode op and has not been acted on. -/
def State.Executes (s : State) (n q : Nat) (i : Dword) (op : Nat) (e : WEnt) : Prop :=
  s.dev.execEnt n q i = some e ∧ weOp e.dws = op ∧ e.phase = 0

/-- The device once entry e uses the context of its handle and endpoint: those not on chip are read (R93). -/
def State.withCtx (s : State) (n : Nat) (e : WEnt) : Dev := useCtx n (weHandle e.dws) (weEp e.dws) s.dev

/-- Endpoint e of handle h can be served on port p: the port is inside no fence, its owner exists, the handle is Default or Addressed on
this port, and the endpoint is not Disabled. -/
def State.OnPort (s : State) (p h e : Nat) : Prop :=
  (s.dev.port p).fenceWait = false ∧ s.dev.owner p < s.dev.S ∧
  ((s.dev.handle (s.dev.owner p) h).st = .default ∨ (s.dev.handle (s.dev.owner p) h).st = .addressed) ∧
  (s.dev.handle (s.dev.owner p) h).port = p ∧ ((s.dev.handle (s.dev.owner p) h).ep e).st ≠ .disabled

/-- The management request of path p is taken at once: the path is free, the server runs, and in a standby level or in Safe hold there
is none. -/
def State.Serves (s : State) (p : Path) : Prop :=
  s.dev.pathBusy p = false ∧ s.dev.gesso.level = 0 ∧ (s.dev.start.st != 1 || !(s.dev.half 0).inReset) = true ∧ s.dev.start.st != 2

/-- The same, from the owner of the configuration. -/
def State.Owned (s : State) (p : Path) : Prop := s.Serves p ∧ s.dev.isOwner p = true

/-- A write of bs to an object by path p is taken at once and passes every check of R401; o: its row of the dictionary. -/
def State.Accepts (s : State) (p : Path) (idx sub : Nat) (bs : List Byte) (o : Obj) : Prop :=
  s.Serves p ∧ s.dev.writeBad (s.dev.isOwner p) idx sub bs = none ∧ s.dev.objOf idx sub = some o ∧ isBuilderIdx idx = false

/-- The dictionary server takes a frame on link l at once: it hears the link, the frame repeats none, and nothing waits. -/
def State.Hears (s : State) (l : Nat) (fr : HFrame) : Prop :=
  s.dev.canServes l = true ∧ repeats (s.dev.can l).lastFrame fr = false ∧ s.dev.serverOut = false ∧ (s.dev.can l).waiting = []

/-- The device with frame fr of command cmd noted as the last on link l (R410). -/
def State.noted (s : State) (l cmd : Nat) (fr : HFrame) : Dev := s.dev.modCan l (fun x => { x with lastFrame := some (cmd, fr) })

/-- A step that ends in a next state. -/
def Runs (s : State) : Prop := ∃ t, step s = .next t

/-- n steps lead from s to t, each ending in a next state. -/
def Steps : Nat → State → State → Prop
  | 0, s, t => s = t
  | n + 1, s, t => ∃ u, step s = .next u ∧ Steps n u t

end Sys2Proof.Machine

namespace Sys2Proof

/-- Rows whose command may change the dictionary, a host group, the start, the flash states, the live update, or a byte of the mailbox's
request buffer or of the flash: register and object writes, the boundary, links, the operations of the manager, power domains, STOP,
cores, residues, the minimal responder, starts, standby levels, staging and the thermal trip. -/
def Instr.configures : Instr → Bool
  | .registerWrite .. | .objectWrite .. | .microframeBoundary | .hgReturn .. | .hsTimeoutExpiry .. | .upstreamLinkDown ..
  | .upstreamPerst .. | .washEnd .. | .bankPowerUpDone .. | .sinopiaCtrlMessage .. | .sliceCreate .. | .sliceQuiesce ..
  | .sliceFence .. | .sliceFreeze .. | .sliceRehome .. | .sliceThaw .. | .sliceExport .. | .sliceImport .. | .sliceReset ..
  | .sliceRemove .. | .portAssign .. | .pgOn .. | .pgSleep .. | .pgOff .. | .portSleepWake .. | .upOn .. | .upOff ..
  | .upDrainDeadlineExpiry .. | .bankOffReq .. | .stop .. | .taskEnd .. | .taskYield .. | .taskCancel .. | .coreWedge ..
  | .coreRestartDone .. | .updateCmdCore .. | .updateCmdAll .. | .coreUpdateLoadDone .. | .dictReq .. | .dictWait ..
  | .objAnswer .. | .objAnswerTimeout | .builderReload .. | .residueMismatch .. | .unitReturn .. | .sramError ..
  | .patrolScrubRead .. | .read .. | .segGet .. | .write .. | .writeSegStart .. | .segPut .. | .minimalResponderRequest ..
  | .adminRead .. | .adminWrite .. | .adminManagerOperation .. | .save .. | .restore .. | .stopMask .. | .fenceSlice ..
  | .fenceAll .. | .lockClear .. | .deviceReset .. | .eventAck .. | .railFail | .railsGood | .gessoClockStart
  | .gessoClockStop | .resetNFall | .resetNRise | .refclkLoss .. | .refclkReturn | .startCmdWarm .. | .startCmdCold ..
  | .portsReady .. | .startFailure .. | .failedStartRetry | .levelReqAttachWatch .. | .levelReqDeepStandby .. | .vsrvRise
  | .wakeRailsGood | .stageData .. | .stageCmdErase .. | .stageCmdVerify .. | .stageCmdDone .. | .thermalTrip ..
  | .thermalClearStart | .gessoSupplyGood .. | .gessoSupplyLoss | .saveDone .. => true
  | _ => false

end Sys2Proof
end

