-- ==== Sys2Proof/WellFormed.lean ====
section
/-! DEFINITION. Which operands a command can carry: sizes of accesses, payloads, messages and lists. -/
namespace Sys2Proof

/-- Host groups' handles run to 6143 and endpoint contexts from 1 to 31 (R31, R87). -/
def handleOk (h ep : Nat) : Bool := h < 6144 && 1 ≤ ep && ep ≤ 31

/-- A register access of 4 or 8 bytes, naturally aligned, in a BAR that exists (bar 15: configuration space). -/
def accessOk (bar off size : Nat) : Bool := (bar == 0 || bar == 2 || bar == 4 || bar == 15) && (size == 4 || size == 8) && off % size == 0

/-- A CAN FD frame carries at most 64 bytes, 8 of them the header, and SEQ is 16 bits (R408). -/
def HFrame.wf (f : HFrame) : Bool := f.data.length ≤ 56 && f.seq < 65536

/-- The payload of one transaction is at most 1024 bytes. -/
def NpResp.wf : NpResp → Bool
  | .data _ b => b.length ≤ 1024
  | .ack k => k ≤ 16
  | .nak | .nyet | .stall | .crcError => true
def PerResp.wf : PerResp → Bool
  | .data _ _ b => b.length ≤ 1024 * 48
  | .ack | .nyet | .nak | .stall | .busError | .sent => true
def SplitResp.wf : SplitResp → Bool
  | .data _ b _ | .mdata b _ => b.length ≤ 1024
  | .ack | .nak | .nyet | .stall | .err | .crcError => true

/-- A request names a resource charge that fits a counter; a request data object a position of 1 to 15. -/
def Rdo.wf (r : Rdo) : Bool := 1 ≤ r.pos && r.pos ≤ 15
def PdMsg.wf : PdMsg → Bool
  | .request r | .eprRequest r => r.wf
  | .sourceCaps l => 1 ≤ l.length && l.length ≤ 7
  | .eprSourceCaps l => 1 ≤ l.length && l.length ≤ 15
  | _ => true

/-- An operation block's byte fields are bytes (R413). -/
def OpBlock.wf (b : OpBlock) : Bool := b.slice < 256 && b.hostGroup < 256 && b.port < 256 && b.target < 256 && b.length < 2 ^ 32

/-- Well-formedness of a command. -/
def Instr.wf (i : Instr) : Bool :=
  match i with
  | .registerWrite _ bar off size _ => accessOk bar off size
  | .objectWrite _ _ _ v _ => 1 ≤ v.length && v.length ≤ 4096
  | .wqPush _ _ _ _ e => e.length == 16
  | .epPush _ _ e => e.length == 16
  | .transferEntryReadComplete _ h ep st _ | .fragmentTableReadComplete _ h ep st _
  | .streamContextReadComplete _ h ep st _ => handleOk h ep && st ≤ 256
  | .contextLoadComplete _ h ep _ => handleOk h ep
  | .dataReadComplete _ h ep st _ b _ => handleOk h ep && st ≤ 256 && b.length ≤ 4096
  | .funnelHoldExpiry _ h ep st => handleOk h ep && st ≤ 256
  | .usb2TransactionResponse _ h ep r _ => handleOk h ep && r.wf
  | .periodicTransactionResponse _ h ep r _ => handleOk h ep && r.wf
  | .splitResponse _ h ep r => handleOk h ep && r.wf
  | .transactionTimeout _ h ep | .repollIntervalExpiry _ h ep | .portBabble _ h ep => handleOk h ep
  | .nrdyReceived _ h ep st | .erdyReceived _ h ep st => handleOk h ep && st ≤ 65535
  | .sinopiaCtrlMessage _ (.completion _ _ dws _) => dws.length == 8
  | .sinopiaDataMessage _ (.upstream _ _ _ b _) => b.length ≤ 512
  | .sinopiaDataMessage _ (.pool _ h ep b) => handleOk h ep && b.length ≤ 512
  | .arbiterTurn _ reqs => reqs.all (fun r => r.charge < 2 ^ 32)
  | .sliceCreate _ b | .sliceQuiesce _ b | .sliceFence _ b | .sliceFreeze _ b | .sliceRehome _ b | .sliceThaw _ b
  | .sliceExport _ b | .sliceReset _ b | .sliceRemove _ b | .portAssign _ b => b.wf
  | .sliceImport _ b _ => b.wf
  | .pdMessageReceived _ _ _ _ m => m.wf
  | .taskPost _ d => d.length == 16
  | .taskYield _ _ d => d.length == 16
  | .dictReq _ _ _ _ v => v.length ≤ 4096
  | .patrolScrubRead _ _ _ bit _ => bit.all (fun b => b < 72)
  | .read _ f | .segGet _ f | .write _ f | .writeSegStart _ f | .segPut _ f _ | .abort _ f => f.wf
  | .minimalResponderRequest _ _ f => f.wf
  | .canWakePattern _ _ b => b.length ≤ 64
  | .stageData _ b => b.length ≤ 4096
  | .portsReady _ _ _ ids _ => ids.length ≤ 192
  | _ => true

end Sys2Proof
end

