-- ==== Sys2Proof/Certificates/Slice0/Obligations.lean ====
section
/-! DEFINITION. The statements about the machine. -/

set_option linter.all false
open Sys2Proof Sys2Proof.Machine

/-- A step takes the command at the front and runs it with the queue's rest. The queue is the model's own (log entry 4). -/
def Obligations.StepRunsTheFrontCommand : Prop :=
  ∀ (c : Instr) (r : List Instr) (s : State), s.pending = c :: r → step s = exec c { s with pending := r }

/-- The Gesso time: seconds from the 32.768 kHz clock and the cycles within the second (R395, R429). That a step on an empty queue is one
cycle is the model's choice (log entry 4). -/
def Obligations.IdleStepsCountTheGessoClock : Prop :=
  (∀ (s : State), s.pending = [] → s.dev.gesso.clock = false → step s = .next s) ∧
  (∀ (n : Nat) (s : State), s.pending = [] → s.dev.gesso.clock = true →
    ∃ t, Steps n s t ∧ t.dev.now = (s.dev.now + n) % 2 ^ 47 ∧
      t = { s with dev := { s.dev with gesso := { s.dev.gesso with seconds := t.dev.gesso.seconds, subsec := t.dev.gesso.subsec } } })

/-- Every row of the table has an effect in every state (the spec stops none); a command leaves the queue's rest alone. -/
def Obligations.EveryCommandCompletes : Prop :=
  ∀ (i : Instr) (s : State), ∃ t, exec i s = .next t ∧ t.pending = s.pending ∧ t.Settled ∧ (s.Canonical → t.Canonical)

/-- The mailbox buffers of R415 and the flash partitions of R446 keep one canonical form, whatever command runs. -/
def Obligations.StepsKeepTheMemoriesCanonical : Prop :=
  ∀ (s t : State), s.Canonical → s.Settled → step s = .next t → t.Canonical ∧ t.Settled

/-- State.reset: the power-on cold start (R442) with every object at its default, among them the owner (R405) and the slice count. -/
def Obligations.ResetState : Prop :=
  State.reset.Canonical ∧ State.reset.Settled ∧ State.reset.pending = [] ∧ State.reset.dev.start.st = 1 ∧
  State.reset.dev.start.type = 1 ∧ State.reset.dev.start.trigger = 1 ∧ State.reset.dev.start.deviceReady = false ∧
  (∀ n, (State.reset.dev.slice n).st = .free) ∧ (∀ p, State.reset.dev.owner p = 0xFF) ∧
  State.reset.dev.cfg 0x2001 1 = 1 ∧ State.reset.dev.isOwner (.can 0) = true ∧ State.reset.dev.isOwner .admin = false ∧
  State.reset.dev.gesso.failedStarts = 0 ∧ State.reset.dev.gesso.locked = false ∧ State.reset.dev.gesso.frTotal = 0 ∧
  State.reset.dev.gesso.fr = []

/-- The frame of every row that Safety's Instr.configures does not name. -/
def Obligations.OrdinaryRowsFrame : Prop :=
  ∀ (i : Instr) (s t : State), i.configures = false → s.Settled → exec i s = .next t →
    t.dev.dict = s.dev.dict ∧ t.dev.groups = s.dev.groups ∧ t.dev.start = s.dev.start ∧ t.dev.flash = s.dev.flash ∧
    t.dev.update = s.dev.update ∧ t.pending = s.pending ∧ t.mem.req = s.mem.req ∧
    (∀ a, memGet t.mem.flashA a = memGet s.mem.flashA a) ∧ (∀ a, memGet t.mem.flashB a = memGet s.mem.flashB a)

/-- REGISTER_WRITE, BAD_REGISTER_ACCESS, HG_RETURN, HS_TIMEOUT_EXPIRY, EVT_CAUSE_CLEAR, VECTOR_UNMASK, MSIX_ENABLE_CHANGE,
UPSTREAM_LINK_DOWN, UPSTREAM_LINK_UP, UPSTREAM_PERST (R7, R21, R22, R26, R27, R41, R218, R246, R445). The layout of Device Control is the
model's (log entry 41). -/
def Obligations.FunctionRowsComplete : Prop :=
  (∀ (s : State) (f : FuncId) (v : Qword),
    exec (.registerWrite f 0 0x1000 4 v) s = .next (s.afterPd (s.dev.modFunc f (fun x => { x with evtEnSh := bitOf v 0 })))) ∧
  (∀ (s : State) (f : FuncId) (off size : Nat) (v : Qword),
    exec (.registerWrite f 15 off size v) s = .next (s.afterPd (devControl f (w32 (v.toNat % 2 ^ 32)) s.dev))) ∧
  (∀ (s : State) (f : FuncId) (off size : Nat) (v : Qword), accessOk 2 off size = true → s.dev.shows f (off / 4096) = false →
    exec (.registerWrite f 2 off size v) s = .next (s.afterPd s.dev)) ∧
  (∀ (s : State) (f : FuncId) (bar off size : Nat) (v : Qword), bar ≠ 15 → size ≠ 4 → size ≠ 8 →
    exec (.registerWrite f bar off size v) s = .next (s.afterPd (badAccess f bar off size true s.dev))) ∧
  (∀ (s : State) (f : FuncId) (bar off size : Nat),
    exec (.badRegisterAccess f bar off size false) s = .next (s.after (emit (.regRead f 0)
      (raise { c := 16, inst := f, half := halfOfFunc f } s.dev)))) ∧
  (∀ (s : State) (f : FuncId) (g : Nat) (upper : Dword), halfOfFunc f = 0 ∨ s.dev.sinopia.up = true → s.dev.groupOf f = some g →
    s.dev.hgSt g = .pending → f.val ≠ (s.dev.group g).startPort.toNat →
    (s.dev.group g).nonce = some (upper ++ (s.dev.func f).retLo) →
    exec (.hgReturn f upper) s = .next (s.after (prove g s.dev))) ∧
  (∀ (s : State) (f : FuncId) (g : Nat) (upper : Dword), halfOfFunc f = 0 ∨ s.dev.sinopia.up = true → s.dev.groupOf f = some g →
    s.dev.hgSt g = .pending → f.val ≠ (s.dev.group g).startPort.toNat →
    (s.dev.group g).nonce ≠ some (upper ++ (s.dev.func f).retLo) →
    exec (.hgReturn f upper) s = .next (s.after (setHg g .failed 2 s.dev))) ∧
  (∀ (s : State) (f : FuncId) (g : Nat) (upper : Dword), halfOfFunc f = 0 ∨ s.dev.sinopia.up = true → s.dev.groupOf f = some g →
    s.dev.hgSt g = .pending → f.val = (s.dev.group g).startPort.toNat →
    exec (.hgReturn f upper) s = .next (s.after (setHg g .failed 3 s.dev))) ∧
  (∀ (s : State) (g : HgId), s.dev.hgSt g = .pending →
    exec (.hsTimeoutExpiry g) s = .next (s.after (setHg g .failed 1 s.dev))) ∧
  (∀ (s : State) (f : FuncId) (causes : Dword) (slices : BitVec 192),
    exec (.evtCauseClear f causes slices) s = .next (s.after (s.dev.modFunc f (fun x => { x with
      restarted := x.restarted && !(bitOf causes 0), groupState := x.groupState && !(bitOf causes 1)
      sliceEvt := x.sliceEvt &&& ~~~slices })))) ∧
  (∀ (s : State) (f : FuncId) (n : SliceId) (v : Nat), s.dev.shows f n = true → v < Config.shareVectors s.dev.S →
    exec (.vectorUnmask f n v) s = .next (s.after (releaseVectors n (s.dev.modSlice n (fun x => { x with
      vecs := tabPut x.vecs v { tabGet {} x.vecs v with mask := false } }))))) ∧
  (∀ (s : State) (f : FuncId) (en mask : Bool), s.dev.boundSlices = [] → (s.dev.func f).vecs = [] →
    exec (.msixEnableChange f en mask) s = .next (s.after (s.dev.modFunc f (fun x => { x with msixEn := en, msixMask := mask })))) ∧
  (∀ (s : State) (f : FuncId), (s.dev.func f).linkUp = true →
    exec (.upstreamLinkDown f) s = .next (s.after (raise { c := 67, inst := f, half := halfOfFunc f } (loseFunc f s.dev)))) ∧
  (∀ (s : State) (f : FuncId), (s.dev.func f).linkUp = false → (s.dev.func f).upState = 0 → s.dev.start.st ≠ 2 →
    exec (.upstreamLinkUp f) s = .next (s.after (repath (fun d =>
      forEach d.boundSlices (fun n => Dev.modEng n (fun x => { x with lost := x.lost.filter (fun k => k != f.val) }))
        (d.modFunc f (fun x => { x with linkUp := true, perstHigh := true }))) s.dev))) ∧
  (∀ (s : State) (f : FuncId) (fundamental : Bool), (s.dev.func f).linkUp = false →
    exec (.upstreamPerst f fundamental) s = .next (s.after (lapse f (s.dev.modFunc f (fun x => {
      linkUp := false, perstHigh := !fundamental, upReq := x.upReq, upState := x.upState, upPath := x.upPath })))))

/-- WQ_DOORBELL, EP_DOORBELL, CQ_DOORBELL, WQ_PUSH, EP_PUSH, Q_SELECT (R54, R56, R59, R61, R65, R69, R70, R77, R110): served, or ignored
and counted. -/
def Obligations.DoorbellRowsComplete : Prop :=
  (∀ (s : State) (f : FuncId) (n : SliceId) (v : Dword), s.dev.shows f n = true → bitsOf v 11 0 < s.dev.share →
    (s.dev.slice n).st = .active → (s.dev.wq n (bitsOf v 11 0)).st = .active → (s.dev.wq n (bitsOf v 11 0)).piOut = false →
    exec (.wqDoorbell f n v) s = .next (s.after (readPi n (bitsOf v 11 0) s.dev))) ∧
  (∀ (s : State) (f : FuncId) (n : SliceId) (v : Dword), s.dev.shows f n = true → bitsOf v 11 0 < s.dev.share →
    (s.dev.slice n).st = .active → (s.dev.wq n (bitsOf v 11 0)).st = .active → (s.dev.wq n (bitsOf v 11 0)).piOut = true →
    exec (.wqDoorbell f n v) s = .next (s.after (s.dev.modWq n (bitsOf v 11 0) (fun w => { w with piAgain := true })))) ∧
  (∀ (s : State) (f : FuncId) (n : SliceId) (v : Dword), s.dev.shows f n = true →
    s.dev.share ≤ bitsOf v 11 0 ∨ (s.dev.slice n).st ≠ .active ∨ (s.dev.wq n (bitsOf v 11 0)).st ≠ .active →
    exec (.wqDoorbell f n v) s = .next (s.after (s.dev.modSlice n (fun x => { x with dbIgnored := x.dbIgnored + 1 })))) ∧
  (∀ (s : State) (f : FuncId) (n : SliceId) (v : Qword), s.dev.shows f n = true →
    s.dev.epAccepts n (bitsOf v 12 0) (bitsOf v 20 16) (bitsOf v 40 32) = true →
    exec (.epDoorbell f n v) s = .next (s.after (ringEp n (bitsOf v 12 0) (bitsOf v 20 16) (bitsOf v 40 32) s.dev))) ∧
  (∀ (s : State) (f : FuncId) (n : SliceId) (v : Qword), s.dev.shows f n = true →
    s.dev.epAccepts n (bitsOf v 12 0) (bitsOf v 20 16) (bitsOf v 40 32) = false →
    exec (.epDoorbell f n v) s = .next (s.after (s.dev.modSlice n (fun x => { x with dbIgnored := x.dbIgnored + 1 })))) ∧
  (∀ (s : State) (f : FuncId) (n : SliceId) (v : Qword), s.dev.shows f n = true → bitsOf v 43 32 < s.dev.share →
    (s.dev.slice n).st = .active → (s.dev.cq n (bitsOf v 43 32)).st = .active →
    (s.dev.cq n (bitsOf v 43 32)).size < ((s.dev.cq n (bitsOf v 43 32)).pi - w32 (bitsOf v 31 0)).toNat →
    exec (.cqDoorbell f n v) s = .next (s.after (s.dev.modCq n (bitsOf v 43 32) (fun c => { c with
      st := .error, errCode := 0x14, errIndex := w32 (bitsOf v 31 0), ci := w32 (bitsOf v 31 0)
      armPend := c.armPend || bitOf v 48 })))) ∧
  (∀ (s : State) (f : FuncId) (n : SliceId) (v : Qword), s.dev.shows f n = true → bitsOf v 43 32 < s.dev.share →
    (s.dev.slice n).st = .active → (s.dev.cq n (bitsOf v 43 32)).st = .active →
    ((s.dev.cq n (bitsOf v 43 32)).pi - w32 (bitsOf v 31 0)).toNat ≤ (s.dev.cq n (bitsOf v 43 32)).size →
    bitOf v 48 = false ∨ (s.dev.cq n (bitsOf v 43 32)).pi = w32 (bitsOf v 31 0) →
    exec (.cqDoorbell f n v) s = .next (s.after (spaceBack n (bitsOf v 43 32) (s.dev.modCq n (bitsOf v 43 32) (fun c => { c with
      ci := w32 (bitsOf v 31 0), armed := c.armed || bitOf v 48 }))))) ∧
  (∀ (s : State) (f : FuncId) (n : SliceId) (v : Qword), s.dev.shows f n = true → bitsOf v 43 32 < s.dev.share →
    (s.dev.slice n).st = .active → (s.dev.cq n (bitsOf v 43 32)).st = .active →
    ((s.dev.cq n (bitsOf v 43 32)).pi - w32 (bitsOf v 31 0)).toNat ≤ (s.dev.cq n (bitsOf v 43 32)).size →
    bitOf v 48 = true → (s.dev.cq n (bitsOf v 43 32)).pi ≠ w32 (bitsOf v 31 0) →
    exec (.cqDoorbell f n v) s = .next (s.after (spaceBack n (bitsOf v 43 32) (cqMessage n (bitsOf v 43 32)
      (s.dev.modCq n (bitsOf v 43 32) (fun c => { c with ci := w32 (bitsOf v 31 0), armed := true })))))) ∧
  (∀ (s : State) (f : FuncId) (n : SliceId) (q : Fin 8) (k : Fin 4) (e : List Dword), s.dev.shows f n = true → e.length = 16 →
    (s.dev.slice n).st = .active → q.val < s.dev.share → (s.dev.wq n q).lc.pushEn = true → (s.dev.wq n q).st = .active →
    (s.dev.wq n q).errPend = none → dwAt e 3 = (s.dev.wq n q).lim → k.val = (dwAt e 3).toNat % 4 →
    ((s.dev.wq n q).held.filter (fun x => x.pushed)).length < 4 → (s.dev.wq n q).window < 8 →
    (dwAt e 3 + 1 - (s.dev.wq n q).ci).toNat ≤ (s.dev.wq n q).size →
    exec (.wqPush f n q k e) s = .next (s.after (fetchWq n q (takeEntry n q (dwAt e 3) true e
      (s.dev.modWq n q (fun w => { w with
        lim := dwAt e 3 + 1, f := if w.f = dwAt e 3 then dwAt e 3 + 1 else w.f })))))) ∧
  (∀ (s : State) (f : FuncId) (n : SliceId) (q : Fin 8) (k : Fin 4) (e : List Dword), s.dev.shows f n = true → e.length = 16 →
    (s.dev.wq n q).lc.pushEn = false ∨ dwAt e 3 ≠ (s.dev.wq n q).lim ∨ 8 ≤ (s.dev.wq n q).window →
    exec (.wqPush f n q k e) s = .next (s.after (doorbellWq n q
      (s.dev.modSlice n (fun x => { x with pushFallback := x.pushFallback + 1 }))))) ∧
  (∀ (s : State) (f : FuncId) (n : SliceId) (e : List Dword), s.dev.shows f n = true →
    s.dev.epAccepts n (bitsOf (qwAt e 8) 12 0) (bitsOf (qwAt e 8) 20 16) (bitsOf (qwAt e 8) 40 32) = false →
    exec (.epPush f n e) s = .next (s.after (epRing n (qwAt e 8)
      (s.dev.modSlice n (fun x => { x with pushFallback := x.pushFallback + 1 }))))) ∧
  (∀ (s : State) (f : FuncId) (n : SliceId) (v : Dword), s.dev.shows f n = true →
    exec (.qSelect f n v) s = .next (s.after (s.dev.modSlice n (fun x => { x with
      qNum := BitVec.ofNat 12 (bitsOf v 11 0), qKind := bitOf v 12 })))) ∧
  (∀ (s : State) (f : FuncId) (n : SliceId) (v : Dword) (u : Qword) (q : Fin 8) (k : Fin 4) (e : List Dword), s.dev.shows f n = false →
    exec (.wqDoorbell f n v) s = .next (s.after s.dev) ∧ exec (.epDoorbell f n u) s = .next (s.after s.dev) ∧
    exec (.cqDoorbell f n u) s = .next (s.after s.dev) ∧ exec (.wqPush f n q k e) s = .next (s.after s.dev) ∧
    exec (.epPush f n e) s = .next (s.after s.dev) ∧ exec (.qSelect f n v) s = .next (s.after s.dev))

/-- PI_READ_COMPLETE, WORK_ENTRY_READ_COMPLETE, WQ_ARBITRATION_TURN, MOD_TIME_EXPIRY, CI_WRITE_DEADLINE (R53, R58, R65 to R67, R72,
R76, R81, R481). -/
def Obligations.QueueRowsComplete : Prop :=
  (∀ (s : State) (n : SliceId) (wq : Nat) (pi : Dword) (x : HRead), s.dev.readOut n (.pi wq) = some x →
    exec (.piReadComplete n wq pi) s = .next (s.after
      (if x.dead then returned n x s.dev else piArrived n wq pi (returned n x s.dev)))) ∧
  (∀ (s : State) (n : SliceId) (wq : Nat) (data : List Dword) (x : HRead), s.dev.readOut n (.work wq) = some x →
    exec (.workEntryReadComplete n wq data) s = .next (s.after
      (if x.dead then returned n x s.dev else entriesArrived n wq x.off data (returned n x s.dev)))) ∧
  (∀ (s : State) (n : SliceId) (wq : Nat) (pi : Dword) (data : List Dword), s.dev.readOut n (.pi wq) = none →
    s.dev.readOut n (.work wq) = none →
    exec (.piReadComplete n wq pi) s = .next (s.after s.dev) ∧
    exec (.workEntryReadComplete n wq data) s = .next (s.after s.dev)) ∧
  (∀ (s : State) (n : SliceId) (q : Nat),
    ((s.dev.slice n).wqs.map (fun x => x.1)).any (fun q => s.dev.startable n q && (s.dev.wq n q).turns != 0) = true →
    (visitOrder (s.dev.slice n).lastWq ((s.dev.slice n).wqs.map (fun x => x.1))).find?
      (fun q => s.dev.startable n q &&
        ((forfeitTo n (fun q => s.dev.startable n q) (visitOrder (s.dev.slice n).lastWq ((s.dev.slice n).wqs.map (fun x => x.1))) s.dev).wq
          n q).turns != 0) = some q →
    exec (.wqArbitrationTurn n) s = .next (s.after
      (let d := forfeitTo n (fun q => s.dev.startable n q)
        (visitOrder (s.dev.slice n).lastWq ((s.dev.slice n).wqs.map (fun x => x.1))) s.dev
       fetchWq n q (((startRun n q ((d.wq n q).lc.burst.toNat + 1) d).modWq n q (fun w => { w with turns := w.turns - 1 })).modSlice n
        (fun x => { x with lastWq := q }))))) ∧
  (∀ (s : State) (n : SliceId), ((s.dev.slice n).wqs.map (fun x => x.1)).any (fun q => s.dev.startable n q) = false →
    exec (.wqArbitrationTurn n) s = .next (s.after s.dev)) ∧
  (∀ (s : State) (n : SliceId) (cq : Nat), (s.dev.cq n cq).armed = true → (s.dev.cq n cq).modRun = true →
    exec (.modTimeExpiry n cq) s = .next (s.after (cqMessage n cq s.dev))) ∧
  (∀ (s : State) (n : SliceId) (wq : Nat), (s.dev.wq n wq).ciDirty = true →
    exec (.ciWriteDeadline n wq) s = .next (s.after (writeCi n wq s.dev)))

/-- TRANSFER_ENTRY_READ_COMPLETE, FRAGMENT_TABLE_READ_COMPLETE, STREAM_CONTEXT_READ_COMPLETE, CONTEXT_LOAD_COMPLETE,
DATA_READ_COMPLETE, HOST_READ_FAILURE, COMPLETION_TIMEOUT, CONFIRM_READ_ISSUE, CONFIRM_READ_COMPLETE, FLUSH_READ_ISSUE,
FUNNEL_HOLD_EXPIRY (R92, R109, R112, R115, R219, R220, R225, R228, R239, R240, R481, R485). -/
def Obligations.HostReadRowsComplete : Prop :=
  (∀ (s : State) (n : SliceId) (h ep st : Nat) (data : List Dword) (x : HRead), s.dev.readOut n (.transferEntry h ep st) = some x →
    exec (.transferEntryReadComplete n h ep st data) s = .next (s.after 
      (if x.dead then returned n x s.dev else goStop n h ep (transferEntriesArrived n h ep st x data (returned n x s.dev))))) ∧
  (∀ (s : State) (n : SliceId) (h ep st : Nat) (data : List Dword) (x : HRead), s.dev.readOut n (.fragment h ep st) = some x →
    exec (.fragmentTableReadComplete n h ep st data) s = .next (s.after 
      (if x.dead then returned n x s.dev else fragmentTableArrived n h ep x data (returned n x s.dev)))) ∧
  (∀ (s : State) (n : SliceId) (h ep st : Nat) (data : List Dword) (x : HRead), s.dev.readOut n (.streamCtx h ep st) = some x →
    exec (.streamContextReadComplete n h ep st data) s = .next (s.after 
      (if x.dead then returned n x s.dev else streamCtxArrived n h ep st data (returned n x s.dev)))) ∧
  (∀ (s : State) (n : SliceId) (h ep : Nat) (data : List Dword) (x : HRead), s.dev.readOut n (.context h ep) = some x →
    exec (.contextLoadComplete n h ep data) s = .next (s.after 
      (if x.dead then returned n x s.dev else contextArrived n h ep data (returned n x s.dev)))) ∧
  (∀ (s : State) (n : SliceId) (h ep st off bad : Nat) (bytes : List Byte) (x : HRead), s.dev.dataRead n h ep st off = some x →
    bytes.length = x.len →
    exec (.dataReadComplete n h ep st off bytes bad) s = .next (s.after
      (if x.dead then returned n x s.dev else goStop n h ep (resumeEp n h ep (dataArrived n h ep off bytes bad x (returned n x s.dev)))))) ∧
  (∀ (s : State) (n : SliceId) (r : ReadRef) (k : ReadFail) (x : HRead), (∀ q i, r ≠ .result q i) →
    s.dev.readOut n r = some x →
    exec (.hostReadFailure n r k) s = .next (s.after (if x.dead then returned n x s.dev else readFailed n x (returned n x s.dev)))) ∧
  (∀ (s : State) (n : SliceId) (q : Nat) (i : Dword) (k : ReadFail),
    exec (.hostReadFailure n (.result q i) k) s =
      .next (s.after (s.dev.modEng n (fun x => { x with due := x.due.map (resultFailed q i) })))) ∧
  (∀ (s : State) (n : SliceId) (r : ReadRef) (k : ReadFail), s.dev.readOut n r = none →
    ((∀ q i, r ≠ .result q i) → exec (.hostReadFailure n r k) s = .next (s.after s.dev)) ∧ exec (.completionTimeout n r) s = .next (s.after s.dev)) ∧
  (∀ (s : State) (n : SliceId) (f : FuncId) (x : HRead), s.dev.readOut n (.confirm f) = some x →
    exec (.completionTimeout n (.confirm f)) s = .next (s.after
      (let d := raise { c := 69, inst := f, slice := n, half := halfOfFunc f }
        (s.dev.modEng n (fun e => { e with reads := e.reads.erase x }))
       loseLink n x.f { d with sinopia := { d.sinopia with flushFailures := d.sinopia.flushFailures + 1 } }))) ∧
  (∀ (s : State) (n : SliceId) (q : Nat) (x : HRead), s.dev.readOut n (.pi q) = some x →
    exec (.completionTimeout n (.pi q)) s = .next (s.after (releaseDue n
      (let d := s.dev.modEng n (fun e => { e with reads := e.reads.erase x })
       if x.dead then d else wqReadFailed n q true x.off d)))) ∧
  (∀ (s : State) (n : SliceId) (f : FuncId) (w : HWrite),
    ((s.dev.eng n).unconf.filter (fun w => w.f == f.val && !w.wait)).getLast? = some w →
    (s.dev.eng n).reads.any (fun r => r.f == f.val && decide (w.id < r.mark)) = false →
    exec (.confirmReadIssue n f) s = .next (s.after (issueRead n w.half f w.addr 0 0 0 (.confirm f) s.dev))) ∧
  (∀ (s : State) (n : SliceId) (f g : FuncId) (x : HRead) (a b : List HRead),
    (s.dev.eng n).reads = a ++ x :: b →
    (∀ y ∈ a, y.f ≠ f.val ∨ ((∀ g, y.r ≠ .confirm g) ∧ ∀ q, y.r ≠ .flush q)) → x.f = f.val →
    x.r = .confirm g →
    exec (.confirmReadComplete n f) s = .next (s.after (returned n x s.dev))) ∧
  (∀ (s : State) (n : SliceId) (f : FuncId) (q : Nat) (x : HRead) (a b : List HRead),
    (s.dev.eng n).reads = a ++ x :: b →
    (∀ y ∈ a, y.f ≠ f.val ∨ ((∀ g, y.r ≠ .confirm g) ∧ ∀ q, y.r ≠ .flush q)) → x.f = f.val →
    x.r = .flush q →
    exec (.confirmReadComplete n f) s = .next (s.after (spaceBack n q ((returned n x s.dev).modCq n q (fun c => { c with flush := 3 }))))) ∧
  (∀ (s : State) (n : SliceId) (q f : Nat), (s.dev.cq n q).lastF = some f → (s.dev.cq n q).flush = 1 →
    exec (.flushReadIssue n q) s = .next (s.after (issueRead n (s.dev.cqHalf n q) f (s.dev.cq n q).lastAddr 0 0 0 (.flush q)
      (s.dev.modCq n q (fun c => { c with flush := 2 }))))) ∧
  (∀ (s : State) (n : SliceId) (h ep : Nat) (x : Xfer), (s.dev.ep n h ep).xfer = some x →
    exec (.funnelHoldExpiry n h ep x.stream) s = .next (s.after (flushIn n h ep true false s.dev)))

/-- SINOPIA_DOWN, SINOPIA_RETRAIN_ATTEMPT, SINOPIA_LINK_UP, SINOPIA_HOLD_EXPIRY, SINOPIA_SYNC_RECEIVED, SINOPIA_CTRL_MESSAGE,
SINOPIA_DATA_MESSAGE, SINOPIA_FENCE_MESSAGE, SINOPIA_FLIT_CRC_ERROR, SINOPIA_LANE_RETIRE, ARBITER_TURN (R13, R182, R226, R231, R243 to
R246, R258, R263, R264). -/
def Obligations.SinopiaRowsComplete : Prop :=
  (∀ (s : State) (w : SinopiaLoss), s.dev.sinopia.up = true → s.dev.boundSlices = [] →
    exec (.sinopiaDown w) s = .next (s.after (raise { c := 65, inst := 0 } { s.dev with
      sinopia := { s.dev.sinopia with up := false, training := false, downCount := s.dev.sinopia.downCount + 1, holdRunning := true } }))) ∧
  (∀ (s : State) (w : SinopiaLoss), s.dev.sinopia.up = false → exec (.sinopiaDown w) s = .next (s.after s.dev)) ∧
  (∀ (s : State), s.dev.sinopia.up = false →
    exec .sinopiaRetrainAttempt s = .next (s.after (emit (.sinopiaTrain 1) (emit (.sinopiaTrain 0)
      { s.dev with sinopia := { s.dev.sinopia with training := true } })))) ∧
  (∀ (s : State), s.dev.sinopia.training = true → (s.dev.half 0).takeFromSync = false →
    exec .sinopiaLinkUp s = .next (s.after
      (let d := repath (fun d => raise { c := 66, inst := 0 } { d with sinopia := { d.sinopia with up := true, training := false } })
         (emit (.sinopiaSync 0 (s.dev.half 0).mf) s.dev)
       forEach d.boundSlices tellMirror d))) ∧
  (∀ (s : State), s.dev.sinopia.holdRunning = true →
    exec .sinopiaHoldExpiry s = .next (s.after (forEach s.dev.boundSlices pathBack
      { s.dev with sinopia := { s.dev.sinopia with holdRunning := false } }))) ∧
  (∀ (s : State) (ns : BitVec 16), s.dev.sinopia.up = true → (s.dev.half 0).takeFromSync = false → (s.dev.half 1).takeFromSync = false →
    exec (.sinopiaSyncReceived ns) s = .next (s.after
      (if 20 < ns.toInt.natAbs then
        raise { c := 17, inst := 1, half := 1 } { s.dev with sinopia := { s.dev.sinopia with syncOffset := ns } }
       else { s.dev with sinopia := { s.dev.sinopia with syncOffset := ns } }))) ∧
  (∀ (s : State) (dst : HalfId) (n : SliceId) (r : Nat), s.dev.sinopia.up = true → s.dev.S ≠ 1 → (s.dev.slice n).half = dst.val →
    exec (.sinopiaCtrlMessage dst (.creditRequest n r)) s = .next (s.after (s.dev.modPal n r (fun p =>
      if p.counter ≤ 0 then p else { p with
        counter := p.counter - min 4096 p.counter, far := p.far + min 4096 p.counter
        reached := p.reached || decide (p.counter ≤ 4096) })))) ∧
  (∀ (s : State) (dst : HalfId) (n : SliceId) (cq : Nat) (dws : List Dword) (irq : Bool), s.dev.sinopia.up = true → dws.length = 8 →
    s.dev.cqHalf n cq = dst.val →
    exec (.sinopiaCtrlMessage dst (.completion n cq dws irq)) s = .next (s.after (post n cq { dws := dws, irq := irq } s.dev))) ∧
  (∀ (s : State) (f : FuncId) (lower upper : Dword), s.dev.sinopia.up = true →
    exec (.sinopiaCtrlMessage 0 (.hgReturn f lower upper)) s = .next (s.after (returnNonce f lower upper s.dev))) ∧
  (∀ (s : State) (dst : HalfId) (f : FuncId) (n : SliceId) (a : Qword) (bytes : List Byte) (data : Bool), s.dev.sinopia.up = true →
    halfOfFunc f = dst.val → n.val < s.dev.S → (s.dev.slice n).quiet = false → s.dev.carries n f = true →
    exec (.sinopiaDataMessage dst (.upstream f n a bytes data)) s = .next (s.after
      (sendWrite n (1 - dst.val) f 0 a.toNat bytes data s.dev))) ∧
  (∀ (s : State) (dst : HalfId) (p : PortId) (h ep : Nat) (bytes : List Byte), s.dev.sinopia.up = true → s.dev.owner p < s.dev.S →
    (s.dev.handle (s.dev.owner p) h).port = p.val → s.dev.epHalf (s.dev.owner p) h = dst.val →
    exec (.sinopiaDataMessage dst (.pool p h ep bytes)) s = .next (s.after (takeIn (s.dev.owner p) h ep 0 bytes s.dev))) ∧
  (∀ (s : State) (dst : HalfId) (n : SliceId), s.dev.sinopia.up = true → n.val < s.dev.S → (s.dev.slice n).st ≠ .free →
    exec (.sinopiaFenceMessage dst n) s = .next (s.after (fence [n.val] none s.dev))) ∧
  (∀ (s : State) (src : HalfId), s.dev.sinopia.up = true →
    exec (.sinopiaFlitCrcError src) s = .next (s.after (emit (.replay src) { s.dev with
      sinopia := { s.dev.sinopia with crcErrors := s.dev.sinopia.crcErrors + 1, replays := s.dev.sinopia.replays + 1 } }))) ∧
  (∀ (s : State), s.dev.sinopia.up = true → s.dev.sinopia.sparesA < 8 →
    exec (.sinopiaLaneRetire 0) s = .next (s.after (raise { c := 64, inst := 0 } { s.dev with
      sinopia := { s.dev.sinopia with sparesA := s.dev.sinopia.sparesA + 1 } }))) ∧
  (∀ (s : State), s.dev.sinopia.up = true → 8 ≤ s.dev.sinopia.sparesB →
    exec (.sinopiaLaneRetire 1) s = .next (s.after (sinopiaLost s.dev))) ∧
  (∀ (s : State) (a : Arbiter) (n : SliceId) (c : Nat) (per : Bool), n.val < s.dev.S → s.dev.arbOk a n = true →
    exec (.arbiterTurn a [⟨some n, c, per⟩]) s = .next (s.after (grant a ⟨some n, c, per⟩ (askCredit a [⟨some n, c, per⟩] s.dev))))

/-- NOP, OPEN_DEVICE, ASSIGN_ADDRESS, ASSIGN_ADDRESS_RECOVERY_END, UPDATE_DEVICE, CLOSE_DEVICE, HOST_STRUCTURE_READ_COMPLETE (R85,
R88, R92, R94 to R97, R484). -/
def Obligations.DeviceRowsComplete : Prop :=
  (∀ (s : State) (n : SliceId) (q : Nat) (i : Dword) (e : WEnt), s.Executes n q i 0x01 e →
    exec (.nop n q i) s = .next (s.after (finishWe n q i cOk {} s.dev))) ∧
  (∀ (s : State) (n : SliceId) (q : Nat) (i : Dword) (e : WEnt), s.Executes n q i 0x02 e → openCode n e.dws s.dev = 0 →
    exec (.openDevice n q i) s = .next (s.after (carves n (hostRead n (s.dev.wqHalf n q) ((qwAt e.dws 4).toNat + 64) 64 (.struct q i)
      (waitEnt n q i 1 0 s.dev))))) ∧
  (∀ (s : State) (n : SliceId) (q : Nat) (i : Dword) (e : WEnt), s.Executes n q i 0x02 e → openCode n e.dws s.dev ≠ 0 →
    exec (.openDevice n q i) s = .next (s.after (carves n (finishWe n q i (openCode n e.dws s.dev) {} s.dev)))) ∧
  (∀ (s : State) (n : SliceId) (q : Nat) (i : Dword) (e : WEnt) (a : Nat),
    s.Executes n q i 0x03 e → (s.withCtx n e).handleCode n (weHandle e.dws) = 0 → ((s.withCtx n e).handle n (weHandle e.dws)).st = .default →
    (((s.withCtx n e).handle n (weHandle e.dws)).ep 1).xfer = none → (((s.withCtx n e).handle n (weHandle e.dws)).ep 1).st = .running →
    ((((s.withCtx n e).handle n (weHandle e.dws)).ep 1).ring 0).held = [] →
    (s.withCtx n e).freeAddr n ((s.withCtx n e).handle n (weHandle e.dws)).port = some a →
    exec (.assignAddress n q i) s = .next (s.after
      (let hf := (s.withCtx n e).epHalf n (weHandle e.dws)
       let gen := ((s.withCtx n e).half hf).pickUnit 0
       let nt := newTag n (genAdd hf gen true (s.withCtx n e))
       waitEnt n q i 2 a (nt.2.modEp n (weHandle e.dws) 1 (fun y => { y with xfer := some {
         first := 0, last := 0, control := true, assign := some (q, i, a), stage := 1, half := hf, gen := gen, uid := nt.1
         setup := [0x00, 0x05, BitVec.ofNat 8 a, 0, 0, 0, 0, 0] } }))))) ∧
  (∀ (s : State) (n : SliceId) (q : Nat) (i : Dword) (e : WEnt), s.dev.execEnt n q i = some e → weOp e.dws = 0x03 → e.phase = 3 →
    exec (.assignAddressRecoveryEnd n q i) s = .next (s.after (finishWe n q i cOk { r0 := e.aux }
      (writeHeader n (weHandle e.dws)
        (s.dev.modHandle n (weHandle e.dws) (fun x => { x with st := .addressed, addr := e.aux })))))) ∧
  (∀ (s : State) (n : SliceId) (q : Nat) (i : Dword) (e : WEnt), s.Executes n q i 0x04 e → (s.withCtx n e).handleCode n (weHandle e.dws) = 0 →
    exec (.updateDevice n q i) s = .next (s.after (hostRead n ((s.withCtx n e).wqHalf n q) (qwAt e.dws 4).toNat 64 (.struct q i)
      (waitEnt n q i 1 0 (s.withCtx n e))))) ∧
  (∀ (s : State) (n : SliceId) (q : Nat) (i : Dword) (e : WEnt), s.Executes n q i 0x04 e → (s.withCtx n e).handleCode n (weHandle e.dws) ≠ 0 →
    exec (.updateDevice n q i) s = .next (s.after (finishWe n q i ((s.withCtx n e).handleCode n (weHandle e.dws)) {} (s.withCtx n e)))) ∧
  (∀ (s : State) (n : SliceId) (q : Nat) (i : Dword) (e : WEnt), s.Executes n q i 0x05 e →
    ((s.withCtx n e).handle n (weHandle e.dws)).st ≠ .closed → (s.withCtx n e).hasBelow n (weHandle e.dws) = false →
    exec (.closeDevice n q i) s = .next (s.after
      (stopFor n q i (weHandle e.dws) ((s.withCtx n e).handle n (weHandle e.dws)).live (s.withCtx n e)))) ∧
  (∀ (s : State) (n : SliceId) (q : Nat) (i : Dword) (e : WEnt), s.Executes n q i 0x05 e →
    ((s.withCtx n e).handle n (weHandle e.dws)).st = .closed →
    exec (.closeDevice n q i) s = .next (s.after (finishWe n q i cNotPermitted {} (s.withCtx n e)))) ∧
  (∀ (s : State) (n : SliceId) (q : Nat) (i : Dword) (data : List Dword) (x : HRead) (e : WEnt),
    s.dev.readOut n (.struct q i) = some x →
    let d := releaseDue n (structReads n (fun y => y == .struct q i) (confirmBy x n s.dev))
    d.execEnt n q i = some e → e.phase = 1 →
    (weOp e.dws = 0x02 → exec (.hostStructureReadComplete n q i data) s = .next (s.after (carves n (openRead n q i e.dws data d)))) ∧
    (weOp e.dws = 0x08 → exec (.hostStructureReadComplete n q i data) s = .next (s.after (carves n (admitRead n q i e.dws data d)))) ∧
    (weOp e.dws = 0x04 → d.handleCode n (weHandle e.dws) = 0 → updateBad n (weHandle e.dws) (data.take 16) d = none →
      (d.ep n (weHandle e.dws) 1).xfer = none →
      exec (.hostStructureReadComplete n q i data) s = .next (s.after (finishWe n q i cOk {}
        (d.modHandle n (weHandle e.dws) (fun y =>
          let c := data.take 16
          let f := dwAt c 0
          { y with
            ep0Mps := if bitOf f 0 then bitsOf (dwAt c 1) 10 0 else y.ep0Mps
            isHub := if bitOf f 1 then bitOf (dwAt c 2) 0 else y.isHub
            hubMultiTt := if bitOf f 1 then bitOf (dwAt c 2) 1 else y.hubMultiTt
            ttThink := if bitOf f 1 then bitsOf (dwAt c 2) 3 2 else y.ttThink
            hubPorts := if bitOf f 1 then bitsOf (dwAt c 2) 11 4 else y.hubPorts
            besl := if bitOf f 2 then bitsOf (dwAt c 3) 3 0 else y.besl
            beslValid := if bitOf f 2 then bitOf (dwAt c 3) 4 else y.beslValid })))))) ∧
  (∀ (s : State) (n : SliceId) (q : Nat) (i : Dword) (data : List Dword), s.dev.readOut n (.struct q i) = none →
    exec (.hostStructureReadComplete n q i data) s = .next (s.after s.dev))

/-- ADMIT_ENDPOINTS, RETIRE_ENDPOINTS, STOP_ENDPOINT, CLEAR_HALT, MOVE_DEQUEUE, CARVE_POOL, RELEASE_POOL, QUERY_PLAN, QUERY_BUDGET
(R98, R99, R101, R102, R124, R125, R145, R152, R211 to R213, R265). -/
def Obligations.EndpointRowsComplete : Prop :=
  (∀ (s : State) (n : SliceId) (q : Nat) (i : Dword) (e : WEnt) (k : Nat) (l : List Nat), s.Executes n q i 0x08 e →
    (s.withCtx n e).handleCode n (weHandle e.dws) = 0 → maskBits (dwAt e.dws 4).toNat = k :: l →
    exec (.admitEndpoints n q i) s = .next (s.after (carves n (forEach (k :: l)
      (fun k d => hostRead n (d.wqHalf n q) ((qwAt e.dws 5).toNat + 64 * k) 64 (.struct q i) d) (waitEnt n q i 1 0 (s.withCtx n e)))))) ∧
  (∀ (s : State) (n : SliceId) (q : Nat) (i : Dword) (e : WEnt), s.Executes n q i 0x08 e →
    (s.withCtx n e).handleCode n (weHandle e.dws) ≠ 0 →
    exec (.admitEndpoints n q i) s = .next (s.after (carves n (finishWe n q i ((s.withCtx n e).handleCode n (weHandle e.dws)) {} (s.withCtx n e))))) ∧
  (∀ (s : State) (n : SliceId) (q : Nat) (i : Dword) (e : WEnt), s.Executes n q i 0x09 e →
    let d := forEach (maskBits (dwAt e.dws 4).toNat) (useCtx n (weHandle e.dws)) (s.withCtx n e)
    d.planBefore n (d.startTag n q i) e.dws = false → (d.handle n (weHandle e.dws)).st ≠ .detached →
    (∀ k ∈ maskBits (dwAt e.dws 4).toNat, (d.ep n (weHandle e.dws) k).st ≠ .disabled) →
    exec (.retireEndpoints n q i) s = .next (s.after
      (stopFor n q i (weHandle e.dws) (maskBits (dwAt e.dws 4).toNat) d))) ∧
  (∀ (s : State) (n : SliceId) (q : Nat) (i : Dword) (e : WEnt), s.Executes n q i 0x0A e →
    ((s.withCtx n e).handle n (weHandle e.dws)).st ≠ .detached → ((s.withCtx n e).ep n (weHandle e.dws) (weEp e.dws)).st = .running →
    exec (.stopEndpoint n q i) s = .next (s.after (stopFor n q i (weHandle e.dws) [weEp e.dws] (s.withCtx n e)))) ∧
  (∀ (s : State) (n : SliceId) (q : Nat) (i : Dword) (e : WEnt), s.Executes n q i 0x0A e →
    ((s.withCtx n e).handle n (weHandle e.dws)).st ≠ .detached →
    ((s.withCtx n e).ep n (weHandle e.dws) (weEp e.dws)).st = .stopped →
    let d := writeCtx n (weHandle e.dws) (weEp e.dws) (s.withCtx n e)
    (d.ep n (weHandle e.dws) (weEp e.dws)).unread (dwAt e.dws 4).toNat = false →
    exec (.stopEndpoint n q i) s = .next (s.after (finishWe n q i cOk
      { r1 := d.deqResult n (weHandle e.dws) (weEp e.dws) (dwAt e.dws 4).toNat } d))) ∧
  (∀ (s : State) (n : SliceId) (q : Nat) (i : Dword) (e : WEnt), s.Executes n q i 0x0B e →
    ((s.withCtx n e).handle n (weHandle e.dws)).st ≠ .detached → ((s.withCtx n e).ep n (weHandle e.dws) (weEp e.dws)).st = .halted →
    exec (.clearHalt n q i) s = .next (s.after (finishWe n q i cOk {} ((s.withCtx n e).modEp n (weHandle e.dws) (weEp e.dws) (fun y => { y with
      st := .stopped, errAddr := 0, haltCode := 0, haltReason := 0
      bus := { y.bus with toggle := false, seq := 0, errors := 0, level := 0, naks := 0, ping := false, pinging := false
                          parked := false, csplit := false } }))))) ∧
  (∀ (s : State) (n : SliceId) (q : Nat) (i : Dword) (e : WEnt), s.Executes n q i 0x0C e →
    ((s.withCtx n e).handle n (weHandle e.dws)).st ≠ .detached → ((s.withCtx n e).ep n (weHandle e.dws) (weEp e.dws)).st = .stopped →
    ((s.withCtx n e).ep n (weHandle e.dws) (weEp e.dws)).streamOk (dwAt e.dws 6).toNat = true →
    exec (.moveDequeue n q i) s = .next (s.after (finishWe n q i cOk {}
      (((s.withCtx n e).modEp n (weHandle e.dws) (weEp e.dws) (fun y => { y with errAddr := 0 })).modRing n (weHandle e.dws) (weEp e.dws)
        (dwAt e.dws 6).toNat (fun r => Ring.drop { r with
          deq := (qwAt e.dws 4).toNat / 32 * 32, cyc := (qwAt e.dws 4).toNat % 2 == 1, loaded := true }))))) ∧
  (∀ (s : State) (n : SliceId) (q : Nat) (i : Dword) (e : WEnt), s.Executes n q i 0x18 e →
    exec (.carvePool n q i) s = .next (s.after (carves n (queueCarve n
      { wq := q, idx := i, h := weHandle e.dws, ep := weEp e.dws, pages := bitsOf (dwAt e.dws 4) 15 0, opening := false }
      (waitEnt n q i 3 0 (s.withCtx n e)))))) ∧
  (∀ (s : State) (n : SliceId) (q : Nat) (i : Dword) (e : WEnt), s.Executes n q i 0x19 e →
    ((s.withCtx n e).handle n (weHandle e.dws)).st ≠ .detached → ((s.withCtx n e).ep n (weHandle e.dws) (weEp e.dws)).st = .stopped →
    exec (.releasePool n q i) s = .next (s.after
      (let x := (s.withCtx n e).ep n (weHandle e.dws) (weEp e.dws)
       let d := releasePages n ((s.withCtx n e).epHalf n (weHandle e.dws)) x.addedPg
         ((s.withCtx n e).modEp n (weHandle e.dws) (weEp e.dws) (fun y => { y with addedPg := [] }))
       carves n (finishWe n q i cOk (poolRes d n (weHandle e.dws) (weEp e.dws) x.addedPg.length) d)))) ∧
  (∀ (s : State) (n : SliceId) (q : Nat) (i : Dword) (e : WEnt) (p : Nat), s.Executes n q i 0x1C e →
    s.dev.physPort n (wePort e.dws) = some p → (s.dev.port p).bus.resetRequired = false →
    exec (.queryPlan n q i) s = .next (s.after
      (resultWe n q i e.dws (planBytes s.dev p (wePort e.dws) (bitOf (dwAt e.dws 4) 0)) s.dev))) ∧
  (∀ (s : State) (n : SliceId) (q : Nat) (i : Dword) (e : WEnt), s.Executes n q i 0x1D e →
    exec (.queryBudget n q i) s = .next (s.after (resultWe n q i e.dws (budgetBytes s.dev n) s.dev)))

/-- PORT_RESET, PORT_SUSPEND, PORT_RESUME, PORT_POWER_CYCLE, PD_REQUEST (R195 to R201, R204, R328, R329). -/
def Obligations.PortOpcodeRowsComplete : Prop :=
  (∀ (s : State) (n : SliceId) (q : Nat) (i : Dword) (e : WEnt) (p : Nat), s.Executes n q i 0x10 e →
    s.dev.physPort n (wePort e.dws) = some p → portOpCode 0x10 p s.dev = 0 →
    (s.dev.port p).bus.usb2 = .disconnected → (s.dev.port p).bus.ss = .rxDetect →
    exec (.portReset n q i) s = .next (s.after (finishWe n q i cOk {}
      ((pgWake p s.dev).modBus p (fun b => { b with resetRequired := false }))))) ∧
  (∀ (s : State) (n : SliceId) (q : Nat) (i : Dword) (e : WEnt) (p : PortId), s.Executes n q i 0x10 e →
    s.dev.physPort n (wePort e.dws) = some p.val → portOpCode 0x10 p s.dev = 0 →
    (s.dev.port p).bus.usb2 = .connected → (s.dev.port p).bus.ss = .rxDetect →
    exec (.portReset n q i) s = .next (s.after
      (settlePort p ((waitEnt n q i 2 0 (pgWake p s.dev)).modBus p (fun b => { b with
         rst2 := true, rstS := true
         op := some { opcode := 0x10, slice := n, wq := q, idx := i, waitUsb2 := true, waitSs := false, onUsb2 := true
                      warm := bitOf (dwAt e.dws 4) 0 } }))))) ∧
  (∀ (p : Nat) (d : Dev), d.busBusy p false = true → d.busBusy p true = true → settlePort p d = d) ∧
  (∀ (s : State) (n : SliceId) (q : Nat) (i : Dword) (e : WEnt) (p : Nat), s.Executes n q i 0x11 e →
    s.dev.physPort n (wePort e.dws) = some p → portOpCode 0x11 p s.dev = 0 → dwAt e.dws 4 = 0 →
    (s.dev.port p).bus.usb2 = .enabled → (s.dev.port p).bus.ss = .rxDetect →
    exec (.portSuspend n q i) s = .next (s.after (settlePort p (wakeBus p true false
      ((waitEnt n q i 2 0 (pgWake p s.dev)).modBus p (fun b => { b with
        suspending := true, lgoDue := false
        op := some { opcode := 0x11, slice := n, wq := q, idx := i, waitUsb2 := true, waitSs := false, onUsb2 := true } })))))) ∧
  (∀ (s : State) (n : SliceId) (q : Nat) (i : Dword) (e : WEnt) (p : PortId) (k : Nat), s.Executes n q i 0x11 e →
    s.dev.physPort n (wePort e.dws) = some p.val → portOpCode 0x11 p s.dev = 0 → dwAt e.dws 4 ≠ 0 →
    s.dev.l1Besl n p = some k → (s.dev.port p).bus.usb2 = .enabled → (s.dev.port p).bus.usb2Speed ≠ 2 →
    s.dev.cfg (0x3000 + p) 0x12 ≠ 0 →
    exec (.portSuspend n q i) s = .next (s.after (settlePort p
      ((waitEnt n q i 2 0 (pgWake p s.dev)).modBus p (fun b => { b with
        suspending := true, lpm := true, lpmDue := some k
        op := some { opcode := 0x11, slice := n, wq := q, idx := i, waitUsb2 := true, onUsb2 := true } }))))) ∧
  (∀ (s : State) (n : SliceId) (q : Nat) (i : Dword) (e : WEnt) (p : Nat), s.Executes n q i 0x12 e →
    s.dev.physPort n (wePort e.dws) = some p → portOpCode 0x12 p s.dev = 0 →
    (s.dev.port p).bus.usb2 = .disconnected → (s.dev.port p).bus.ss = .u0 →
    exec (.portResume n q i) s = .next (s.after (finishWe n q i cOk { r0 := 4 } (pgWake p s.dev)))) ∧
  (∀ (s : State) (n : SliceId) (q : Nat) (i : Dword) (e : WEnt) (p : PortId), s.Executes n q i 0x12 e →
    s.dev.physPort n (wePort e.dws) = some p.val → portOpCode 0x12 p s.dev = 0 →
    (s.dev.port p).bus.usb2 = .suspended → (s.dev.port p).bus.ss = .rxDetect →
    exec (.portResume n q i) s = .next (s.after (emit (.signal p .usb2 .kDrive)
      (((waitEnt n q i 2 0 (pgWake p s.dev)).modBus p (fun b => { b with
        wakeLate := false
        op := some { opcode := 0x12, slice := n, wq := q, idx := i, waitUsb2 := true, onUsb2 := true } })).modBus p (fun b => { b with
          usb2 := .resuming, wakeFirst := false }))))) ∧
  (∀ (s : State) (n : SliceId) (q : Nat) (i : Dword) (e : WEnt) (p : Nat), s.Executes n q i 0x13 e →
    s.dev.physPort n (wePort e.dws) = some p → portOpCode 0x13 p s.dev = 0 → (s.dev.port p).tc.source = true →
    exec (.portPowerCycle n q i) s = .next (s.afterPd (tcDisable p 3 cDetached ((waitEnt n q i 2 0 (pgWake p s.dev)).modPort p (fun x => { x with
      bus := { x.bus with op := some { opcode := 0x13, slice := n, wq := q, idx := i, offTime := bitsOf (dwAt e.dws 4) 15 0 } }
      tc := { x.tc with offTimeHold := true } }))))) ∧
  (∀ (s : State) (n : SliceId) (q : Nat) (i : Dword) (e : WEnt) (p : Nat), s.Executes n q i 0x14 e →
    s.dev.physPort n (wePort e.dws) = some p → pdCode s.dev p e.dws = none →
    bitsOf (dwAt e.dws 4) 3 0 ≠ 4 → bitsOf (dwAt e.dws 4) 3 0 ≠ 5 →
    exec (.pdRequest n q i) s = .next (s.afterPd ((waitEnt n q i 2 0 s.dev).modSeq p (fun y => { y with
      req := some {
        action := bitsOf (dwAt e.dws 4) 3 0, slice := n, wq := q, idx := i
        mv := 50 * bitsOf (dwAt e.dws 5) 15 0, ma := 10 * bitsOf (dwAt e.dws 5) 31 16 } })))) ∧
  (∀ (s : State) (n : SliceId) (q : Nat) (i : Dword) (e : WEnt) (p : Nat) (c : Nat × Nat), s.Executes n q i 0x14 e →
    s.dev.physPort n (wePort e.dws) = some p → pdCode s.dev p e.dws = some c →
    exec (.pdRequest n q i) s = .next (s.afterPd (finishWe n q i c.1 (pdResult s.dev p c.2) s.dev)))

/-- USB2_TRANSACTION_RESPONSE, PERIODIC_TRANSACTION_RESPONSE, SPLIT_RESPONSE, TRANSACTION_TIMEOUT, NONPERIODIC_TURN,
REPOLL_INTERVAL_EXPIRY, PORT_BABBLE, NRDY_RECEIVED, ERDY_RECEIVED (R159, R162, R165, R168, R170 to R172, R174, R176, R178, R179). -/
def Obligations.BusTransactionRowsComplete : Prop :=
  (∀ (s : State) (p : PortId) (h e sl g : Nat) (x : Xfer) (bytes : List Byte), s.OnPort p h e →
    let n := s.dev.owner p
    let go := settlePort p
    (s.dev.ep n h e).xfer = some x → (s.dev.ep n h e).service = true → (s.dev.ep n h e).mode.periodic = false →
    (x.isSetup = false → x.dirIn = true →
      exec (.usb2TransactionResponse p h e (.data true bytes) sl) s = .next (s.after
        (go (npData n h e sl bytes (arrivedIn n h bytes.length 1 s.dev))))) ∧
    exec (.usb2TransactionResponse p h e (.ack g) sl) s = .next (s.after (go (npAck n h e false g s.dev))) ∧
    (x.isSetup = false → x.dirIn = true →
      exec (.usb2TransactionResponse p h e .nak sl) s = .next (s.after (go (turnOver n h e
        ((s.dev.modCnt (s.dev.handle n h).port (fun c => { c with naks := c.naks + 1 })).modEpBus n h e (fun b =>
          { b with
            errors := 0, waiting := true, naks := if 63 ≤ b.naks then 0 else b.naks + 1
            level := if 63 ≤ b.naks then min 6 (b.level + 1) else b.level })))))) ∧
    exec (.usb2TransactionResponse p h e .stall sl) s = .next (s.after (go (turnOver n h e (endHalting n h e 0x07 none
      (s.dev.modEpBus n h e (fun b => { b with errors := 0, csplit := false })))))) ∧
    exec (.usb2TransactionResponse p h e .crcError sl) s = .next (s.after (go (npError n h e false s.dev)))) ∧
  (∀ (s : State) (p : PortId) (h e : Nat) (x : Xfer) (bytes : List Byte) (pid : DPid), s.OnPort p h e →
    let n := s.dev.owner p
    let go := fun d => settlePort p (nextPer p true (nextPer p false d))
    let d := answered p h e s.dev
    let y := s.dev.ep n h e
    y.xfer = some x → y.service = true → y.mode.periodic = true → y.runIn = false →
    (x.isIn = true → s.dev.highBand n h e = false ∨ x.pidOk y.cfg.mult pid = true →
      exec (.periodicTransactionResponse p h e (.data true pid bytes) 0) s = .next (s.after
        (go (perData n h e bytes pid 0 false (arrivedIn n h bytes.length (max 1 (cdiv bytes.length y.cfg.maxPacket)) d))))) ∧
    (x.isIn = false → y.mode ≠ .iso → exec (.periodicTransactionResponse p h e .ack 0) s = .next (s.after
      (go (perSent n h e d)))) ∧
    (x.isIn = false → y.mode = .iso → exec (.periodicTransactionResponse p h e .sent 0) s = .next (s.after
      (go (perSent n h e d)))) ∧
    (y.mode ≠ .iso → exec (.periodicTransactionResponse p h e .stall 0) s = .next (s.after
      (go (endHalting n h e 0x07 none d)))) ∧
    exec (.periodicTransactionResponse p h e .busError 0) s = .next (s.after (go (perError n h e false d)))) ∧
  (∀ (s : State) (p : PortId) (h e sl : Nat) (x : Xfer) (bytes : List Byte), s.OnPort p h e →
    let n := s.dev.owner p
    let go := fun d => settlePort p (nextPer p true (nextPer p false d))
    let d := answered p h e s.dev
    (s.dev.ep n h e).xfer = some x → (s.dev.ep n h e).service = true → s.dev.viaTt n h = true →
    ((s.dev.ep n h e).mode.periodic = false → (s.dev.ep n h e).bus.csplit = false →
      exec (.splitResponse p h e .ack) s = .next (s.after (go (turnOver n h e
        (d.modEpBus n h e (fun b => { b with errors := 0, csplit := true })))))) ∧
    ((s.dev.ep n h e).mode.periodic = false → (s.dev.ep n h e).bus.csplit = true →
      exec (.splitResponse p h e .ack) s = .next (s.after (go (npAck n h e false 1 d))) ∧
      exec (.splitResponse p h e .err) s = .next (s.after (go (npError n h e true d)))) ∧
    ((s.dev.ep n h e).mode.periodic = true → (s.dev.ep n h e).runIn = false → x.isIn = true →
      exec (.splitResponse p h e (.data true bytes sl)) s = .next (s.after (go (perData n h e bytes .data0 sl false
        ((arrivedIn n h bytes.length 1 d).modXfer n h e (fun x => { x with svcTxn := 1 })))))) ∧
    ((s.dev.ep n h e).mode.periodic = true → (s.dev.ep n h e).runIn = false →
      exec (.splitResponse p h e .err) s = .next (s.after (go (perError n h e true d))))) ∧
  (∀ (s : State) (p : PortId) (h e : Nat) (x : Xfer), s.OnPort p h e →
    let n := s.dev.owner p
    let go := fun d => settlePort p (nextPer p true (nextPer p false d))
    let d := answered p h e s.dev
    (s.dev.ep n h e).xfer = some x → (s.dev.ep n h e).service = true → (s.dev.ep n h e).runIn = false → s.dev.viaTt n h = false →
    exec (.transactionTimeout p h e) s = .next (s.after
      (go (if (s.dev.ep n h e).mode.periodic then perError n h e false d else npError n h e false d)))) ∧
  (∀ (s : State) (p : PortId) (b : Bus) (x : Nat × Nat) (z : Xfer),
    let n := s.dev.owner p
    let d := useCtx n x.1 x.2 s.dev
    n < s.dev.S → s.dev.perBusy p (b == .ss) = false →
    (∀ y ∈ s.dev.busEps n p (b == .ss), (s.dev.ep n y.1 y.2).service = false ∨ (s.dev.ep n y.1 y.2).mode.periodic = true) →
    ((s.dev.busEps n p (b == .ss)).filter (fun x => s.dev.eligible n x.1 x.2)).find? (fun x => (s.dev.ep n x.1 x.2).bus.pkts != 0) =
      some x →
    (d.ep n x.1 x.2).xfer = some z → (d.ep n x.1 x.2).reload = false →
    d.perBusy (d.handle n x.1).port (d.onSs n x.1) = false → d.fits n x.1 x.2 z = true → d.eligible n x.1 x.2 = true →
    exec (.nonperiodicTurn p b) s = .next (s.after (issueTxn n x.1 x.2 d))) ∧
  (∀ (s : State) (p : PortId) (h e : Nat), s.OnPort p h e →
    exec (.repollIntervalExpiry p h e) s = .next (s.after
      (s.dev.modEpBus (s.dev.owner p) h e (fun b => { b with waiting := false })))) ∧
  (∀ (s : State) (p : PortId) (h e : Nat), (s.dev.port p).bus.usb2 = .enabled → s.dev.S ≤ s.dev.owner p →
    exec (.portBabble p h e) s = .next (s.after (settlePort p (portEvent p { bits := 2, cause := 5 }
      (answered p h e ((s.dev.modCnt p (fun c => { c with babble := c.babble + 1 })).modBus p (fun b => { b with usb2 := .disabled }))))))) ∧
  (∀ (s : State) (p : PortId) (h e st : Nat), s.OnPort p h e →
    let n := s.dev.owner p
    speedSs (s.dev.handle n h).speed = true → (s.dev.ep n h e).mode ≠ .iso → (s.dev.ep n h e).mode.periodic = true →
    exec (.nrdyReceived p h e st) s = .next (s.after (settlePort p (nextPer p true (nextPer p false (perRest n h e false
      ((answered p h e s.dev).modEpBus n h e (fun b => { b with parked := true, errors := 0 })))))))) ∧
  (∀ (s : State) (p : PortId) (h e st : Nat), s.OnPort p h e →
    let n := s.dev.owner p
    speedSs (s.dev.handle n h).speed = true → ((s.dev.handle n h).ep e).acts = true → ((s.dev.handle n h).ep e).cfg.streams = false →
    exec (.erdyReceived p h e st) s = .next (s.after
      (s.dev.modEpBus n h e (fun b => { b with parked := false, erdySeen := true, granted := max 1 b.granted })))) ∧
  (∀ (s : State) (p : PortId) (h e st : Nat), s.dev.S ≤ s.dev.owner p →
    exec (.erdyReceived p h e st) s = .next (s.after (s.dev.modCnt p (fun c => { c with strayErdy := c.strayErdy + 1 }))))

/-- PULLUP_SEEN, CONNECT_DEBOUNCE_END, USB2_DISCONNECT, RESET_DRIVE_END, RECOVERY_END, RESUME_DRIVE_END, SUSPEND_REACHED,
PARTNER_K_DETECTED, LPM_ANSWER (R186, R188, R189, R191, R192, R195, R198 to R201): where the row applies, the whole next state. -/
def Obligations.Usb2BusRowsComplete : Prop :=
  (∀ (s : State) (p : PortId) (low : Bool), (s.dev.port p).bus.usb2 = .disconnected →
    exec (.pullupSeen p low) s = .next (s.after (pgWake p (s.dev.modBus p (fun b => { b with debounce := true, lowSpeed := low }))))) ∧
  (∀ (s : State) (p : PortId), (s.dev.port p).bus.usb2 = .disconnected → (s.dev.port p).bus.debounce = true →
    exec (.connectDebounceEnd p) s = .next (s.after (portEvent p { bits := 1 } (s.dev.modBus p (fun b => { b with
      usb2 := .connected, debounce := false, usb2Speed := if b.lowSpeed then 2 else 1 }))))) ∧
  (∀ (s : State) (p : PortId), usb2Conn (s.dev.port p).bus.usb2 = true →
    exec (.usb2Disconnect p) s = .next (s.after (cutPortOp p true false
      (portEvent p { bits := 1 + leaveBits2 (s.dev.port p).bus.usb2, cause := 7, detach := true }
        (detachHandles p (some false) cDetached (s.dev.modBus p (fun b => { b with
          usb2 := .disconnected, usb2Speed := 0, recUsb2 := false, ownReset := false, l1Exit := false, debounce := false
          wakeFirst := false, wakeLate := false }))))))) ∧
  (∀ (s : State) (p : PortId) (chirped : Bool), (s.dev.port p).bus.usb2 = .resetting →
    exec (.resetDriveEnd p chirped) s = .next (s.after (portEvent p { bits := 2 } (s.dev.modBus p (fun b => { b with
      usb2 := .enabled, recUsb2 := true, usb2Speed := if b.lowSpeed then 2 else if chirped then 3 else 1 }))))) ∧
  (∀ (s : State) (p : PortId) (o : PortOp), (s.dev.port p).bus.recUsb2 = true → (s.dev.port p).bus.ownReset = false →
    (s.dev.port p).bus.usb2 ≠ .resuming → (s.dev.port p).bus.op = some o → o.opcode = 0x10 → o.waitUsb2 = true →
    exec (.recoveryEnd p .usb2) s = .next (s.after (opBusDone p false 0 (s.dev.modBus p (fun b => { b with
      recUsb2 := false, ownReset := false }))))) ∧
  (∀ (s : State) (p : PortId), (s.dev.port p).bus.recUsb2 = true → (s.dev.port p).bus.usb2 = .resuming →
    (s.dev.port p).bus.op = none →
    exec (.recoveryEnd p .usb2) s = .next (s.after (portEvent p { bits := if (s.dev.port p).bus.wakeFirst then 12 else 4 }
      (s.dev.modBus p (fun b => { b with usb2 := .enabled, recUsb2 := false, wakeFirst := false }))))) ∧
  (∀ (s : State) (p : PortId) (o : PortOp), (s.dev.port p).bus.recUsb2 = true → (s.dev.port p).bus.usb2 = .resuming →
    (s.dev.port p).bus.op = some o → o.opcode = 0x12 → o.waitUsb2 = true →
    exec (.recoveryEnd p .usb2) s = .next (s.after (opBusDone p false 8
      (portEvent p { bits := if (s.dev.port p).bus.wakeFirst then 12 else 4 }
        (s.dev.modBus p (fun b => { b with usb2 := .enabled, recUsb2 := false, wakeFirst := false })))))) ∧
  (∀ (s : State) (p : PortId), (s.dev.port p).bus.ss = .recovery → (s.dev.port p).bus.rebus = false →
    exec (.recoveryEnd p .ss) s = .next (s.after (settlePort p (s.dev.modBus p (fun b => { b with
      ss := .u0, u3Fails := 0, rebus := false, ssWake := false }))))) ∧
  (∀ (s : State) (p : PortId), (s.dev.port p).bus.usb2 = .resuming → (s.dev.port p).bus.recUsb2 = false →
    exec (.resumeDriveEnd p) s = .next (s.after ((emit (.signal p .usb2 .eop) s.dev).modBus p (fun b => { b with recUsb2 := true })))) ∧
  (∀ (s : State) (p : PortId) (o : PortOp), (s.dev.port p).bus.op = some o → o.opcode = 0x11 → o.waitUsb2 = true →
    (s.dev.port p).bus.lpm = false → (s.dev.port p).bus.usb2 = .enabled →
    exec (.suspendReached p) s = .next (s.after (opBusDone p false 0 (portEvent p { bits := 4 }
      (s.dev.modBus p (fun b => { b with usb2 := .suspended })))))) ∧
  (∀ (s : State) (p : PortId) (w : Bool), (s.dev.port p).bus.usb2 = .suspended →
    exec (.partnerKDetected p w) s = .next (s.after (pgWake p (emit (.signal p .usb2 .kDrive)
      (s.dev.modBus p (fun b => { b with usb2 := .resuming, wakeFirst := true, kWithin1ms := w })))))) ∧
  (∀ (s : State) (p : PortId), (s.dev.port p).bus.lpm = true → (s.dev.port p).bus.lpmDue = none →
    exec (.lpmAnswer p .ack) s = .next (s.after (finishPortOp p cOk 1 (portEvent p { bits := 16 }
      (s.dev.modBus p (fun b => { b with usb2 := .l1 }))))) ∧
    exec (.lpmAnswer p .nyet) s = .next (s.after (finishPortOp p cNotPermitted 2 s.dev)) ∧
    exec (.lpmAnswer p .stall) s = .next (s.after (finishPortOp p 0x07 3 s.dev)) ∧
    exec (.lpmAnswer p .none) s = .next (s.after (finishPortOp p cNotPermitted 4 s.dev)))

/-- SS_TERMINATIONS_DETECTED, RX_DETECT_PROBE, SS_TRAINING_COMPLETE, POLLING_TIMEOUT, U1_U2_INACTIVITY_TIMEOUT, PARTNER_LGO,
PARTNER_U1_U2_EXIT, LAU_RECEIVED, U3_ENTRY_TIMEOUT, U3_EXIT_LFPS, SS_RECOVERY_FAILED, SS_TERMINATIONS_LOST, SS_RESET_END,
FUNCTION_WAKE_RECEIVED (R187, R189 to R191, R198, R200, R202): where the row applies, the whole next state. -/
def Obligations.SuperSpeedBusRowsComplete : Prop :=
  (∀ (s : State) (p : PortId), (s.dev.port p).bus.ss = .rxDetect →
    exec (.ssTerminationsDetected p) s = .next (s.after (pgWake p (s.dev.modBus p (fun b => { b with ss := .polling, probes := 0 }))))) ∧
  (∀ (s : State) (p : PortId), (s.dev.port p).bus.ss = .rxDetect → (s.dev.port p).bus.probes < 7 →
    exec (.rxDetectProbe p) s = .next (s.after (emit (.signal p .ss .probe)
      (s.dev.modBus p (fun b => { b with probes := b.probes + 1 }))))) ∧
  (∀ (s : State) (p : PortId), (s.dev.port p).bus.ss = .rxDetect → 7 ≤ (s.dev.port p).bus.probes →
    exec (.rxDetectProbe p) s = .next (s.after (portEvent p { bits := 32 }
      (s.dev.modBus p (fun b => { b with ss := .disabled, probes := 0 }))))) ∧
  (∀ (s : State) (p : PortId) (gen2 : Bool), (s.dev.port p).bus.ss = .polling →
    exec (.ssTrainingComplete p gen2) s = .next (s.after (portEvent p { bits := 1 }
      (s.dev.modBus p (fun b => { b with ss := .u0, ssSpeed := if gen2 then 5 else 4, trainFails := 0 }))))) ∧
  (∀ (s : State) (p : PortId), (s.dev.port p).bus.ss = .polling → (s.dev.port p).bus.trainFails < 2 →
    exec (.pollingTimeout p) s = .next (s.after
      (s.dev.modBus p (fun b => { b with ss := .rxDetect, trainFails := b.trainFails + 1, probes := 0 })))) ∧
  (∀ (s : State) (p : PortId), (s.dev.port p).bus.ss = .polling → 2 ≤ (s.dev.port p).bus.trainFails →
    exec (.pollingTimeout p) s = .next (s.after (portEvent p { bits := 32 }
      (s.dev.modBus p (fun b => { b with ss := .disabled, trainFails := 0 }))))) ∧
  (∀ (s : State) (p : PortId) (u2 : Bool), (s.dev.port p).bus.ss = .u0 → s.dev.uTimeout p u2 ≠ 0 →
    exec (.u1U2InactivityTimeout p u2) s = .next (s.after (emit (.signal p .ss (if u2 then .lgoU2 else .lgoU1))
      (s.dev.modBus p (fun b => { b with ss := if u2 then .u2 else .u1 })))) ∧
    exec (.partnerLgo p u2) s = .next (s.after (emit (.signal p .ss .lau)
      (s.dev.modBus p (fun b => { b with ss := if u2 then .u2 else .u1 }))))) ∧
  (∀ (s : State) (p : PortId) (u2 : Bool), (s.dev.port p).bus.ss = .u0 → s.dev.uTimeout p u2 = 0 →
    exec (.u1U2InactivityTimeout p u2) s = .next (s.after s.dev) ∧
    exec (.partnerLgo p u2) s = .next (s.after (emit (.signal p .ss .lxu) s.dev))) ∧
  (∀ (s : State) (p : PortId), (s.dev.port p).bus.ss = .u1 ∨ (s.dev.port p).bus.ss = .u2 →
    exec (.partnerU1U2Exit p) s = .next (s.after (s.dev.modBus p (fun b => { b with ss := .recovery })))) ∧
  (∀ (s : State) (p : PortId), (s.dev.port p).bus.lgoU3 = true →
    exec (.lauReceived p) s = .next (s.after (opBusDone p true 0 (portEvent p { bits := 4 }
      (s.dev.modBus p (fun b => { b with ss := .u3, lgoU3 := false }))))) ∧
    exec (.u3EntryTimeout p) s = .next (s.after (opBusDone p true 1
      (s.dev.modBus p (fun b => { b with lgoU3 := false }))))) ∧
  (∀ (s : State) (p : PortId) (partner : Bool), (s.dev.port p).bus.ss = .u3 → (s.dev.port p).bus.op = none →
    exec (.u3ExitLfps p partner) s = .next (s.after
      ((if partner then pgWake p s.dev else s.dev).modBus p (fun b => { b with ss := .recovery, rebus := true, ssWake := partner })))) ∧
  (∀ (s : State) (p : PortId) (o : PortOp), (s.dev.port p).bus.ss = .u3 → (s.dev.port p).bus.op = some o →
    o.opcode = 0x12 → o.waitSs = true →
    exec (.u3ExitLfps p true) s = .next (s.after
      ((pgWake p s.dev).modBus p (fun b => { b with
        ss := .recovery, rebus := true, ssWake := true, op := some { o with flags := o.flags ||| 2 } })))) ∧
  (∀ (s : State) (p : PortId), (s.dev.port p).bus.ss = .recovery → (s.dev.port p).bus.rebus = false →
    (s.dev.port p).bus.op = none → exec (.ssRecoveryFailed p) s = .next (s.after (portEvent p { bits := 33, cause := 6, detach := true }
      (detachHandles p (some true) cDetached (s.dev.modBus p (fun b => { b with
        ss := .inactive, ssSpeed := 0, recSs := false, rebus := false, ssWake := false, u3Fails := 0, lgoU3 := false })))))) ∧
  (∀ (s : State) (p : PortId), (s.dev.port p).bus.ss = .u3 → (s.dev.port p).bus.u3Fails = 0 →
    (∃ o, (s.dev.port p).bus.op = some o ∧ o.opcode = 0x12 ∧ o.waitSs = true) →
    exec (.ssRecoveryFailed p) s = .next (s.after (emit (.signal p .ss .exitLfps)
      (s.dev.modBus p (fun b => { b with u3Fails := 1 }))))) ∧
  (∀ (s : State) (p : PortId), (s.dev.port p).bus.ss = .polling → (s.dev.port p).bus.startReset = false →
    (s.dev.port p).bus.op = none →
    exec (.ssTerminationsLost p) s = .next (s.after (s.dev.modBus p (fun b => { b with
      ss := .rxDetect, ssSpeed := 0, probes := 0, recSs := false, startReset := false, rebus := false, ssWake := false, lgoU3 := false })))) ∧
  (∀ (s : State) (p : PortId), (s.dev.port p).bus.ss = .u0 → (s.dev.port p).bus.startReset = false → (s.dev.port p).bus.rebus = false →
    exec (.ssTerminationsLost p) s = .next (s.after (cutPortOp p false true
      (portEvent p { bits := 1, cause := 7, detach := true } (detachHandles p (some true) cDetached
        (s.dev.modBus p (fun b => { b with
          ss := .rxDetect, ssSpeed := 0, probes := 0, recSs := false, startReset := false, rebus := false, ssWake := false, lgoU3 := false }))))))) ∧
  (∀ (s : State) (p : PortId) (gen2 : Bool), (s.dev.port p).bus.ss = .resetting → (s.dev.port p).bus.startReset = false →
    exec (.ssResetEnd p gen2) s = .next (s.after (s.dev.modBus p (fun b => { b with
      ss := .u0, ssSpeed := if gen2 then 5 else 4, recSs := true, startReset := false })))) ∧
  (∀ (s : State) (p : PortId) (intf : Byte), (s.dev.port p).bus.ss = .u0 →
    exec (.functionWakeReceived p intf) s = .next (s.after (portEvent p { bits := 64 }
      (s.dev.modBus p (fun b => { b with funcIntf := intf })))))

/-- CC_CHANGE, TDRP_TOGGLE, TCCDEBOUNCE_EXPIRY, TPDDEBOUNCE_EXPIRY, TTRYCCDEBOUNCE_EXPIRY, TDRPTRY_EXPIRY, TTRYTIMEOUT_EXPIRY,
TERRORRECOVERY_EXPIRY, VSNS_SAMPLE, VDD_CC_RISE (R302 to R305, R311, R313, R462): where the row applies, the whole next state. -/
def Obligations.TypeCRowsComplete : Prop :=
  (∀ (s : State) (p : PortId) (a b : CcTerm), (s.dev.port p).tc.st = .unattachedSnk → isRp a = true ∨ isRp b = true →
    (s.dev.port p).seq.wait = none → s.dev.gesso.level ≠ 2 →
    exec (.ccChange p a b) s = .next (s.afterPd (tcGo p .attachWaitSnk
      (s.dev.modTc p (fun x => { x with cc1 := a, cc2 := b, debounced := false }))))) ∧
  (∀ (s : State) (p : PortId), (s.dev.port p).tc.st = .attachWaitSrc → (s.dev.port p).seq.wait = none → s.dev.gesso.level ≠ 2 →
    exec (.ccChange p .opened .opened) s = .next (s.afterPd (tcGo p .unattachedSnk
      (s.dev.modTc p (fun x => { x with cc1 := .opened, cc2 := .opened, debounced := false }))))) ∧
  (∀ (s : State) (p : PortId), s.dev.gesso.level = 0 → (s.dev.port p).tc.st = .unattachedSnk →
    exec (.tdrpToggle p) s = .next (s.afterPd (tcNow p (tcGo p .unattachedSrc s.dev)))) ∧
  (∀ (s : State) (p : PortId), s.dev.gesso.level = 0 → (s.dev.port p).tc.st = .unattachedSrc →
    exec (.tdrpToggle p) s = .next (s.afterPd (tcNow p (tcGo p .unattachedSnk s.dev)))) ∧
  (∀ (s : State) (p : PortId), (s.dev.port p).tc.st = .attachWaitSrc → (s.dev.port p).tc.oneRd = true → (s.dev.port p).tc.vbusMv < 800 →
    s.dev.cfg (0x3100 + p) 1 ≠ 1 →
    exec (.tccdebounceExpiry p) s = .next (s.afterPd (enterSrc p (s.dev.modTc p (fun x => { x with debounced := true }))))) ∧
  (∀ (s : State) (p : PortId), (s.dev.port p).tc.st = .attachWaitSnk → (s.dev.port p).tc.bothOpen = true →
    exec (.tpddebounceExpiry p) s = .next (s.afterPd (tcGo p .unattachedSnk s.dev))) ∧
  (∀ (s : State) (p : PortId), (s.dev.port p).tc.st = .attachedSrc → (s.dev.port p).tc.attached = true →
    (s.dev.port p).tc.attachedCc = .opened →
    exec (.tpddebounceExpiry p) s = .next (s.afterPd (tcDetach p s.dev))) ∧
  (∀ (s : State) (p : PortId), (s.dev.port p).tc.st = .trySrc ∨ (s.dev.port p).tc.st = .tryWaitSrc → (s.dev.port p).tc.oneRd = true →
    exec (.ttryccdebounceExpiry p) s = .next (s.afterPd (enterSrc p s.dev))) ∧
  (∀ (s : State) (p : PortId), (s.dev.port p).tc.st = .trySrc → (s.dev.port p).tc.anyRd = false →
    exec (.tdrptryExpiry p) s = .next (s.afterPd (tcGo p .tryWaitSnk s.dev))) ∧
  (∀ (s : State) (p : PortId), (s.dev.port p).tc.st = .trySnk →
    exec (.tdrptryExpiry p) s = .next (s.afterPd (s.dev.modTc p (fun x => { x with tdrpTry := true })))) ∧
  (∀ (s : State) (p : PortId), (s.dev.port p).tc.st = .trySrc →
    exec (.ttrytimeoutExpiry p) s = .next (s.afterPd (tcGo p .tryWaitSnk s.dev))) ∧
  (∀ (s : State) (p : PortId), (s.dev.port p).tc.st = .errorRecovery →
    exec (.terrorrecoveryExpiry p) s = .next (s.afterPd (tcNow p (tcGo p .unattachedSnk s.dev)))) ∧
  (∀ (s : State) (p : PortId) (code : BitVec 12),
    exec (.vsnsSample p code) s = .next (s.afterPd (tcHeld p (vbusStep p (vbusDetach p (code.toNat = 4095) (vbusLow p
      (s.dev.modTc p (fun x => { x with
        vbusMv := code.toNat * 52800 / 4096, vbusSinceCc := x.vbusSinceCc && decide (4000 < code.toNat * 52800 / 4096) })))))))) ∧
  (∀ (s : State) (p : PortId), (s.dev.port p).tc.st = .disabled →
    exec (.vddCcRise p) s = .next (s.afterPd (tryArm p (s.dev.modTc p (fun x => { x with vbusSinceCc := true })))))

/-- PD_MESSAGE_RECEIVED, PD_GOODCRC_RECEIVED, TRECEIVE_EXPIRY, HARD_RESET_RECEIVED, CABLE_RESET_RECEIVED, TSINKTX_EXPIRY,
PPE_AUTO_ANSWER, TCHUNKSENDERRESPONSE_EXPIRY (R308 to R312, R315, R324, R365): where the row applies, the whole next state. -/
def Obligations.PdProtocolRowsComplete : Prop :=
  (∀ (s : State) (p : PortId) (rev3 : Bool) (id : Fin 8) (m : PdMsg), (s.dev.port p).tc.attached = true → s.dev.pdOn p = true →
    s.dev.policyUp p = true → (s.dev.port p).seq.pendAns = [] → m ≠ .softReset → m ≠ .drSwap →
    (∀ c, m ≠ .bist c) → tabFind (s.dev.port p).seq.rxId 0 ≠ some id.val →
    exec (.pdMessageReceived p .sop rev3 id m) s = .next (s.afterPd (policyIn p m (cancelWait p m
      (((emit (.goodCrc p .sop id) s.dev).modSeq p (fun y => { y with rxId := tabPut y.rxId 0 id.val })).modPd p
        (fun y => { y with partnerRev := if rev3 then 2 else 1 })))))) ∧
  (∀ (s : State) (p : PortId) (rev3 : Bool) (id : Fin 8) (c : Bool), (s.dev.port p).tc.attached = true → s.dev.pdOn p = true →
    (s.dev.port p).seq.pendAns.length < 4 → tabFind (s.dev.port p).seq.rxId 0 ≠ some id.val →
    let seen := ((emit (.goodCrc p .sop id) s.dev).modSeq p (fun y => { y with rxId := tabPut y.rxId 0 id.val })).modPd p
      (fun y => { y with partnerRev := if rev3 then 2 else 1 })
    exec (.pdMessageReceived p .sop rev3 id (.bist c)) s = .next (s.afterPd (bistIn p c (cancelWait p (.bist c) seen))) ∧
    exec (.pdMessageReceived p .sop rev3 id .drSwap) s = .next (s.afterPd (pdTx p .sop .reject (cancelWait p .drSwap seen)))) ∧
  (∀ (s : State) (p : PortId) (rev3 : Bool) (id : Fin 8) (m : PdMsg), (s.dev.port p).tc.attached = true → s.dev.pdOn p = true →
    s.dev.policyUp p = false → (s.dev.port p).seq.pendAns.length < 4 → m ≠ .softReset → m ≠ .drSwap →
    (∀ c, m ≠ .bist c) → s.dev.deviceFull (halfOfPort p) = false → tabFind (s.dev.port p).seq.rxId 0 ≠ some id.val →
    (s.dev.port p).seq.wait = none →
    exec (.pdMessageReceived p .sop rev3 id m) s = .next (s.afterPd
      ((((emit (.goodCrc p .sop id) s.dev).modSeq p (fun y => { y with rxId := tabPut y.rxId 0 id.val })).modPd p
        (fun y => { y with partnerRev := if rev3 then 2 else 1 })).modSeq p (fun y => { y with pendAns := y.pendAns ++ [m] })))) ∧
  (∀ (s : State) (p : PortId) (rev3 : Bool) (id : Fin 8) (m : PdMsg), (s.dev.port p).tc.attached = true → s.dev.pdOn p = true →
    (s.dev.port p).seq.pendAns.length < 4 → m ≠ .softReset → tabFind (s.dev.port p).seq.rxId 0 = some id.val →
    exec (.pdMessageReceived p .sop rev3 id m) s = .next (s.afterPd (emit (.goodCrc p .sop id) s.dev))) ∧
  (∀ (s : State) (p : PortId) (rev3 : Bool) (id : Fin 8), (s.dev.port p).tc.attached = true → s.dev.pdOn p = true →
    (s.dev.port p).seq.pendAns.length < 4 →
    exec (.pdMessageReceived p .sop rev3 id .softReset) s = .next (s.afterPd (softResetIn p .sop (emit (.goodCrc p .sop id) s.dev)))) ∧
  (∀ (s : State) (p : PortId) (t : PdTx) (id : Fin 8), (s.dev.port p).seq.tx = some t → t.id = id.val →
    exec (.pdGoodcrcReceived p t.so id) s = .next (s.afterPd (pdSent p t.so t.msg (pdNext p s.dev)))) ∧
  (∀ (s : State) (p : PortId) (t : PdTx), (s.dev.port p).seq.tx = some t → t.retries < 2 →
    exec (.treceiveExpiry p t.so) s = .next (s.afterPd (emit (.pd p t.so t.id t.msg)
      (s.dev.modSeq p (fun x => { x with tx := some { t with retries := t.retries + 1 } }))))) ∧
  (∀ (s : State) (p : PortId) (t : PdTx), (s.dev.port p).seq.tx = some t → 2 ≤ t.retries →
    exec (.treceiveExpiry p t.so) s = .next (s.afterPd (pdNext p (s.dev.modPd p (fun x => { x with txFailed := x.txFailed + 1 }))))) ∧
  (∀ (s : State) (p : PortId), s.dev.pdOn p = true →
    exec (.hardResetReceived p) s = .next (s.afterPd (hardReset p false s.dev))) ∧
  (∀ (s : State) (p : PortId),
    exec (.cableResetReceived p) s = .next (s.afterPd (s.dev.modSeq p (fun x => { x with
      txId := tabPut (tabPut x.txId 1 0) 2 0, rxId := tabDel (tabDel x.rxId 1) 2 })))) ∧
  (∀ (s : State) (p : PortId) (m : PdMsg), (s.dev.port p).seq.wait = some m → (s.dev.port p).tc.source = true →
    exec (.tsinktxExpiry p) s = .next (s.afterPd (pdSend p m (s.dev.modSeq p (fun x => { x with wait := none }))))) ∧
  (∀ (s : State) (p : PortId) (m : PdMsg) (r : List PdMsg), (s.dev.port p).seq.pendAns = m :: r →
    exec (.ppeAutoAnswer p) s = .next (s.afterPd (ppeAnswer p m (s.dev.modSeq p (fun x => { x with pendAns := r }))))) ∧
  (∀ (s : State) (p : PortId),
    exec (.tchunksenderresponseExpiry p) s = .next (s.afterPd (s.dev.modSeq p (fun x => { x with chunks := 0 }))))

/-- TSENDERRESPONSE_EXPIRY, TSRCTRANSITION_EXPIRY, TPSSOURCEOFF_EXPIRY, TPSSOURCEON_EXPIRY, TSWAPSOURCESTART_EXPIRY,
TTYPECSENDSOURCECAP_EXPIRY, TFIRSTSOURCECAP_EXPIRY, TDISCOVERIDENTITY_EXPIRY, TVCONNSOURCEON_EXPIRY, TSINKREQUEST_EXPIRY,
TNORESPONSE_EXPIRY (R306, R307, R314, R321, R324, R325, R329): where the timer runs, the whole next state. -/
def Obligations.PdPolicyTimerRowsComplete : Prop :=
  (∀ (s : State) (p : PortId), (s.dev.port p).seq.expect = .request → (s.dev.port p).pd.contract = true →
    exec (.tsenderresponseExpiry p) s = .next (s.afterPd (hardReset p true s.dev))) ∧
  (∀ (s : State) (p : PortId), (s.dev.port p).seq.expect = .answer ∨ (s.dev.port p).seq.expect = .swapAnswer →
    exec (.tsenderresponseExpiry p) s = .next (s.afterPd (finishPd p cNotPermitted 6
      (s.dev.modSeq p (fun y => { y with expect := .none, swap := .none, newRdo := none }))))) ∧
  (∀ (s : State) (p : PortId), (s.dev.port p).seq.expect = .softAccept →
    exec (.tsenderresponseExpiry p) s = .next (s.afterPd (hardReset p true s.dev))) ∧
  (∀ (s : State) (p : PortId) (r : Rdo), (s.dev.port p).seq.swap = .none → (s.dev.port p).tc.source = true →
    (s.dev.port p).seq.trans = true → (s.dev.port p).seq.newRdo = some r → (s.dev.port p).seq.ramping = false →
    (s.dev.port p).seq.hr = .none →
    exec (.tsrctransitionExpiry p) s = .next (s.afterPd (stageVoltage p (s.dev.port p).seq.newMv
      (s.dev.modSeq p (fun y => { y with ramping := true }))))) ∧
  (∀ (s : State) (p : PortId), (s.dev.port p).seq.swap = .toSourceWaitPsRdy →
    exec (.tpssourceoffExpiry p) s = .next (s.afterPd (errorRecovery p s.dev))) ∧
  (∀ (s : State) (p : PortId), (s.dev.port p).seq.swap = .toSinkWaitPsRdy →
    exec (.tpssourceonExpiry p) s = .next (s.afterPd (errorRecovery p s.dev))) ∧
  (∀ (s : State) (p : PortId), (s.dev.port p).tc.source = true → (s.dev.port p).pd.contract = false →
    (s.dev.port p).pd.capsSent = 0 → (s.dev.port p).seq.idle = true →
    exec (.tswapsourcestartExpiry p) s = .next (s.afterPd (pdSend p (s.dev.capsMsg p) s.dev))) ∧
  (∀ (s : State) (p : PortId), (s.dev.port p).tc.source = true → (s.dev.port p).pd.contract = false →
    (s.dev.port p).seq.trans = false → (s.dev.port p).seq.newRdo = none → (s.dev.port p).seq.tx = none →
    0 < (s.dev.port p).pd.capsSent → (s.dev.port p).pd.capsSent < 50 →
    exec (.ttypecsendsourcecapExpiry p) s = .next (s.afterPd (pdSend p (s.dev.capsMsg p) s.dev))) ∧
  (∀ (s : State) (p : PortId), (s.dev.port p).tc.source = true → (s.dev.port p).pd.contract = false →
    (s.dev.port p).seq.trans = false → (s.dev.port p).seq.newRdo = none → (s.dev.port p).seq.tx = none →
    50 ≤ (s.dev.port p).pd.capsSent →
    exec (.ttypecsendsourcecapExpiry p) s = .next (s.afterPd (s.dev.modPd p (fun y => { y with pdOff := true })))) ∧
  (∀ (s : State) (p : PortId), (s.dev.port p).tc.source = true → (s.dev.port p).tc.busesOut = true →
    (s.dev.port p).pd.contract = false → (s.dev.port p).pd.capsSent = 0 →
    exec (.tfirstsourcecapExpiry p) s = .next (s.afterPd (firstCaps p (s.dev.modPd p (fun y => { y with capsDue := true }))))) ∧
  (∀ (s : State) (p : PortId), (s.dev.port p).pd.vconn = true → (s.dev.port p).pd.idDone = false →
    0 < (s.dev.port p).pd.idAttempts → (s.dev.port p).pd.idAttempts < 3 →
    exec (.tdiscoveridentityExpiry p) s = .next (s.afterPd (pdTx p .sop1 .discoverIdentity
      (s.dev.modPd p (fun x => { x with idAttempts := x.idAttempts + 1 }))))) ∧
  (∀ (s : State) (p : PortId), (s.dev.port p).pd.vconn = true → (s.dev.port p).pd.idDone = false →
    3 ≤ (s.dev.port p).pd.idAttempts →
    exec (.tdiscoveridentityExpiry p) s = .next (s.afterPd (firstCaps p (s.dev.modPd p (fun y => { y with idDone := true }))))) ∧
  (∀ (s : State) (p : PortId), (s.dev.port p).seq.expect = .vconnPsRdy →
    exec (.tvconnsourceonExpiry p) s = .next (s.afterPd (hardReset p true s.dev))) ∧
  (∀ (s : State) (p : PortId) (m : PdMsg), (s.dev.port p).seq.again = some m →
    exec (.tsinkrequestExpiry p) s = .next (s.afterPd (pdBegin p m (s.dev.modSeq p (fun x => { x with
      again := none, req := x.req.map (fun r => { r with repeated := r.repeated || r.begun }) }))))) ∧
  (∀ (s : State) (p : PortId), (s.dev.port p).seq.hr = .sinkWait → (s.dev.port p).pd.hrCount < 2 →
    exec (.tnoresponseExpiry p) s = .next (s.afterPd (s.dev.modSeq p (fun x => { x with hr := .none, trans := false })))) ∧
  (∀ (s : State) (p : PortId), (s.dev.port p).seq.hr = .sinkWait → 2 ≤ (s.dev.port p).pd.hrCount →
    exec (.tnoresponseExpiry p) s = .next (s.afterPd (errorRecovery p
      (s.dev.modSeq p (fun x => { x with hr := .none, trans := false })))))

/-- TPSHARDRESET_EXPIRY, TSRCRECOVER_EXPIRY, THARDRESETCOMPLETE_EXPIRY, TPPSTIMEOUT_EXPIRY, TSOURCEEPRKEEPALIVE_EXPIRY,
TVBUSON_EXPIRY, PPE_RESTART, PPE_RESTART_END, POWER_CYCLE_OFF_END (R204, R314, R318, R324, R327, R387): where the row applies, the whole
next state. -/
def Obligations.PpeTimerRowsComplete : Prop :=
  (∀ (s : State) (p : PortId), (s.dev.port p).seq.hr = .waitOff → (s.dev.port p).tc.source = true →
    exec (.tpshardresetExpiry p) s = .next (s.afterPd (stageOff p (s.dev.modSeq p (fun y => { y with
      hr := if (s.dev.port p).tc.vbusMv < 800 then .recover else .discharge }))))) ∧
  (∀ (s : State) (p : PortId), (s.dev.port p).seq.hr = .recover →
    exec (.tsrcrecoverExpiry p) s = .next (s.afterPd (stageSource p 5000 (limitOf (s.dev.rpMa p))
      (s.dev.modSeq p (fun y => { y with hr := .restore }))))) ∧
  (∀ (s : State) (p : PortId), (s.dev.port p).seq.hr = .signalling →
    exec (.thardresetcompleteExpiry p) s = .next (s.afterPd (finishPd p cOk 0 (s.dev.modSeq p (fun y => { y with
      hr := if (s.dev.port p).isSink then .sinkWait else .waitOff }))))) ∧
  (∀ (s : State) (p : PortId), (s.dev.port p).tc.source = true → (s.dev.port p).pd.onPps = true →
    exec (.tppstimeoutExpiry p) s = .next (s.afterPd (hardReset p true s.dev))) ∧
  (∀ (s : State) (p : PortId), (s.dev.port p).tc.source = true → (s.dev.port p).pd.epr = true →
    exec (.tsourceeprkeepaliveExpiry p) s = .next (s.afterPd (hardReset p true s.dev))) ∧
  (∀ (s : State) (p : PortId), (s.dev.port p).tc.source = true → (s.dev.port p).tc.busesOut = false →
    exec (.tvbusonExpiry p) s = .next (s.afterPd (errorRecovery p s.dev))) ∧
  (∀ (s : State) (p : PortId), (s.dev.port p).tc.ppeHeld = false →
    exec (.ppeRestart p) s = .next (s.afterPd (detachBuses p 8 cDetached 0 (finishPd p cNotPermitted 6
      ((outageStart p (raise { c := 41, inst := p, half := halfOfPort p } s.dev)).modPort p (fun x => { x with
        seq := { req := x.seq.req }, tc := { x.tc with ppeRestart := true }, pd := { x.pd with sinkTxNg := false } })))))) ∧
  (∀ (s : State) (p : PortId), (s.dev.port p).tc.ppeRestart = true → (s.dev.port p).tc.source = false → (s.dev.port p).tc.attached = false →
    (s.dev.port p).isSink = false →
    exec (.ppeRestartEnd p true) s = .next (s.afterPd (tryArm p (outageEnd p (s.dev.modTc p (fun y => { y with ppeRestart := false })))))) ∧
  (∀ (s : State) (p : PortId), (s.dev.port p).tc.ppeRestart = true → (s.dev.port p).tc.ppeFailAt = [] →
    exec (.ppeRestartEnd p false) s = .next (s.afterPd (s.dev.modTc p (fun y => { y with ppeFailAt := [s.dev.now] })))) ∧
  (∀ (s : State) (p : PortId), (s.dev.port p).tc.offTimeHold = true →
    exec (.powerCycleOffEnd p) s = .next (s.afterPd (tryArm p (s.dev.modTc p (fun x => { x with offTimeHold := false })))))

/-- SLICE_CREATE, SLICE_QUIESCE, SLICE_FENCE, SLICE_FREEZE, SLICE_REHOME, SLICE_THAW, SLICE_EXPORT, SLICE_IMPORT, SLICE_RESET,
SLICE_REMOVE, PORT_ASSIGN (R45, R268 to R271, R277, R282, R286, R287, R290, R291, R293). -/
def Obligations.SliceOperationRowsComplete : Prop :=
  (∀ (s : State) (p : Path) (b : OpBlock), s.Owned p → blockUnused 0x40 b = false → opCode 0x40 b s.dev = (0, 0) →
    exec (.sliceCreate p b) s = .next (s.afterPd (opDone p 0x40 b.slice b.tag cOk 0 (b2n (s.dev.homeHalf b.slice == 1)) 0 0
      (setSliceSt b.slice .active ((s.dev.modSlice b.slice (fun x => {
        group := b.hostGroup, pasid := b.pasid, half := s.dev.homeHalf b.slice, lastCode := x.lastCode })).modEng b.slice (fun _ => {})))))) ∧
  (∀ (s : State) (p : Path) (b : OpBlock), s.Owned p → blockUnused 0x41 b = false → opCode 0x41 b s.dev = (0, 0) →
    (s.dev.slice b.slice).st = .active →
    exec (.sliceQuiesce p b) s = .next (s.afterPd (stopAll b.slice (setSliceSt b.slice .quiescing
      ((opStart b.slice p 0x41 b.tag s.dev).modSlice b.slice (fun x => { x with
        deferOps := (s.dev.slice b.slice).deferrable, deferred := (s.dev.slice b.slice).deferrable.length, stall := 0
        qPath := s.dev.pathCode b.slice + 1 })))))) ∧
  (∀ (s : State) (p : Path) (b : OpBlock), s.Owned p → blockUnused 0x41 b = false → opCode 0x41 b s.dev = (0, 0) →
    (s.dev.slice b.slice).st ≠ .active →
    exec (.sliceQuiesce p b) s = .next (s.afterPd (opDone p 0x41 b.slice b.tag cOk 0 0 0 0 s.dev))) ∧
  (∀ (s : State) (p : Path) (b : OpBlock), s.Serves p → blockUnused 0x42 b = false → b.all = false → opCode 0x42 b s.dev = (0, 0) →
    exec (.sliceFence p b) s = .next (s.afterPd (fence [b.slice] (some (.op p false b.slice b.tag))
      (s.dev.modSlice b.slice (fun x => { x with lastCode := 1 }))))) ∧
  (∀ (s : State) (p : Path) (b : OpBlock), s.Serves p → blockUnused 0x42 b = false → b.all = true →
    exec (.sliceFence p b) s = .next (s.afterPd (fence s.dev.notFree (some (.op p true b.slice b.tag))
      (forEach s.dev.notFree (fun n => Dev.modSlice n (fun x => { x with lastCode := 1 })) s.dev)))) ∧
  (∀ (s : State) (p : Path) (b : OpBlock), s.Owned p → blockUnused 0x43 b = false → opCode 0x43 b s.dev = (0, 0) →
    exec (.sliceFreeze p b) s = .next (s.afterPd (freezeOp p b s.dev))) ∧
  (∀ (s : State) (p : Path) (b : OpBlock), s.Owned p → blockUnused 0x44 b = false → opCode 0x44 b s.dev = (0, 0) →
    s.dev.rehomeBad b.slice b.hostGroup = none →
    exec (.sliceRehome p b) s = .next (s.afterPd
      (let d := s.dev.modSlice b.slice (fun x => { x with
         group := b.hostGroup, pasid := b.pasid, vecs := tabMap (fun _ v => { v with mask := true }) x.vecs
         cqs := tabMap (fun _ c => { c with lastF := none, flush := 0 }) x.cqs })
       let d := setObj (0x4000 + b.slice) 0x11 0xFF (d.modEng b.slice (fun x => { x with lost := [] }))
       opDone p 0x44 b.slice b.tag cOk 0 0 0 0 (forEach (d.portsOf b.slice) (fun q d =>
         d.modPort q (fun x => { x with plan := x.plan.map (d.onGroup b.slice b.hostGroup q) })) d)))) ∧
  (∀ (s : State) (p : Path) (b : OpBlock), s.Owned p → blockUnused 0x45 b = false → opCode 0x45 b s.dev = (0, 0) →
    exec (.sliceThaw p b) s = .next (s.afterPd (thawOp p b s.dev))) ∧
  (∀ (s : State) (p : Path) (b : OpBlock) (f : Nat), s.Owned p → blockUnused 0x46 b = false → opCode 0x46 b s.dev = (0, 0) →
    let w := imageWords s.dev b.slice s.dev.start.exportSeq.toNat
    (s.dev.slice b.slice).deferred = 0 → (∀ q ∈ (s.dev.slice b.slice).wqs, q.2.held = []) → b.imageAddr.toNat % 8 = 0 →
    4 * w.length ≤ b.length →
    s.dev.imageLink (s.dev.slice b.slice).group (if s.dev.S = 1 then 0 else (s.dev.slice b.slice).half) = some f →
    exec (.sliceExport p b) s = .next (s.afterPd
      (let a := b.imageAddr.toNat
       let d := (cuts (s.dev.wWrite f) a (4 * w.length)).foldl (fun d c =>
         emit (.memWrite (toFunc f) b.imagePasid c.1 (((dwBytes w).drop (c.1 - a)).take c.2) false) d) s.dev
       opDone p 0x46 b.slice b.tag cOk 0 (4 * w.length) 0 0 { d with start := { d.start with exportSeq := d.start.exportSeq + 1 } }))) ∧
  (∀ (s : State) (p : Path) (b : OpBlock) (image : List Dword), s.Owned p → blockUnused 0x47 b = false → opCode 0x47 b s.dev = (0, 0) →
    (s.dev.imageLink b.hostGroup (if s.dev.S = 1 then 0 else s.dev.homeHalf b.slice)).isSome = true → image ≠ [] →
    imageBad s.dev.S b.length image = none → s.dev.bindBad b.slice b.hostGroup b.pasid true = false →
    exec (.sliceImport p b image) s = .next (s.afterPd
      (let m := parseImage image
       let d := s.dev.modSlice b.slice (fun y => { sliceOfImage m with
         group := b.hostGroup, pasid := b.pasid, half := s.dev.homeHalf b.slice, lastCode := y.lastCode })
       opDone p 0x47 b.slice b.tag cOk 0 (b2n (s.dev.homeHalf b.slice == 1)) 0 0 (setSliceSt b.slice .frozen
         (d.modEng b.slice (fun _ => { handles := handlesOfImage m, cseq := m.held.length })))))) ∧
  (∀ (s : State) (p : Path) (b : OpBlock), s.Owned p → blockUnused 0x48 b = false → opCode 0x48 b s.dev = (0, 0) →
    exec (.sliceReset p b) s = .next (s.afterPd (clearSlice b.slice (setSliceSt b.slice .resetting
      (opStart b.slice p 0x48 b.tag s.dev))))) ∧
  (∀ (s : State) (p : Path) (b : OpBlock), s.Owned p → blockUnused 0x49 b = false → opCode 0x49 b s.dev = (0, 0) →
    exec (.sliceRemove p b) s = .next (s.afterPd (clearSlice b.slice (setSliceSt b.slice .removing
      (opStart b.slice p 0x49 b.tag s.dev))))) ∧
  (∀ (s : State) (p : Path) (b : OpBlock), s.Owned p → blockUnused 0x4A b = false → b.port < 192 → s.dev.S ≤ s.dev.owner b.port →
    b.target < s.dev.S → (s.dev.slice b.target).st = .quiesced → s.dev.S ≤ 192 →
    exec (.portAssign p b) s = .next (s.afterPd
      (let d := s.dev.modPort b.port (fun x => { x with
         owner := b.target, pd := { x.pd with sliceLimit := 0 }
         bus := { x.bus with resetRequired := true, evPending := false, evBits := 0, evDetach := false, evPgOff := false } })
       let d := d.modEng b.target (fun x => { x with
         portsChanged := true, gained := x.gained.filter (fun k => k != b.port) ++ [b.port] })
       opDone p 0x4A b.target b.tag cOk 0
         (b2n (decide (1 < s.dev.S) && halfOfPort b.port != (s.dev.slice b.target).half)) 0 0 (openBuses b.port d))))

/-- QUIESCE_DRAIN_END, QUIESCE_TIMEOUT_EXPIRY, FENCE_BUS_RESET_TIMEOUT, FENCE_REQ, FENCE_REQ_ALL, WASH_END, BANK_POWER_UP_DONE (R209,
R213, R229, R230, R271, R275 to R277, R281, R282). -/
def Obligations.SliceEventRowsComplete : Prop :=
  (∀ (s : State) (n : SliceId), (s.dev.slice n).st = .quiescing ∨ (s.dev.slice n).st = .quiesceStalled →
    let d := drainAll n (stopAll n s.dev)
    let d := ((d.slice n).wqs.filter (fun w => w.2.ciDirty)).foldl (fun d w => writeCi n w.1 d) d
    d.drained n = true →
    exec (.quiesceDrainEnd n) s = .next (s.after (opEnd n cOk 0 0 0 0 (setSliceSt n .quiesced
      ((stopQueues n (holdRest n d)).modSlice n (fun x => { x with stall := 0 })))))) ∧
  (∀ (s : State) (n : SliceId) (busy : Bool), (s.dev.slice n).st = .quiescing →
    exec (.quiesceTimeoutExpiry n busy) s = .next (s.after
      (let c := s.dev.stallCause n busy
       let d := setSliceSt n .quiesceStalled (s.dev.modSlice n (fun x => { x with stall := c }))
       raise { c := 96, inst := n, slice := n, code := c, half := b2n ((d.slice n).half == 1) } d))) ∧
  (∀ (s : State) (p : PortId), (s.dev.port p).fenceWait = true → (s.dev.port p).bus.usb2 = .connected →
    (s.dev.port p).bus.ss = .rxDetect →
    exec (.fenceBusResetTimeout p) s = .next (s.after (fencePortDone p (emit (.signal p .usb2 .se0)
      (s.dev.modBus p (fun b => { b with
        usb2 := .resetting, ownReset := true, recUsb2 := false, l1Exit := false, recSs := false, rebus := false, ssWake := false })))))) ∧
  (∀ (s : State) (f : FuncId) (v : Dword), f.val = s.dev.cfg 0x2002 1 → bitOf v 8 = false → bitsOf v 7 0 < s.dev.S →
    (s.dev.slice (bitsOf v 7 0)).st ≠ .free →
    exec (.fenceReq f v) s = .next (s.afterPd (fence [bitsOf v 7 0] none s.dev))) ∧
  (∀ (s : State) (f : FuncId) (v : Dword), f.val = s.dev.cfg 0x2002 1 → bitOf v 8 = true →
    exec (.fenceReqAll f v) s = .next (s.afterPd (fence s.dev.notFree none s.dev))) ∧
  (∀ (s : State) (h : HalfId) (w : WashItem) (r : List WashItem), (s.dev.half h).wash = w :: r →
    let d := carves w.slice (s.dev.modHalf h (fun x => { x with
      wash := r, used := x.used.erase w.page }))
    exec (.washEnd h) s = .next (s.after (if washClear w.slice d then sliceWashed w.slice d else d))) ∧
  (∀ (s : State) (h : HalfId) (b : Fin 16), (s.dev.half h).bankWait.contains b.val = true →
    let d := s.dev.modHalf h (fun x => { x with
      bankWait := x.bankWait.filter (fun k => k != b.val), bankOn := x.bankOn ||| (1#16 <<< b.val)
      bankReq := x.bankReq &&& ~~~(1#16 <<< b.val) })
    exec (.bankPowerUpDone h b) s = .next (s.after (forEach d.sliceNums carves (journalPut (0x2150 + h) 1 (d.half h).bankReq.toNat d))))

/-- PG_ON, PG_SLEEP, PG_OFF, PG_DRAIN_END, PORT_SLEEP_WAKE, UP_ON, UP_OFF, UP_DRAIN_DEADLINE_EXPIRY, BANK_OFF_REQ (R209, R295, R296,
R432, R433). -/
def Obligations.PowerDomainRowsComplete : Prop :=
  (∀ (s : State) (p : Path) (g : GroupId), s.Owned p → (s.dev.pg g).st ≠ 2 →
    exec (.pgOn p g) s = .next (s.afterPd (accept p (groupOn g 0 (journalPut (0x2120 + g) 1 0 s.dev))))) ∧
  (∀ (s : State) (p : Path) (g : GroupId), s.Owned p → (s.dev.pg g).st ≠ 2 →
    (∀ k < 8, (s.dev.port (8 * g + k)).bus.sleeps = true) →
    exec (.pgSleep p g) s = .next (s.afterPd (accept p (groupOn g 1 (journalPut (0x2120 + g) 1 1 s.dev))))) ∧
  (∀ (s : State) (p : Path) (g : GroupId) (k : Nat), s.Owned p → (s.dev.pg g).st ≠ 2 → k < 8 →
    (s.dev.port (8 * g + k)).bus.sleeps = false →
    exec (.pgSleep p g) s = .next (s.afterPd (refuse p cBusy 0 s.dev))) ∧
  (∀ (s : State) (p : Path) (g : GroupId), s.Owned p → (s.dev.pg g).st ≠ 2 → (s.dev.pg g).st ≠ 3 →
    exec (.pgOff p g) s = .next (s.afterPd (journalPut (0x2120 + g) 1 2
      (s.dev.modPg g (fun x => { x with req := 2, st := 2, path := some p }))))) ∧
  (∀ (s : State) (g : GroupId) (p : Path), (s.dev.pg g).path = some p →
    exec (.pgDrainEnd g) s = .next (s.afterPd (accept p (((
      let d := forEach (List.range 8) (fun k => tcDisable (8 * g + k) 4 cDomainOff) s.dev
      forEach (((d.pg g).frames.drop 1).filter (fun f => frameRank f != 2)) (fun f => emit (.psl g f)) d).modPg g
      (fun x => { x with st := 3, frames := [] })).modPg g (fun x => { x with path := none }))))) ∧
  (∀ (s : State) (g : GroupId), (s.dev.pg g).st = 1 ∨ (s.dev.pg g).st = 4 →
    exec (.portSleepWake g) s = .next (s.afterPd (journalPut (0x2120 + g) 1 0 (s.dev.modPg g (fun x => { x with st := 0, req := 0 }))))) ∧
  (∀ (s : State) (p : Path) (u : FuncId), s.Owned p → (s.dev.func u).upState = 3 →
    exec (.upOn p u) s = .next (s.after (accept p (emit (.linkPower u true) (journalPut (0x2140 + u) 1 0
      (s.dev.modFunc u (fun x => { x with upReq := 0, upState := 0 }))))))) ∧
  (∀ (s : State) (p : Path) (u : FuncId), s.Owned p → (s.dev.func u).upState = 0 → s.dev.groupOf u = none →
    exec (.upOff p u) s = .next (s.after (upPowerDown u (journalPut (0x2140 + u) 1 2
      (s.dev.modFunc u (fun x => { x with upReq := 2, upState := 2, upPath := some p })))))) ∧
  (∀ (s : State) (p : Path) (u : FuncId) (g : Nat), s.Owned p → (s.dev.func u).upState = 0 → s.dev.groupOf u = some g →
    s.dev.hgSt g ≠ .proven → (∃ n ∈ s.dev.boundTo g, (s.dev.slice n).st = .active) →
    exec (.upOff p u) s = .next (s.after (refuse p cNotQuiesced 0 s.dev))) ∧
  (∀ (s : State) (u : FuncId), (s.dev.func u).upState = 2 →
    exec (.upDrainDeadlineExpiry u) s = .next (s.after (upPowerDown u s.dev))) ∧
  (∀ (s : State) (p : Path) (h : HalfId) (mask : BitVec 16), s.Owned p →
    (∀ b < 16, bitOf mask b = true → (s.dev.half h).inBank b = 0) →
    exec (.bankOffReq p h mask) s = .next (s.after
      (let d := (journalPut (0x2150 + h) 1 mask.toNat s.dev).modHalf h (fun x => { x with
         bankReq := mask, bankOn := ~~~mask, bankWait := x.bankWait.filter (fun b => bitOf mask b) })
       accept p (forEach d.sliceNums carves d)))) ∧
  (∀ (s : State) (p : Path) (h : HalfId) (mask : BitVec 16) (b : Nat), s.Owned p → b < 16 → bitOf mask b = true →
    (s.dev.half h).inBank b ≠ 0 →
    exec (.bankOffReq p h mask) s = .next (s.after (refuse p cBusy 0 s.dev)))

/-- PSL_RESPONSE, PSL_WATCH_POLL, PSL_ALERT, FAULT_RETRY_EXPIRY, ILIMIT_CLIP_TIMER, STOP, FORCE_SAFE_N_FALL, FORCE_SAFE_N_RISE,
SUPPLY_ALERT_FALL, SUPPLY_ALERT_RISE, ALERT_HOLD_EXPIRY, ALLOCATION_RUN (R335, R339 to R346, R351 to R353). -/
def Obligations.PowerStageRowsComplete : Prop :=
  (∀ (s : State) (g : GroupId) (k : Fin 8) (f r : Dword) (l : List Dword), (s.dev.pg g).frames = f :: l →
    frameAddr f = k.val → frameCmd f = 8 → frameArg f = 0 →
    frameOk r = true → frameAddr r = k.val → frameCmd r = 0 →
    exec (.pslResponse g k (some r)) s = .next (s.afterPd
      ((pslNext g (s.dev.modStage (8 * g + k) (fun x => { x with fails := 0, lost := false }))).modPort (8 * g + k) (fun y => { y with
        stage := { y.stage with
          curMa := 10 * frameArg r, samples := (y.tc.vbusMv * (10 * frameArg r) / 1000 :: y.stage.samples).take 8 } })))) ∧
  (∀ (s : State) (g : GroupId) (k : Fin 8) (f r : Dword) (l : List Dword), (s.dev.pg g).frames = f :: l →
    frameAddr f = k.val → frameCmd f = 8 → frameArg f = 3 →
    frameOk r = true → frameAddr r = k.val → frameCmd r = 0 → frameArg r ≠ 0 →
    exec (.pslResponse g k (some r)) s = .next (s.afterPd (stageFault (8 * g + k) (frameArg r % 256) false
      (pslNext g (s.dev.modStage (8 * g + k) (fun x => { x with fails := 0, lost := false })))))) ∧
  (∀ (s : State) (g : GroupId) (k : Fin 8) (f : Dword) (l : List Dword), (s.dev.pg g).frames = f :: l →
    frameAddr f = k.val → (s.dev.port (8 * g + k)).stage.fails < 2 →
    exec (.pslResponse g k none) s = .next (s.afterPd (emit (.psl g f)
      ((s.dev.modPg g (fun y => { y with pslFailures := y.pslFailures + 1 })).modStage (8 * g + k)
        (fun y => { y with fails := y.fails + 1 }))))) ∧
  (∀ (s : State) (g : GroupId), s.dev.gesso.level = 2 →
    exec (.pslWatchPoll g) s = .next (s.afterPd (pollGroup g s.dev))) ∧
  (∀ (s : State) (g : GroupId), (∀ k < 8, (s.dev.port (8 * g + k)).stage.present = false) →
    exec (.pslAlert g) s = .next (s.afterPd (s.dev.modPg g (fun x => { x with alerts := x.alerts + 1 })))) ∧
  (∀ (s : State) (p : PortId), (s.dev.port p).tc.retryHold = true →
    exec (.faultRetryExpiry p) s = .next (s.afterPd (tryArm p (s.dev.modTc p (fun x => { x with retryHold := false }))))) ∧
  (∀ (s : State) (p : PortId), (s.dev.port p).stage.lowered = true → (s.dev.port p).pd.contract = true →
    exec (.ilimitClipTimer p) s = .next (s.afterPd (stageLimit p (s.dev.pPort p * 1100 / (s.dev.port p).pd.mv)
      (s.dev.modStage p (fun y => { y with lowered := false }))))) ∧
  (∀ (s : State) (p : Path) (g : GroupId), s.Serves p → (s.dev.pg g).stop = false →
    exec (.stop p g 1) s = .next (s.afterPd (accept p (driveStop g (journalPut (0x3200 + g) 2 1
      ((raise { c := 162, inst := g, half := g / 12 } s.dev).modPg g (fun x => { x with stop := true }))))))) ∧
  (∀ (s : State) (p : Path) (g : GroupId), s.Serves p →
    exec (.stop p g 0) s = .next (s.afterPd (accept p (driveStop g (journalPut (0x3200 + g) 2 0
      (s.dev.modPg g (fun x => { x with stop := false }))))))) ∧
  (∀ (s : State), s.dev.gesso.forceSafeN = true →
    exec .forceSafeNFall s = .next (s.afterPd (forEach allGroups driveStop
      (raise { c := 163 } { s.dev with gesso := { s.dev.gesso with forceSafeN := false } })))) ∧
  (∀ (s : State), s.dev.gesso.forceSafeN = false →
    exec .forceSafeNRise s = .next (s.afterPd (forEach allGroups driveStop
      { s.dev with gesso := { s.dev.gesso with forceSafeN := true } }))) ∧
  (∀ (s : State), s.dev.sys.alertLow = false → s.dev.gesso.level = 0 →
    exec .supplyAlertFall s = .next (s.afterPd (allocate (raise { c := 160 } { s.dev with sys := { s.dev.sys with
      alertLow := true, alertHold := true, alertCount := s.dev.sys.alertCount + 1 } })))) ∧
  (∀ (s : State), exec .supplyAlertRise s = .next (s.afterPd { s.dev with sys := { s.dev.sys with alertLow := false } })) ∧
  (∀ (s : State), s.dev.sys.alertLow = false →
    exec .alertHoldExpiry s = .next (s.afterPd (allocate { s.dev with sys := { s.dev.sys with alertHold := false } }))) ∧
  (∀ (s : State), exec .allocationRun s = .next (s.afterPd (allocate s.dev)))

/-- TASK_TAKE, TASK_END, TASK_POST, TASK_YIELD, TASK_CANCEL, EASEL_TICK, CORE_WEDGE, CORE_RESTART_DONE, UPDATE_CMD (core, all),
CORE_UPDATE_LOAD_DONE, DICT_REQ, DICT_WAIT, EVENT_RAISE, OBJ_ANSWER, OBJ_ANSWER_TIMEOUT, BUILDER_RELOAD (R357, R361 to R363, R366 to
R369, R372 to R375). -/
def Obligations.EaselRowsComplete : Prop :=
  (∀ (s : State) (c : CoreId), s.dev.coreUp c = true → (s.dev.core c).cur = none →
    exec (.taskTake c) s = .next (s.after (giveTasks (c / 6) (s.dev.modCore c (fun x => { x with taking := true }))))) ∧
  (∀ (s : State) (c : CoreId) (cycles : Nat) (t : Task), (s.dev.core c).cur = some t → t.slice = 255 →
    exec (.taskEnd c cycles) s = .next (s.afterPd (serveHeld (giveTasks (c / 6)
      (s.dev.modCore c (fun x => { x with cur := none })))))) ∧
  (∀ (s : State) (c : CoreId) (cycles : Nat) (t : Task), (s.dev.core c).cur = some t → t.slice ≠ 255 → isBuilder c = false →
    exec (.taskEnd c cycles) s = .next (s.afterPd (serveHeld (giveTasks (c / 6)
      ((s.dev.modCore c (fun x => { x with cur := none })).modPal t.slice
        ((s.dev.modCore c (fun x => { x with cur := none })).palKey 7 (c / 6)) (fun p => p.charge false cycles)))))) ∧
  (∀ (s : State) (c : CoreId) (w : List Dword), s.dev.coreUp c = true → s.dev.postInvalid c w = false → s.dev.postFull c w = false →
    bitsOf (dwAt w 1) 23 0 = 0 →
    exec (.taskPost c w) s = .next (s.after
      (let h := c.val / 6
       let e := (s.dev.half h).easel
       let used := (s.dev.easelTasks h).map (fun t => t.slot)
       let slot := ((List.range 4096).find? (fun k => !(used.contains k))).getD 0
       let hd := w32 (slot + 4096 * tabGet 0 e.gens slot)
       emit (.csr c hd) (emit (.csr c 0) (giveTasks h (s.dev.modEasel h (fun e => { e with
         gens := tabPut e.gens slot ((tabGet 0 (s.dev.half h).easel.gens slot + 1) % 2 ^ 20), peak := max e.peak (used.length + 1)
         ready := e.ready ++ [{
           dws := w.set 2 hd, slot := slot, gen := tabGet 0 (s.dev.half h).easel.gens slot
           due := (s.dev.half h).easel.tick }] }))))))) ∧
  (∀ (s : State) (c : CoreId) (w : List Dword), s.dev.coreUp c = true → s.dev.postInvalid c w = true →
    exec (.taskPost c w) s = .next (s.after (emit (.csr c 2) s.dev))) ∧
  (∀ (s : State) (c : CoreId) (w : List Dword), s.dev.coreUp c = true → s.dev.postInvalid c w = false → s.dev.postFull c w = true →
    exec (.taskPost c w) s = .next (s.after (emit (.csr c 1) s.dev))) ∧
  (∀ (s : State) (c : CoreId) (cycles : Nat) (w : List Dword) (t : Task), (s.dev.core c).cur = some t →
    exec (.taskYield c cycles w) s = .next (s.afterPd (serveHeld
      ((post357 c (w.set 1 (dwAt w 1 &&& 0xFF000000)) (endTask c cycles s.dev)).2.2)))) ∧
  (∀ (s : State) (c : CoreId) (hd : Dword), s.dev.coreUp c = true →
    (s.dev.half (c / 6)).easel.delay.any (fun t => t.handle == hd) = true →
    exec (.taskCancel c hd) s = .next (s.afterPd (serveHeld (emit (.csr c 0) (s.dev.modEasel (c / 6) (fun e => { e with
      delay := e.delay.filter (fun t => t.handle != hd), ready := e.ready.filter (fun t => t.handle != hd) })))))) ∧
  (∀ (s : State) (h : HalfId),
    exec (.easelTick h) s = .next (s.after (giveTasks h (s.dev.modEasel h (fun e => { e with
      tick := e.tick + 1, ready := e.ready ++ e.delay.filter (fun t => t.due ≤ e.tick + 1)
      delay := e.delay.filter (fun t => e.tick + 1 < t.due) }))))) ∧
  (∀ (s : State) (c : CoreId), (s.dev.core c).st = 1 → isBuilder c = false → s.dev.update.st ≠ 1 → (s.dev.core c).cur = none →
    exec (.coreWedge c) s = .next (s.afterPd (serveHeld (giveTasks (c / 6) (raise { c := 40, inst := c, half := c / 6 }
      (s.dev.modCore c (fun x => { x with
        st := 2, restarts := x.restarts + 1, taking := false, dictReq := none, dictBlocked := false, wedgeAt := [] }))))))) ∧
  (∀ (s : State) (c : CoreId), (s.dev.core c).st = 2 → isBuilder c = false →
    exec (.coreRestartDone c) s = .next (s.afterPd (serveHeld (giveTasks (c / 6) (s.dev.modCore c (fun x => { x with st := 1 })))))) ∧
  (∀ (s : State) (p : Path) (c : CoreId), s.Owned p → s.dev.update.st ≠ 1 →
    (∀ k < 12, (s.dev.core k).st ≠ 2 ∧ (s.dev.core k).st ≠ 3) → s.dev.flash.st s.dev.inactive = 3 →
    s.dev.flash.minVersion.toNat ≤ s.dev.start.fwVersion.toNat → isBuilder c = false →
    exec (.updateCmdCore p c) s = .next (s.afterPd (updateNext (accept p { s.dev with update := { s.dev.update with
      st := 1, queue := [c.val] } })))) ∧
  (∀ (s : State) (p : Path), s.Owned p → s.dev.update.st ≠ 1 →
    (∀ k < 12, (s.dev.core k).st ≠ 2 ∧ (s.dev.core k).st ≠ 3) → s.dev.flash.st s.dev.inactive = 3 →
    s.dev.flash.minVersion.toNat ≤ s.dev.start.fwVersion.toNat →
    exec (.updateCmdAll p) s = .next (s.afterPd (updateNext (accept p { s.dev with update := { s.dev.update with
      st := 1, queue := vendorCores } })))) ∧
  (∀ (s : State) (c : CoreId), s.dev.update.st = 1 → s.dev.update.core = c → (s.dev.core c).st = 3 →
    exec (.coreUpdateLoadDone c true) s = .next (s.afterPd (serveHeld (updateNext
      (let v := s.dev.flash.ver s.dev.inactive
       let d := giveTasks (c / 6) (s.dev.modCore c (fun x => { x with st := 1, version := v }))
       if s.dev.update.queue.isEmpty && vendorCores.all (fun k => (d.core k).version == v) then
         { d with start := { d.start with part := d.inactive, fwVersion := v } } else d)))) ∧
    exec (.coreUpdateLoadDone c false) s = .next (s.afterPd (serveHeld (updateEnd 3 cIntegrity (giveTasks (c / 6)
      (s.dev.modCore c (fun x => { x with st := 1 }))))))) ∧
  (∀ (s : State) (c : CoreId) (idx : BitVec 16) (sub : Byte) (write : Bool) (v : List Byte), isBuilder c = true → s.dev.coreUp c = true →
    (s.dev.core c).dictReq = none →
    exec (.dictReq c idx sub write v) s = .next (s.afterPd (serveBuilder c
      (s.dev.modCore c (fun x => { x with dictReq := some (idx.toNat, sub.toNat, write, v) }))))) ∧
  (∀ (s : State) (c : CoreId), isBuilder c = true → s.dev.coreUp c = true → (s.dev.core c).dictReq = none →
    exec (.dictWait c) s = .next (s.after (dictDeliver c s.dev))) ∧
  (∀ (s : State) (c : CoreId) (v : Dword), isBuilder c = true → s.dev.coreUp c = true → 240 ≤ bitsOf v 7 0 →
    exec (.eventRaise c v) s = .next (s.after (raise {
      c := bitsOf v 7 0, inst := bitsOf v 23 8, detail := some (bitsOf v 31 8), half := c / 6 } s.dev))) ∧
  (∀ (s : State) (c : CoreId) (code : Byte) (f : Path × Nat × Nat × List Byte), s.dev.update.fwd = some f → isBuilder c = true →
    s.dev.coreUp c = true → 0x80 ≤ code.toNat →
    exec (.objAnswer c code) s = .next (s.after (refuse f.1 code.toNat 0 { s.dev with update := { s.dev.update with fwd := none } }))) ∧
  (∀ (s : State) (c : CoreId) (f : Path × Nat × Nat × List Byte),
    s.dev.update.fwd = some f → isBuilder c = true → s.dev.coreUp c = true →
    exec (.objAnswer c 0) s = .next (s.after (accept f.1 (storeObj
      ((s.dev.builderRow f.2.1 f.2.2.1).elim Cls.none (fun o => o.cls)) f.2.1 f.2.2.1 (ofBytes f.2.2.2)
      { s.dev with update := { s.dev.update with fwd := none } })))) ∧
  (∀ (s : State) (f : Path × Nat × Nat × List Byte), s.dev.update.fwd = some f →
    exec .objAnswerTimeout s = .next (s.after (refuse f.1 cBusy 4 { s.dev with update := { s.dev.update with fwd := none } }))) ∧
  (∀ (s : State) (p : Path) (ok : Bool) (v : Dword), s.Owned p →
    exec (.builderReload p 1 ok v) s = .next (s.after (loadBuilder ok v 2 (refuseForwarded (accept p s.dev)))))

/-- RESIDUE_MISMATCH, UNIT_RETURN, SRAM_ERROR, PATROL_SCRUB_READ, GESSO_VOTE (R378 to R382, R385, R396, R397). -/
def Obligations.IntegrityRowsComplete : Prop :=
  (∀ (s : State) (u : ResUnit) (v : ResVictim), s.dev.unitServes u = true →
    exec (.residueMismatch u v false) s = .next (s.afterPd
      ((raise { c := 32, inst := resInst u, slice := victimSlice v, unit := resUnitCode u, half := resHalf u } s.dev).modHalf (resHalf u)
        (fun x => { x with residueRetries := x.residueRetries + 1 })))) ∧
  (∀ (s : State) (u : ResUnit) (v : ResVictim), s.dev.unitServes u = true →
    exec (.residueMismatch u v true) s = .next (s.afterPd
      (let h := resHalf u
       let near := (tabGet [] (s.dev.half h).fences (resKey u)).filter (fun t => s.dev.now < t + 600 * 32768) ++ [s.dev.now]
       let d := raise { c := 33, inst := resInst u, slice := victimSlice v, unit := resUnitCode u, half := h
                        code := if victimSlice v = 0xFF then 0 else cIntegrity } s.dev
       let d := d.modHalf h (fun x => { x with unitFences := x.unitFences + 1, fences := tabPut x.fences (resKey u) near })
       heldOut u near.length (fenceUnit u v d)))) ∧
  (∀ (s : State) (h : HalfId), exec (.unitReturn (.fresco h)) s = .next (s.afterPd
    (s.dev.modHalf h (fun x => { x with frescoOut := false })))) ∧
  (∀ (s : State) (h : HalfId) (i : Fin 16), bitOf (s.dev.half h).genOut i = false →
    exec (.unitReturn (.generator h i)) s = .next (s.afterPd
      (s.dev.modHalf h (fun x => { x with genFenced := x.genFenced &&& ~~~(1#32 <<< i.val) })))) ∧
  (∀ (s : State) (a : Fin 8) (loc : SramLoc), exec (.sramError a loc false) s = .next (s.afterPd (corrected a s.dev))) ∧
  (∀ (s : State) (a : Fin 8) (loc : SramLoc), exec (.sramError a loc true) s = .next (s.afterPd
    (sramLost loc (raise { c := 37, inst := a, half := arrHalf a } { s.dev with sys := { s.dev.sys with
      uncorrectable := tabPut s.dev.sys.uncorrectable a (tabGet 0 s.dev.sys.uncorrectable a + 1) } })))) ∧
  (∀ (s : State) (a : Fin 8) (loc : SramLoc) (w : Nat), tabFind s.dev.sys.scrubAt a = none →
    exec (.patrolScrubRead a loc w none false) s = .next (s.afterPd { s.dev with sys := { s.dev.sys with
      scrubAt := tabPut s.dev.sys.scrubAt a w, scrub := tabDel s.dev.sys.scrub (a + 8 * w) } })) ∧
  (∀ (s : State), exec .gessoVote s = .next (s.after
    (raise { c := 44 } { s.dev with gesso := { s.dev.gesso with votes := s.dev.gesso.votes + 1 } })))

/-- OBJECT_WRITE, OBJECT_READ, ADMIN_READ, ADMIN_WRITE, ADMIN_MANAGER_OPERATION, SAVE, RESTORE, SAVE_DONE, EVENT_ACK, STOP_MASK,
FENCE_SLICE, FENCE_ALL, LOCK_CLEAR, DEVICE_RESET (R5, R6, R8, R400, R401, R406, R413, R415, R417, R423, R426). -/
def Obligations.DictionaryRowsComplete : Prop :=
  (∀ (s : State) (p : Path) (idx : BitVec 16) (sub : Byte) (v : List Byte) (image : List Dword) (o : Obj),
    s.Accepts p idx.toNat sub.toNat v o → o.cls ≠ .act →
    exec (.objectWrite p idx sub v image) s = .next (s.afterPd (accept p (storeWrite o idx.toNat sub.toNat (ofBytes v) s.dev)))) ∧
  (∀ (s : State) (p : Path) (idx : BitVec 16) (sub : Byte) (v : List Byte) (image : List Dword) (c r : Nat), s.Serves p →
    s.dev.writeBad (s.dev.isOwner p) idx.toNat sub.toNat v = some (c, r) →
    exec (.objectWrite p idx sub v image) s = .next (s.afterPd (refuse p c r s.dev))) ∧
  (∀ (s : State) (p : Path) (idx : BitVec 16) (sub : Byte) (bs : List Byte), s.Serves p →
    s.dev.dictRead idx.toNat sub.toNat = .ok bs →
    exec (.objectRead p idx sub) s = .next (s.after (answer p cOk 0 bs s.dev))) ∧
  (∀ (s : State) (p : Path) (idx : BitVec 16) (sub : Byte) (r : Nat), s.Serves p →
    s.dev.dictRead idx.toNat sub.toNat = .error r →
    exec (.objectRead p idx sub) s = .next (s.after (refuse p cNotPermitted r s.dev))) ∧
  (∀ (s : State) (f : FuncId) (image : List Dword), s.dev.isManager f = true → s.dev.gesso.level = 0 → s.dev.start.st ≠ 2 →
    (s.dev.half 0).inReset = false → s.dev.mbox.busy = false → s.dev.serverOut = false →
    let x := s.dev.mbox
    let d : Dev := { s.dev with mbox := { x with busy := true, done := false, overrun := false, rseq := x.seq } }
    let bs := memRead s.mem.req 0 (min x.length.toNat 4097)
    (x.op = 1 → exec (.adminRead f) s = .next (s.afterPd (dictAnswer .admin x.index.toNat x.sub.toNat d))) ∧
    (x.op = 2 → exec (.adminWrite f) s = .next (s.afterPd
      (dictWrite .admin (d.isOwner .admin) x.index.toNat x.sub.toNat bs [] d))) ∧
    (x.op = 3 → exec (.adminManagerOperation f image) s = .next (s.afterPd
      (dictWrite .admin (d.isOwner .admin) 0x2030 1 bs image d)))) ∧
  (∀ (s : State) (p : Path) (o : Obj), s.Accepts p 0x2005 1 [0xA5] o → o.cls = .act → s.dev.flash.saving = none →
    exec (.save p 0xA5) s = .next (s.afterPd
      (let t := s.dev.dict.merge
       { s.dev with dict := { t with jold := t.journal, journal := [], next := s.dev.savedShadow }
                    flash := { s.dev.flash with saving := some (true, p), save := 1 } }))) ∧
  (∀ (s : State) (p : Path) (o : Obj), s.Accepts p 0x2005 2 [0xA5] o → o.cls = .act → s.dev.flash.saving = none →
    exec (.restore p 0xA5) s = .next (s.afterPd
      (let t := s.dev.dict.merge
       { s.dev with dict := { t with jold := t.journal, journal := [], next := [] }
                    flash := { s.dev.flash with saving := some (false, p), save := 1 } }))) ∧
  (∀ (s : State) (b : Bool) (p : Path), s.dev.flash.saving = some (b, p) →
    exec (.saveDone true) s = .next (s.after (accept p { s.dev with
      dict := { s.dev.dict with saved := s.dev.dict.next, jold := [], next := [] }
      flash := { s.dev.flash with saving := none, save := 2 } }))) ∧
  (∀ (s : State) (p : Path) (v : BitVec 16) (o : Obj), s.Accepts p 0x6000 2 (leBytes 2 v.toNat) o → o.cls = .act → v.toNat < 256 →
    exec (.eventAck p v) s = .next (s.afterPd (accept p { s.dev with events := { s.dev.events with
      pending := s.dev.events.pending &&& ~~~(1#256 <<< v.toNat) } }))) ∧
  (∀ (s : State) (p : Path) (mask : Dword) (o : Obj), s.Accepts p 0x1220 1 (leBytes 4 mask.toNat) o → o.cls = .act →
    exec (.stopMask p mask) s = .next (s.afterPd (accept p
      (forEach allGroups (fun g => setStop g (mask.toNat / 2 ^ g % 2 = 1)) s.dev)))) ∧
  (∀ (s : State) (p : Path) (n : Byte) (o : Obj), s.Accepts p 0x1220 2 [n] o → o.cls = .act →
    exec (.fenceSlice p n) s = .next (s.afterPd (fence [n.toNat] (some (.obj p)) s.dev))) ∧
  (∀ (s : State) (p : Path) (o : Obj), s.Accepts p 0x1220 3 [1] o → o.cls = .act →
    exec (.fenceAll p 1) s = .next (s.afterPd (fence s.dev.notFree (some (.obj p)) s.dev))) ∧
  (∀ (s : State) (p : Path) (o : Obj), s.Accepts p 0x1220 4 [0xA5] o → o.cls = .act →
    exec (.lockClear p 0xA5) s = .next (s.afterPd (clearLock (accept p s.dev)))) ∧
  (∀ (s : State) (p : Path) (o : Obj), s.Accepts p 0x1220 5 [0xA5] o → o.cls = .act →
    exec (.deviceReset p 0xA5) s = .next (s.afterPd (deviceReset (accept p s.dev))))

/-- READ, SEG_GET, WRITE, WRITE_SEG_START, SEG_PUT, ABORT, SEG_TIMEOUT_EXPIRY, MINIMAL_RESPONDER_REQUEST, HEARTBEAT, CAN_BUS_OFF,
CAN_BUS_OFF_RECOVERY, EVENT_FRAME_QUEUE_DRAIN (R404, R408 to R410, R412, R418, R419, R422). -/
def Obligations.HerobRowsComplete : Prop :=
  (∀ (s : State) (l : LinkId) (fr : HFrame) (bs : List Byte), s.Hears l fr → (s.noted l 0x10 fr).pathBusy (.can l) = false → fr.seq = 0 →
    (s.noted l 0x10 fr).unserved fr.index.toNat = false →
    (s.noted l 0x10 fr).dictRead fr.index.toNat fr.sub.toNat = .ok bs →
    exec (.read l fr) s = .next (s.after (if bs.length ≤ 56 then herobReply l 0x11 fr 0 bs (s.noted l 0x10 fr)
      else herobReply l 0x12 fr 0 (leBytes 4 bs.length) ((s.noted l 0x10 fr).modCan l (fun y => { y with seg := some {
        isWrite := false, txn := fr.txn, index := fr.index, sub := fr.sub, total := bs.length, next := 1, data := bs } }))))) ∧
  (∀ (s : State) (l : LinkId) (fr : HFrame) (x : Seg), s.Hears l fr → (s.dev.can l).seg = some x → x.owns fr = true →
    x.isWrite = false → fr.seq = x.next →
    exec (.segGet l fr) s = .next (s.after (herobReply l 0x14 fr fr.seq (segment x.data fr.seq)
      ((s.noted l 0x13 fr).modCan l (fun y => { y with
        seg := if x.total ≤ 56 * fr.seq then none else some { x with next := x.next + 1 } }))))) ∧
  (∀ (s : State) (l : LinkId) (fr : HFrame), s.Hears l fr → (s.noted l 0x20 fr).pathBusy (.can l) = false → fr.seq = 0 →
    fr.data ≠ [] → fr.data.length ≤ 56 →
    exec (.write l fr) s = .next (s.afterPd (frameApply l fr true fr.data [] (s.noted l 0x20 fr)))) ∧
  (∀ (s : State) (l : LinkId) (fr : HFrame), s.Hears l fr → (s.noted l 0x22 fr).pathBusy (.can l) = false → fr.seq = 0 →
    4 ≤ fr.data.length → 57 ≤ ofBytes (fr.data.take 4) → ofBytes (fr.data.take 4) ≤ 4096 →
    exec (.writeSegStart l fr) s = .next (s.after (herobReply l 0x24 fr 0 [] ((s.noted l 0x22 fr).modCan l (fun y => { y with
      seg := some { isWrite := true, txn := fr.txn, index := fr.index, sub := fr.sub, total := ofBytes (fr.data.take 4), next := 1
                    data := [], owned := (s.noted l 0x22 fr).isOwner (.can l) } }))))) ∧
  (∀ (s : State) (l : LinkId) (fr : HFrame) (image : List Dword) (x : Seg), s.Hears l fr → (s.dev.can l).seg = some x →
    x.owns fr = true → x.isWrite = true → fr.seq = x.next → fr.data.length = min 56 (x.total - 56 * (fr.seq - 1)) →
    exec (.segPut l fr image) s = .next (s.afterPd
      (if x.total ≤ 56 * fr.seq then frameApply l fr x.owned (x.data ++ fr.data) image (s.noted l 0x23 fr)
       else herobReply l 0x24 fr fr.seq [] ((s.noted l 0x23 fr).modCan l (fun y => { y with
         seg := some { x with next := x.next + 1, data := x.data ++ fr.data } }))))) ∧
  (∀ (s : State) (l : LinkId) (fr : HFrame), s.dev.canServes l = true →
    exec (.abort l fr) s = .next (s.after (s.dev.modCan l (fun x => { x with
      seg := x.seg.filter (fun s => !(s.owns fr))
      waiting := x.waiting.filter (fun w => !(w.2.1.txn == fr.txn && w.2.1.index == fr.index && w.2.1.sub == fr.sub))
      lastFrame := none })))) ∧
  (∀ (s : State) (l : LinkId) (x : Seg), (s.dev.can l).seg = some x →
    exec (.segTimeoutExpiry l) s = .next (s.after (herobAbort l { txn := x.txn, index := x.index, sub := x.sub } cNotPermitted 9
      (s.dev.modCan l (fun y => { y with seg := none }))))) ∧
  (∀ (s : State) (l : LinkId) (x : Seg), (s.dev.can l).seg = none → (s.dev.can l).mini = some x →
    exec (.segTimeoutExpiry l) s = .next (s.after (miniAbort l { txn := x.txn, index := x.index, sub := x.sub } cNotPermitted 9
      (s.dev.modCan l (fun y => { y with mini := none }))))) ∧
  (∀ (s : State) (l : LinkId) (fr : HFrame), s.dev.miniUp l = true → repeats (s.dev.can l).lastMini fr = false →
    let d := s.dev.modCan l (fun x => { x with lastMini := some (0x10, fr) })
    d.miniBusy l = false → fr.seq = 0 → miniServes fr.index.toNat fr.sub.toNat = true →
    exec (.minimalResponderRequest l 0x10 fr) s = .next (s.afterPd (miniRead l fr d))) ∧
  (∀ (s : State), (s.dev.gesso.vdd = true ∨ s.dev.gesso.vsrv = true) → s.dev.gesso.clock = true → s.dev.gesso.level ≠ 3 →
    (s.dev.cfg 0x1100 5 ≠ 0 ∨ s.dev.start.st = 2) →
    exec .heartbeat s = .next (s.after (forEach [0, 1] (fun l d =>
      if d.linkEnabled l then canSend l 2 (heartbeatBytes d) d else d) s.dev))) ∧
  (∀ (s : State) (l : LinkId), s.dev.linkEnabled l = true → (s.dev.can l).busOff = false →
    exec (.canBusOff l) s = .next (s.after (raise { c := 194, inst := l }
      ({ s.dev with sys := { s.dev.sys with busOff := s.dev.sys.busOff + 1 } }.modCan l (fun x => { x with busOff := true }))))) ∧
  (∀ (s : State) (l : LinkId), (s.dev.can l).busOff = true →
    exec (.canBusOffRecovery l) s = .next (s.after ((s.dev.can l).held.foldl (fun d f => emit (.can l f.1 f.2) d)
      (s.dev.modCan l (fun x => { x with busOff := false, held := [] }))))) ∧
  (∀ (s : State) (l : LinkId), (s.dev.can l).busOff = false → (s.dev.can l).overflow = [] →
    exec (.eventFrameQueueDrain l) s = .next (s.after
      (((s.dev.can l).evQueue.foldl (fun d f => emit (.can l 3 f) d) s.dev).modCan l (fun x => { x with evQueue := [], overflow := [] }))))

/-- PORTS_READY, START_FAILURE, FAILED_START_RETRY, FAILED_START_WINDOW_EXPIRY, START_CMD_WARM, START_CMD_COLD, RESET_N_FALL,
RESET_N_RISE, RAIL_FAIL, RAILS_GOOD, GESSO_CLOCK_START, GESSO_CLOCK_STOP, REFCLK_LOSS, REFCLK_RETURN, GESSO_SUPPLY_GOOD,
GESSO_SUPPLY_LOSS (R30, R388, R425, R430, R434, R442, R443, R445, R447, R448, R458, R467, R482). What a lost or returned REFCLK writes
into its record is free (Config.refclkSeverity and Config.refclkCause). -/
def Obligations.StartRowsComplete : Prop :=
  (∀ (s : State) (okB calOk : Bool) (idents : List (PortId × BitVec 16)) (us : Dword), s.dev.start.half = none →
    s.dev.starting = true → s.dev.firstPart = 0 →
    exec (.portsReady true okB calOk idents us) s = .next (s.afterPd (reachReady 0 false calOk idents us s.dev))) ∧
  (∀ (s : State) (calOk : Bool) (idents : List (PortId × BitVec 16)) (us : Dword), s.dev.start.half = none →
    s.dev.starting = true → s.dev.firstPart = 0 →
    exec (.portsReady false true calOk idents us) s = .next (s.afterPd (reachReady 1 true calOk idents us
      { s.dev with flash := { s.dev.flash with stA := 2 } }))) ∧
  (∀ (s : State) (okA okB calOk : Bool) (idents : List (PortId × BitVec 16)) (us : Dword) (h : HalfId), s.dev.start.half = some h →
    s.dev.sinopia.up = true →
    exec (.portsReady okA okB calOk idents us) s = .next (s.afterPd (halfReady h us s.dev))) ∧
  (∀ (s : State) (okA okB : Bool) (us : Dword), s.dev.start.half = none → s.dev.starting = true →
    exec (.startFailure okA okB us) s = .next (s.afterPd (failStart okA okB us s.dev))) ∧
  (∀ (s : State) (okA okB : Bool) (us : Dword) (h : HalfId), s.dev.start.half = some h →
    exec (.startFailure okA okB us) s = .next (s.afterPd (failHalf h us s.dev))) ∧
  (∀ (s : State), s.dev.start.retryDue = true → s.dev.gesso.locked = false → s.dev.canStart = true →
    exec .failedStartRetry s = .next (s.afterPd (beginStart 1 8 s.dev))) ∧
  (∀ (s : State), exec .failedStartWindowExpiry s = .next (s.after
    { s.dev with gesso := { s.dev.gesso with failedStarts := s.dev.gesso.failedStarts - 1 } })) ∧
  (∀ (s : State) (p : Path), s.Owned p → s.dev.startBusy = false →
    exec (.startCmdWarm p) s = .next (s.afterPd (beginStart 2 5 (accept p s.dev)))) ∧
  (∀ (s : State) (p : Path), s.Owned p → s.dev.startBusy = false →
    exec (.startCmdCold p) s = .next (s.afterPd (beginStart 1 4 (accept p s.dev)))) ∧
  (∀ (s : State) (p : Path), s.Owned p → s.dev.startBusy = true →
    exec (.startCmdCold p) s = .next (s.afterPd (refuse p cBusy 3 s.dev))) ∧
  (∀ (s : State), s.dev.gesso.resetN = true →
    exec .resetNFall s = .next (s.afterPd (holdReset allGroups { s.dev with gesso := { s.dev.gesso with resetN := false } }))) ∧
  (∀ (s : State), s.dev.gesso.resetN = false →
    ({ s.dev with gesso := { s.dev.gesso with resetN := true } } : Dev).canStart = true →
    exec .resetNRise s = .next (s.afterPd (beginStart 1 2 { s.dev with gesso := { s.dev.gesso with resetN := true } }))) ∧
  (∀ (s : State), s.dev.gesso.railsGood = true → s.dev.gesso.level = 0 →
    exec .railFail s = .next (s.afterPd (holdReset allGroups { s.dev with gesso := { s.dev.gesso with railsGood := false } }))) ∧
  (∀ (s : State), s.dev.gesso.level = 0 → (s.dev.half 0).inReset = true → s.dev.start.retryDue = false →
    s.dev.start.waitTrigger = 0 → ({ s.dev with gesso := { s.dev.gesso with railsGood := true } } : Dev).canStart = true →
    exec .railsGood s = .next (s.afterPd (beginStart 1 1 { s.dev with gesso := { s.dev.gesso with railsGood := true } }))) ∧
  (∀ (s : State), s.dev.gesso.clock = false → s.dev.gesso.vdd = true →
    exec .gessoClockStart s = .next (s.afterPd
      (resumeStart 1 (sampleNode { s.dev with gesso := { s.dev.gesso with clock := true } })))) ∧
  (∀ (s : State), s.dev.gesso.clock = true →
    exec .gessoClockStop s = .next (s.afterPd (holdReset allGroups { s.dev with gesso := { s.dev.gesso with clock := false } }))) ∧
  (∀ (s : State) (h : HalfId), s.dev.gesso.level = 0 → s.dev.gesso.refclk = true →
    exec (.refclkLoss h) s = .next (s.afterPd
      ((holdReset (allGroups.filter (fun g => g / 12 == h.val))
        (putRecord Config.refclkSeverity.toNat { c := Config.refclkCause.toNat, inst := h, half := h, unit := 7 }
          { s.dev with gesso := { s.dev.gesso with refclk := false } })).modHalf h (fun x => { x with clockLost := true })))) ∧
  (∀ (s : State), s.dev.gesso.refclk = false → (s.dev.half 0).inReset = true → s.dev.start.retryDue = false →
    s.dev.start.waitTrigger = 0 → ({ s.dev with gesso := { s.dev.gesso with refclk := true } } : Dev).canStart = true →
    exec .refclkReturn s = .next (s.afterPd (beginStart 1 10 { s.dev with gesso := { s.dev.gesso with refclk := true } }))) ∧
  (∀ (s : State) (vsrv : Bool) (straps : BitVec 7), s.dev.gesso.vdd = false → s.dev.gesso.vsrv = false →
    exec (.gessoSupplyGood vsrv straps) s = .next (s.afterPd
      (sampleNode (holdReset allGroups { s.dev with
        start := { sCount := s.dev.start.sCount, part := s.dev.start.part }
        gesso := { vdd := !vsrv, vsrv := vsrv, clock := false, railsGood := false, resetN := s.dev.gesso.resetN, forceSafeN := s.dev.gesso.forceSafeN, refclk := s.dev.gesso.refclk, calValid := false, straps := straps } })))) ∧
  (∀ (s : State), exec .gessoSupplyLoss s = .next (s.afterPd (gessoLost s.dev)))

/-- LEVEL_REQ_ATTACH_WATCH, LEVEL_REQ_DEEP_STANDBY, WATCH_PERIOD, WAKE_N_LOW, CAN_WAKE_PATTERN, CAN_DOMINANT_EDGE,
GESSO_LOOP_IDLE_STOP, VSRV_RISE, ATTACH_WAKE, PERST_WAKE, USB2_BUS_WAKE, WAKE_RAILS_GOOD, STAGE_DATA, STAGE_CMD_ERASE, STAGE_CMD_VERIFY,
STAGE_CMD_DONE, THERMAL_TRIP, THERMAL_CLEAR_START, MICROFRAME_BOUNDARY (R128, R435 to R441, R446, R459, R460, R478). -/
def Obligations.StandbyRowsComplete : Prop :=
  let woken (low : Bool) (bit : Nat) (d : Dev) : Dev :=
    { d with gesso := { d.gesso with waking := true, lastWake := bit, wakeAt := d.now, wakeLow := low, loop := true } }
  (∀ (s : State) (p : Path), s.Owned p → s.dev.sliceActive = false → s.dev.startBusy = false →
    exec (.levelReqAttachWatch p) s = .next (s.afterPd (accept p (attachWatch (upstreamOff s.dev))))) ∧
  (∀ (s : State) (p : Path), s.Owned p → s.dev.sliceActive = false → s.dev.startBusy = false →
    exec (.levelReqDeepStandby p) s = .next (s.afterPd (deepStandby (accept p (upstreamOff s.dev))))) ∧
  (∀ (s : State) (p : Path), s.Owned p → s.dev.sliceActive = true →
    exec (.levelReqDeepStandby p) s = .next (s.afterPd (refuse p cNotQuiesced 0 s.dev))) ∧
  (∀ (s : State), exec .watchPeriod s =
    .next (s.after (forEach (s.dev.usedPorts.filter s.dev.watches) (fun p => emit (.watchRp (toPort p))) s.dev))) ∧
  (∀ (s : State), s.dev.gesso.level ≠ 0 → s.dev.cfg 0x2101 3 / 2 ^ 0 % 2 = 1 → s.dev.gesso.waking = false →
    exec .wakeNLow s = .next (s.after (woken false 0 s.dev))) ∧
  (∀ (s : State) (l : LinkId), s.dev.gesso.level = 3 → s.dev.cfg 0x2101 3 / 2 ^ 1 % 2 = 1 → s.dev.gesso.waking = false →
    s.dev.linkEnabled l = true → s.dev.gesso.loop = true →
    exec (.canWakePattern l (BitVec.ofNat 11 (0x780 + s.dev.gesso.nodeId.toNat)) [0x57, 0x4B]) s =
      .next (s.after (emit (.wakeN true) (woken true 1 s.dev)))) ∧
  (∀ (s : State) (l : LinkId), s.dev.gesso.level = 3 → s.dev.linkEnabled l = true →
    exec (.canDominantEdge l) s = .next (s.after { s.dev with gesso := { s.dev.gesso with loop := true } })) ∧
  (∀ (s : State), s.dev.gesso.level = 3 → s.dev.gesso.waking = false →
    exec .gessoLoopIdleStop s = .next (s.after { s.dev with gesso := { s.dev.gesso with loop := false } })) ∧
  (∀ (s : State), s.dev.gesso.vdd = true → s.dev.gesso.level ≠ 0 → s.dev.cfg 0x2101 3 / 2 ^ 2 % 2 = 1 →
    s.dev.gesso.waking = false →
    exec .vsrvRise s = .next (s.afterPd (emit (.wakeN true) (woken true 2 { s.dev with gesso := { s.dev.gesso with vsrv := true } })))) ∧
  (∀ (s : State), s.dev.gesso.vdd = false → s.dev.gesso.vsrv = false →
    exec .vsrvRise s = .next (s.afterPd (gessoPower true s.dev.gesso.straps s.dev))) ∧
  (∀ (s : State) (p : PortId), s.dev.gesso.level = 2 → s.dev.watches p = true → s.dev.cfg 0x2101 3 / 2 ^ 3 % 2 = 1 →
    s.dev.gesso.waking = false →
    exec (.attachWake p) s = .next (s.after (emit (.wakeN true) (woken true 3 s.dev)))) ∧
  (∀ (s : State) (f : FuncId), s.dev.gesso.level = 2 → s.dev.cfg 0x2101 3 / 2 ^ 4 % 2 = 1 → s.dev.gesso.waking = false →
    exec (.perstWake f) s =
      .next (s.after (emit (.wakeN true) (woken true 4 (s.dev.modFunc f (fun x => { x with perstHigh := true })))))) ∧
  (∀ (s : State) (p : PortId), s.dev.gesso.level = 2 → s.dev.busWatches p = true → s.dev.cfg 0x2101 3 / 2 ^ 5 % 2 = 1 →
    s.dev.gesso.waking = false →
    exec (.usb2BusWake p) s = .next (s.after (emit (.wakeN true) (woken true 5 s.dev)))) ∧
  (∀ (s : State), s.dev.gesso.waking = true → s.dev.gesso.wakeLow = true → s.dev.gesso.level = 2 →
    exec .wakeRailsGood s = .next (s.afterPd (beginStart 2 6 (let d := emit (.wakeN false) s.dev
      { d with gesso := { d.gesso with railsGood := true, waking := false, wakeLow := false } })))) ∧
  (∀ (s : State), s.dev.gesso.waking = true → s.dev.gesso.wakeLow = true → s.dev.gesso.level = 3 →
    exec .wakeRailsGood s = .next (s.afterPd (beginStart 1 7 (let d := emit (.wakeN false) s.dev
      { d with gesso := { d.gesso with railsGood := true, waking := false, wakeLow := false } })))) ∧
  (∀ (s : State) (p : Path) (data : List Byte), s.Owned p → data.length = 4096 → s.dev.flash.busy = false →
    exec (.stageData p data) s = .next (s.after (accept p (setObj 0x1210 6 ((s.dev.cfg 0x1210 6 + 4096) % 2 ^ 32)
      (let d := emit (.flashWrite s.dev.inactive (s.dev.cfg 0x1210 6) data)
         { s.dev with memOps := s.dev.memOps ++ [.flash s.dev.inactive (s.dev.cfg 0x1210 6) data] }
       { d with flash := { d.flash with stage := 0 } }))))) ∧
  (∀ (s : State) (p : Path), s.Owned p → s.dev.flash.busy = false →
    exec (.stageCmdErase p) s = .next (s.after (accept p { s.dev with flash := { s.dev.flash with stage := 1 } }))) ∧
  (∀ (s : State) (p : Path), s.Owned p → s.dev.flash.busy = false →
    exec (.stageCmdVerify p) s = .next (s.after (accept p { s.dev with flash := { s.dev.flash with stage := 3 } }))) ∧
  (∀ (s : State) (v m : Dword), s.dev.flash.stage = 1 → s.dev.inactive = 1 →
    exec (.stageCmdDone true v m) s = .next (s.after { s.dev with
      memOps := s.dev.memOps ++ [.erase 1], flash := { s.dev.flash with stB := 0, verB := 0, stage := 0 } })) ∧
  (∀ (s : State) (v m : Dword), s.dev.flash.stage = 3 → s.dev.inactive = 1 →
    exec (.stageCmdDone true v m) s = .next (s.after { s.dev with
      flash := { s.dev.flash with stB := 3, verB := v, stage := 4, minVersion := m } })) ∧
  (∀ (s : State) (v m : Dword), s.dev.flash.stage = 3 → s.dev.inactive = 1 →
    exec (.stageCmdDone false v m) s = .next (s.after { s.dev with flash := { s.dev.flash with stB := 2, stage := 5 } })) ∧
  (∀ (s : State) (h : HalfId) (x : BitVec 16), x.toInt < 1150 →
    exec (.thermalTrip h x) s = .next (s.afterPd (s.dev.modHalf h (fun y => { y with tj := x, tjPeak := hotter y.tjPeak x })))) ∧
  (∀ (s : State) (h : HalfId) (x : BitVec 16), 1150 ≤ x.toInt →
    exec (.thermalTrip h x) s = .next (s.afterPd (raise { c := 4, inst := h, half := h } (holdReset allGroups
      (let d := endStart (s.dev.modHalf h (fun y => { y with tj := x, tjPeak := hotter y.tjPeak x }))
       { d with gesso := { d.gesso with locked := true, thermalWait := true }, start := { d.start with st := 2, half := none } }))))) ∧
  (∀ (s : State), s.dev.gesso.thermalWait = true → s.dev.gesso.locked = true →
    exec .thermalClearStart s = .next (s.afterPd { s.dev with gesso := { s.dev.gesso with thermalWait := false } })) ∧
  (∀ (s : State), s.dev.gesso.level = 0 → (s.dev.half 0).inReset = false →
    exec .microframeBoundary s = .next (s.afterPd (boundary s.dev)))

/-- R60: PHASE in the completion written, and its change from lap to lap. -/
def Obligations.CompletionPhase : Prop :=
  (∀ (n q f : Nat) (c : Comp) (d : Dev),
    .memWrite (toFunc f) (d.slice n).pasid ((d.cq n q).base.toNat + 32 * ((d.cq n q).pi.toNat % 2 ^ (d.cq n q).sizeLog))
        (dwBytes (c.dws.take 7 ++ [if bitOf (d.cq n q).pi (d.cq n q).sizeLog then 0 else 0x80000000])) false ∈ (placeComp n q f c d).out ∧
    ((placeComp n q f c d).cq n q).pi = (d.cq n q).pi + 1) ∧
  (∀ (pi : Dword) (k : Nat), k < 32 → bitOf (pi + BitVec.ofNat 32 (2 ^ k)) k = !(bitOf pi k))

/-- R130 and R131; speeds 3 high, 1 full, 2 low, 4 and 5 SuperSpeed. -/
def Obligations.PeriodicCosts : Prop :=
  (∀ n : Nat, (28 * n ≤ 3 * stuff n) ∧ 3 * stuff n < 28 * n + 3) ∧
  (∀ mp esit mult : Nat,
    serviceCost 3 true mp esit mult = ((List.range (mult + 1)).map (fun j => 320 + stuff (min mp (esit - j * mp)))).sum ∧
    serviceCost 3 false mp esit mult = ((List.range (mult + 1)).map (fun j => 456 + stuff (min mp (esit - j * mp)))).sum ∧
    serviceCost 1 true mp esit mult = 100 + stuff esit ∧ serviceCost 1 false mp esit mult = 130 + stuff esit ∧
    serviceCost 2 false mp esit mult = 1000 + 8 * stuff esit) ∧
  (∀ (sp : Nat) (iso : Bool) (mp esit mult : Nat), sp = 4 ∨ sp = 5 → 0 < mp → ∃ p, esit ≤ p * mp ∧ p * mp < esit + mp ∧
    serviceCost sp iso mp esit mult = esit + 40 * p + 64 ∧ backCost mp esit = 32 * p + 64)

/-- The tables of R31 and R251, a row for each slice count. -/
def Obligations.SharesAndBudgets : Prop :=
  (∀ r ∈ [(1, 9216, 6144, 3072, 12288, 196), (2, 4608, 3072, 1536, 6144, 100), (4, 2304, 1536, 768, 3072, 52),
      (6, 1536, 1024, 512, 2048, 36), (8, 1152, 768, 384, 1536, 28), (12, 768, 512, 256, 1024, 20), (16, 576, 384, 192, 768, 16),
      (24, 384, 256, 128, 512, 12), (32, 288, 192, 96, 384, 12), (48, 192, 128, 64, 256, 8), (64, 144, 96, 48, 192, 8),
      (96, 96, 64, 32, 128, 8), (192, 48, 32, 16, 64, 8)],
    Config.sharePages r.1 = r.2.1 ∧ Config.shareHandles r.1 = r.2.2.1 ∧ Config.shareQueues r.1 = r.2.2.2.1 ∧
    Config.shareVectors r.1 = r.2.2.2.2.1 ∧ Config.shareContexts r.1 = r.2.2.2.2.1 ∧ 4 * Config.vecStride r.1 = r.2.2.2.2.2) ∧
  (∀ r ∈ [(1, [28320000, 28320000, 61440000, 15360000, 4608000, 72000, 1920000]),
      (2, [14160000, 14160000, 30720000, 7680000, 2304000, 36000, 960000]),
      (4, [7080000, 7080000, 15360000, 3840000, 1152000, 18000, 480000]),
      (6, [4720000, 4720000, 10240000, 2560000, 768000, 12000, 320000]),
      (8, [3540000, 3540000, 7680000, 1920000, 576000, 9000, 240000]),
      (12, [2360000, 2360000, 5120000, 1280000, 384000, 6000, 160000]),
      (16, [1770000, 1770000, 3840000, 960000, 288000, 4500, 120000]),
      (24, [1180000, 1180000, 2560000, 640000, 192000, 3000, 80000]),
      (32, [885000, 885000, 1920000, 480000, 144000, 2250, 60000]),
      (48, [590000, 590000, 1280000, 320000, 96000, 1500, 40000]),
      (64, [442500, 442500, 960000, 240000, 72000, 1125, 30000]),
      (96, [295000, 295000, 640000, 160000, 48000, 750, 20000]),
      (192, [147500, 147500, 320000, 80000, 24000, 375, 10000])],
    [1, 2, 3, 4, 5, 6, 7].map (Config.budget r.1) = r.2)

/-- R450, for a LOCK_CLEAR that the dictionary server takes, and for what it does however it came (clearLock). -/
def Obligations.LockClear : Prop :=
  let cleared (d : Dev) : Dev := raise { c := 5 } { d with
    gesso := { d.gesso with locked := false, failedStarts := 0, frFatal := none }
    start := { d.start with st := 1, type := 1, waitTrigger := 9 } }
  (∀ (s : State) (p : Path) (o : Obj), s.Accepts p 0x1220 4 [0xA5] o → o.cls = .act → s.dev.gesso.locked = false →
    exec (.lockClear p 0xA5) s = .next (s.afterPd
      (let d := accept p s.dev
       { d with gesso := { d.gesso with failedStarts := 0 } }))) ∧
  (∀ (d : Dev), d.gesso.locked = true → (cleared d).canStart = true → clearLock d = beginStart 1 9 (cleared d)) ∧
  (∀ (d : Dev), d.gesso.locked = true → (cleared d).canStart = false →
    clearLock d = cleared d ∧ (clearLock d).gesso.locked = false ∧ (clearLock d).gesso.failedStarts = 0 ∧
    (clearLock d).gesso.frFatal = none ∧ (clearLock d).start.waitTrigger = 9)

/-- R395, R396, R420 and R423 for one raise of an event. -/
def Obligations.EventsAndFaultRecords : Prop :=
  (∀ (e : Ev) (d : Dev),
    tabGet 0 (raise e d).events.count e.c = tabGet 0 d.events.count e.c + 1 ∧
    tabGet 0 (raise e d).events.seconds e.c = d.gesso.seconds ∧
    tabGet 0xFFFF (raise e d).events.inst e.c = BitVec.ofNat 16 e.inst ∧
    (∀ c, c ≠ e.c → tabGet 0 (raise e d).events.count c = tabGet 0 d.events.count c ∧
      tabGet 0 (raise e d).events.seconds c = tabGet 0 d.events.seconds c ∧
      tabGet 0xFFFF (raise e d).events.inst c = tabGet 0xFFFF d.events.inst c) ∧
    (∀ c < 256, bitOf (raise e d).events.pending c = (bitOf d.events.pending c || c == e.c))) ∧
  (∀ (e : Ev) (d : Dev), Config.causeSeverity e.c = 0 → (raise e d).gesso = d.gesso) ∧
  (∀ (e : Ev) (d : Dev), Config.causeSeverity e.c ≠ 0 →
    let r := tabGet {} (raise e d).gesso.fr d.gesso.frNext
    r.valid = true ∧ r.severity = Config.causeSeverity e.c ∧ r.cause = e.c ∧ r.seq = d.gesso.frTotal ∧
    r.seconds = d.gesso.seconds ∧ r.sub = d.gesso.subsec.toNat ∧ r.inst = BitVec.ofNat 16 e.inst ∧
    r.slice = BitVec.ofNat 8 e.slice ∧ r.code = BitVec.ofNat 8 e.code ∧
    (∀ k, k ≠ d.gesso.frNext → tabGet {} (raise e d).gesso.fr k = tabGet {} d.gesso.fr k) ∧
    (raise e d).gesso.frNext = (d.gesso.frNext + 1) % 63 ∧ (raise e d).gesso.frTotal = d.gesso.frTotal + 1 ∧
    (Config.causeSeverity e.c = 3 → d.gesso.frFatal = none → (raise e d).gesso.frFatal = some r) ∧
    ((Config.causeSeverity e.c ≠ 3 ∨ d.gesso.frFatal ≠ none) → (raise e d).gesso.frFatal = d.gesso.frFatal))

/-- R218: the cut of one range. The requests tile the range, and only multiples of W separate them. -/
def Obligations.FragmentCuts : Prop :=
  (∀ (w a len : Nat), 0 < w →
    ((cuts w a len).flatMap (fun c => (List.range c.2).map (fun i => c.1 + i))) = (List.range len).map (fun i => a + i) ∧
    (∀ c ∈ cuts w a len, 0 < c.2 ∧ c.1 / w = (c.1 + c.2 - 1) / w ∧ (c.1 = a ∨ c.1 % w = 0) ∧
      (c.1 + c.2 = a + len ∨ (c.1 + c.2) % w = 0))) ∧
  (∀ (d : Dev) (f : Nat), d.wWrite f = min (d.func f).mps 512 ∧ d.wRead f = min (d.func f).mrrs 512)

/-- R44: the two directions of the numbering agree, and it ascends. -/
def Obligations.LocalPortNumbers : Prop :=
  (∀ (d : Dev) (p : Nat), p < 192 →
    1 ≤ d.localPort p ∧ d.localPort p ≤ (d.portsOf (d.owner p)).length ∧ d.physPort (d.owner p) (d.localPort p) = some p) ∧
  (∀ (d : Dev) (n lp : Nat), 1 ≤ lp → lp ≤ (d.portsOf n).length →
    ∃ p, d.physPort n lp = some p ∧ p < 192 ∧ d.owner p = n ∧ d.localPort p = lp) ∧
  (∀ (d : Dev) (n lp : Nat), (lp = 0 ∨ (d.portsOf n).length < lp) → d.physPort n lp = none) ∧
  (∀ (d : Dev) (p q : Nat), p < q → q < 192 → d.owner p = d.owner q → d.localPort p < d.localPort q)

/-- R234, with the members that carry traffic as those of R27 (carries) that half h reaches. -/
def Obligations.PathChoice : Prop :=
  ∀ (d : Dev) (n h : Nat),
    let ok := fun f => d.carries n f && d.reach h f
    let ms := d.members (d.slice n).group
    let pin := d.cfg (0x4000 + n) 0x11
    (pin ∈ ms → ok pin = true → d.pickLink n h = some pin) ∧
    (¬(pin ∈ ms ∧ ok pin = true) → ∀ f, (ms.filter (fun f => halfOfFunc f == h)).find? ok = some f → d.pickLink n h = some f) ∧
    (¬(pin ∈ ms ∧ ok pin = true) → (∀ f ∈ ms, halfOfFunc f = h → ok f = false) → d.pickLink n h = ms.find? ok) ∧
    (d.pickLink n h = none ↔ ∀ f ∈ ms, ok f = false)

/-- The rows of R26 whose trigger is a write of HG_RETURN. -/
def Obligations.HandshakeReturn : Prop :=
  (∀ (s : State) (f : FuncId) (g : Nat) (upper : Dword), (halfOfFunc f = 0 ∨ s.dev.sinopia.up = true) → s.dev.groupOf f = some g →
    s.dev.hgSt g = .pending →
    ∃ t, exec (.hgReturn f upper) s = .next t ∧ (t.dev.group g).nonce = none ∧
      (f.val = (s.dev.group g).startPort.toNat → t.dev.hgSt g = .failed ∧ (t.dev.group g).cause = 3) ∧
      (f.val ≠ (s.dev.group g).startPort.toNat → (s.dev.group g).nonce = some (upper ++ (s.dev.func f).retLo) → t.dev.hgSt g = .proven) ∧
      (f.val ≠ (s.dev.group g).startPort.toNat → (s.dev.group g).nonce ≠ some (upper ++ (s.dev.func f).retLo) →
        t.dev.hgSt g = .failed ∧ (t.dev.group g).cause = 2)) ∧
  (∀ (s : State) (f : FuncId) (upper : Dword),
    (∀ g, s.dev.groupOf f = some g → s.dev.hgSt g ≠ .pending) ∨ (halfOfFunc f = 1 ∧ s.dev.sinopia.up = false) →
    exec (.hgReturn f upper) s = .next (s.after s.dev))

/-- R5, R6 and the storing parts of R7 and R8; k: the key of another field. -/
def Obligations.FieldClasses : Prop :=
  (∀ (c : Cls) (idx sub v : Nat) (d : Dev), (storeObj c idx sub v d).stored idx sub = v ∧
    (∀ i j, okey i j ≠ okey idx sub → (storeObj c idx sub v d).stored i j = d.stored i j ∧ (storeObj c idx sub v d).cfg i j = d.cfg i j)) ∧
  (∀ (idx sub v : Nat) (d : Dev), (storeObj .l idx sub v d).cfg idx sub = d.cfg idx sub ∧
    (storeObj .q idx sub v d).cfg idx sub = v ∧ (storeObj .b idx sub v d).cfg idx sub = d.cfg idx sub) ∧
  (∀ (idx sub v : Nat) (d : Dev), idx < 0x10000 → sub < 256 → (∀ o, d.objOf idx sub = some o → o.acc ≠ .wo) →
    (commitDict (storeObj .l idx sub v d)).cfg idx sub = v) ∧
  (∀ (idx sub : Nat) (d : Dev), okey idx sub ∉ d.dict.dirty → (commitDict d).cfg idx sub = d.cfg idx sub) ∧
  (∀ (d : Dev), (commitDict d).dict.dirty = [])

/-- R401 rule 3 for the rows that only the owner may send; the owner is the path that 0x2004:01 names (R405). -/
def Obligations.OnlyTheOwnerConfigures : Prop :=
  ∀ (s : State) (p : Path), s.Serves p → s.dev.isOwner p = false →
    let pd : Outc := .next (s.afterPd (refuse p cNotPermitted 7 s.dev))
    let no : Outc := .next (s.after (refuse p cNotPermitted 7 s.dev))
    exec (.startCmdWarm p) s = pd ∧ exec (.startCmdCold p) s = pd ∧ exec (.levelReqAttachWatch p) s = pd ∧
    exec (.levelReqDeepStandby p) s = pd ∧ (∀ g, exec (.pgOn p g) s = pd) ∧ (∀ g, exec (.pgSleep p g) s = pd) ∧
    (∀ g, exec (.pgOff p g) s = pd) ∧ (∀ u, exec (.upOn p u) s = no) ∧ (∀ u, exec (.upOff p u) s = no) ∧
    (∀ h m, exec (.bankOffReq p h m) s = no) ∧ (∀ c, exec (.updateCmdCore p c) s = pd) ∧ exec (.updateCmdAll p) s = pd ∧
    (∀ v b w, exec (.builderReload p v b w) s = no) ∧ exec (.stageCmdErase p) s = no ∧ exec (.stageCmdVerify p) s = no ∧
    (∀ b, exec (.sliceCreate p b) s = pd ∧ exec (.sliceQuiesce p b) s = pd ∧ exec (.sliceFreeze p b) s = pd ∧
      exec (.sliceRehome p b) s = pd ∧ exec (.sliceThaw p b) s = pd ∧ exec (.sliceExport p b) s = pd ∧
      (∀ image, exec (.sliceImport p b image) s = pd) ∧ exec (.sliceReset p b) s = pd ∧ exec (.sliceRemove p b) s = pd ∧
      exec (.portAssign p b) s = pd)

/-- R448, R449 and R478: what the two ways into Safe hold leave. FAILED_STARTS counts the failed starts of the last 600 s. -/
def Obligations.SafeHold : Prop :=
  let held (t : Dev) : Prop := (t.half 0).inReset = true ∧ (t.half 1).inReset = true ∧ (∀ g < 24, (t.pg g).stopLow = true) ∧
    (∀ n, (t.slice n).st = .free) ∧ t.start.deviceReady = false
  (∀ (d : Dev) (h : Nat) (x : BitVec 16), 1150 ≤ x.toInt →
    let t := thermalTrip h x d
    held t ∧ t.gesso.locked = true ∧ t.start.st = 2 ∧ t.gesso.failedStarts = d.gesso.failedStarts ∧
    ∃ k, let r := tabGet {} t.gesso.fr k
      r.valid = true ∧ r.cause = 4 ∧ r.severity = 3 ∧ r.unit = 0 ∧ r.inst = BitVec.ofNat 16 h) ∧
  (∀ (d : Dev) (okA okB : Bool) (us : Dword),
    let t := failStart okA okB us d
    held t ∧ t.gesso.failedStarts = d.gesso.failedStarts + 1 ∧
    (2 ≤ d.gesso.failedStarts → t.gesso.locked = true ∧ t.start.st = 2 ∧ t.start.retryDue = false) ∧
    (d.gesso.failedStarts < 2 → t.gesso.locked = d.gesso.locked ∧ t.start.retryDue = true))

/-- The pages of R38 are one slice's: what is written there reaches no other slice. -/
def Obligations.DoorbellsStayInTheSlice : Prop :=
  ∀ (s : State) (f : FuncId) (n : SliceId) (i : Instr), ((∃ v, i = .wqDoorbell f n v) ∨ (∃ v, i = .epDoorbell f n v) ∨ ∃ v, i = .qSelect f n v) →
    ∃ t, exec i s = .next t ∧ (∀ m, m ≠ n.val → t.dev.slice m = s.dev.slice m ∧ t.dev.eng m = s.dev.eng m) ∧
      (∀ g, t.dev.pg g = s.dev.pg g ∨ ((s.dev.pg g).st = 1 ∧ t.dev.pg g = { s.dev.pg g with st := 4 })) ∧
      t.dev.funcs = s.dev.funcs ∧ t.dev.groups = s.dev.groups ∧ t.dev.halves = s.dev.halves ∧
      t.dev.cores = s.dev.cores ∧ t.dev.cans = s.dev.cans ∧ t.dev.mbox = s.dev.mbox ∧ t.dev.events = s.dev.events ∧
      t.dev.dict = s.dev.dict ∧ t.dev.gesso = s.dev.gesso

/-- R255, with the negative credit of R258 added to the debt. -/
def Obligations.PaletteRenewal : Prop :=
  ∀ (d : Dev) (n : Nat),
    (n ∈ d.notFree → ∀ (r h : Nat), 1 ≤ r → r ≤ 7 → (h = 0 ∨ (d.S = 1 ∧ h = 1)) →
      let k := d.palKey r h
      ((palPeriod d).pal n k).counter =
        (d.palBudget n r h : Int) - ((max 0 (-(d.pal n k).counter)) + (max 0 (-(d.pal n k).far))) ∧
      ((palPeriod d).pal n k).counter ≤ d.palBudget n r h ∧ ((palPeriod d).pal n k).far = 0) ∧
    (n ∉ d.notFree → ∀ k, (palPeriod d).pal n k = d.pal n k)

/-- R407 on lengths and R410 on repeats. -/
def Obligations.HerobFrames : Prop :=
  (∀ bs : List Byte, bs.length ≤ 64 →
    let dlcs := [0, 1, 2, 3, 4, 5, 6, 7, 8, 12, 16, 20, 24, 32, 48, 64]
    let out := padTo (canDlc bs.length) bs
    out.length ∈ dlcs ∧ bs.length ≤ out.length ∧ (∀ n ∈ dlcs, bs.length ≤ n → out.length ≤ n) ∧
    out.take bs.length = bs ∧ ∀ b ∈ out.drop bs.length, b = 0) ∧
  (∀ (s : State) (l : LinkId) (fr g : HFrame) (cmd : Nat) (image : List Dword) (i : Instr), s.dev.canServes l = true →
    (s.dev.can l).lastFrame = some (cmd, g) → g.txn = fr.txn → g.index = fr.index → g.sub = fr.sub → g.seq = fr.seq →
    (s.dev.can l).cur = none → (s.dev.can l).waiting = [] →
    i ∈ [Instr.read l fr, .segGet l fr, .writeSegStart l fr] →
    exec i s = .next (s.after (canSend l 9 (s.dev.can l).lastResp s.dev))) ∧
  (∀ (s : State) (l : LinkId) (fr g : HFrame) (cmd : Nat) (image : List Dword) (i : Instr), s.dev.canServes l = true →
    (s.dev.can l).lastFrame = some (cmd, g) → g.txn = fr.txn → g.index = fr.index → g.sub = fr.sub → g.seq = fr.seq →
    (s.dev.can l).cur = none → (s.dev.can l).waiting = [] →
    i ∈ [Instr.write l fr, .segPut l fr image] →
    exec i s = .next (s.afterPd (canSend l 9 (s.dev.can l).lastResp s.dev)))

/-- R446: where the data of STAGE_DATA goes; inactive is the partition not in use. -/
def Obligations.StagedBytes : Prop :=
  let part := fun (m : Memory) (k : Nat) => if k = 0 then m.flashA else m.flashB
  (∀ (s : State) (p : Path) (data : List Byte), s.Settled → s.Owned p → data.length = 4096 → s.dev.flash.busy = false →
    let x := s.dev.inactive
    let off := s.dev.cfg 0x1210 6
    ∃ t, exec (.stageData p data) s = .next t ∧
      (∀ k, (h : k < data.length) → memGet (part t.mem x) (off + k) = data[k]) ∧
      (∀ a, (a < off ∨ off + 4096 ≤ a) → memGet (part t.mem x) a = memGet (part s.mem x) a) ∧
      (∀ a, memGet (part t.mem (1 - x)) a = memGet (part s.mem (1 - x)) a ∧ memGet t.mem.req a = memGet s.mem.req a) ∧
      (p ≠ .admin → ∀ a, memGet t.mem.resp a = memGet s.mem.resp a) ∧
      t.dev.cfg 0x1210 6 = (off + 4096) % 2 ^ 32) ∧
  (∀ (s : State) (p : Path) (data : List Byte), s.Settled → s.Owned p → s.dev.flash.busy = true →
    ∃ t, exec (.stageData p data) s = .next t ∧ t.mem.flashA = s.mem.flashA ∧ t.mem.flashB = s.mem.flashB)

/-- OBJECT_WRITE and OBJECT_READ complete (R5, R6, R8, R400, R401, R403): what is stored, what is in use, and what is answered. A write
of EVENT_MASK's kind that is write-only (L, acc wo) keeps its value until the boundary too; host groups and DATA_ROLE's neighbour
0x31xx:04 have statements of their own. -/
def Obligations.ObjectAccessCompletes : Prop :=
  let plain (idx : Nat) (sub : Nat) : Prop := ¬(0x2010 ≤ idx ∧ idx ≤ 0x2013) ∧ ¬(0x3100 ≤ idx ∧ idx < 0x31C0 ∧ sub = 4)
  (∀ (s : State) (p : Path) (idx : BitVec 16) (sub : Byte) (v : List Byte) (image : List Dword) (o : Obj),
    s.Accepts p idx.toNat sub.toNat v o → plain idx.toNat sub.toNat → o.acc ≠ .wo → o.cls = .l ∨ o.cls = .q ∨ o.cls = .b →
    ∃ t, exec (.objectWrite p idx sub v image) s = .next t ∧ t.dev.stored idx.toNat sub.toNat = ofBytes v ∧
      (o.cls = .l → t.dev.dict.dirty.contains (okey idx.toNat sub.toNat) = true ∧ t.dev.dict.inUse = s.dev.dict.inUse) ∧
      (o.cls = .q → t.dev.cfg idx.toNat sub.toNat = ofBytes v ∧ t.dev.dict.dirty = s.dev.dict.dirty) ∧
      (o.cls = .b → t.dev.dict.inUse = s.dev.dict.inUse ∧ t.dev.dict.dirty = s.dev.dict.dirty) ∧
      t.dev.groups = s.dev.groups ∧ t.dev.start = s.dev.start ∧ t.dev.flash = s.dev.flash ∧ t.dev.update = s.dev.update) ∧
  (∀ (s : State) (p : Path) (idx : BitVec 16) (sub : Byte) (o : Obj), s.Serves p → s.dev.idxExists idx.toNat = true →
    s.dev.objOf idx.toNat sub.toNat = some o → o.acc ≠ .wo →
    exec (.objectRead p idx sub) s =
      .next (s.after (emit (.answer p cOk 0 (s.dev.objRead idx.toNat sub.toNat o)) s.dev)))

/-- ADMIN_READ, ADMIN_WRITE, ADMIN_MANAGER_OPERATION complete (R400, R401, R413, R415, R416): the request is taken from the mailbox's
registers and its buffer, and answered there. -/
def Obligations.MailboxRequestsComplete : Prop :=
  ∀ (s : State) (f : FuncId), s.dev.isManager f = true → s.dev.gesso.level = 0 → s.dev.start.st ≠ 2 →
    (s.dev.half 0).inReset = false → s.dev.mbox.busy = false → s.dev.serverOut = false →
    let x := s.dev.mbox
    let d : Dev := { s.dev with mbox := { x with busy := true, done := false, overrun := false, rseq := x.seq } }
    let bs := memRead s.mem.req 0 (min x.length.toNat 4097)
    let answered (data : List Byte) (e : Dev) : Dev := { e with
      mbox := { e.mbox with busy := false, done := true, code := 0x01, reason := 0, rlength := BitVec.ofNat 16 data.length }
      memOps := e.memOps ++ [.resp 0 data] }
    (∀ o, x.op = 1 → d.idxExists x.index.toNat = true → d.objOf x.index.toNat x.sub.toNat = some o → o.acc ≠ .wo →
      exec (.adminRead f) s = .next (s.afterPd (answered (d.objRead x.index.toNat x.sub.toNat o) d))) ∧
    (∀ o, x.op = 2 → d.writeBad (d.isOwner .admin) x.index.toNat x.sub.toNat bs = none → isBuilderIdx x.index.toNat = false →
      d.objOf x.index.toNat x.sub.toNat = some o → o.cls = .l ∨ o.cls = .q ∨ o.cls = .b → o.acc ≠ .wo →
      ¬(0x2010 ≤ x.index.toNat ∧ x.index.toNat ≤ 0x2013) →
      ¬(0x3100 ≤ x.index.toNat ∧ x.index.toNat < 0x31C0 ∧ x.sub.toNat = 4) →
      exec (.adminWrite f) s = .next (s.afterPd (answered [] (storeObj o.cls x.index.toNat x.sub.toNat (ofBytes bs) d)))) ∧
    (∀ (image : List Dword), x.op = 3 → d.writeBad (d.isOwner .admin) 0x2030 1 bs = none →
      (0x40 ≤ blockOp (bytesDw bs) ∧ blockOp (bytesDw bs) ≤ 0x4A) → blockReserved (bytesDw bs) = false →
      exec (.adminManagerOperation f image) s =
        .next (s.afterPd (managerOp .admin (blockOp (bytesDw bs)) (blockOf (bytesDw bs)) image d)))

/-- SAVE, RESTORE, SAVE_DONE, EVENT_ACK, STOP_MASK, FENCE_SLICE, FENCE_ALL, LOCK_CLEAR, DEVICE_RESET complete (R277, R346, R406, R417,
R423, R426, R439, R448, R450). -/
def Obligations.ActionObjectsComplete : Prop :=
  (∀ (s : State) (p : Path) (o : Obj), s.Accepts p 0x2005 1 [0xA5] o → o.cls = .act → s.dev.flash.saving = none →
    ∃ t, exec (.save p 0xA5) s = .next t ∧ t.dev.flash = { s.dev.flash with saving := some (true, p), save := 1 } ∧
      t.dev.dict.next = s.dev.savedShadow ∧ t.dev.dict.inUse = s.dev.dict.inUse ∧ t.dev.dict.shadow = s.dev.dict.shadow) ∧
  (∀ (s : State) (p : Path) (o : Obj), s.Accepts p 0x2005 2 [0xA5] o → o.cls = .act → s.dev.flash.saving = none →
    ∃ t, exec (.restore p 0xA5) s = .next t ∧ t.dev.flash = { s.dev.flash with saving := some (false, p), save := 1 } ∧
      t.dev.dict.next = [] ∧ t.dev.dict.inUse = s.dev.dict.inUse ∧ t.dev.dict.shadow = s.dev.dict.shadow) ∧
  (∀ (s : State) (b : Bool) (p : Path), s.dev.flash.saving = some (b, p) →
    ∃ t, exec (.saveDone true) s = .next t ∧ t.dev.flash = { s.dev.flash with saving := none, save := 2 } ∧
      t.dev.dict = { s.dev.dict with saved := s.dev.dict.next, jold := [], next := [] }) ∧
  (∀ (s : State) (p : Path) (v : BitVec 16) (o : Obj), s.Accepts p 0x6000 2 (leBytes 2 v.toNat) o → o.cls = .act → v.toNat < 256 →
    exec (.eventAck p v) s = .next (s.afterPd (accept p { s.dev with events := { s.dev.events with
      pending := s.dev.events.pending &&& ~~~(1#256 <<< v.toNat) } }))) ∧
  (∀ (s : State) (p : Path) (mask : Dword) (o : Obj), s.Accepts p 0x1220 1 (leBytes 4 mask.toNat) o → o.cls = .act →
    exec (.stopMask p mask) s = .next (s.afterPd (accept p (forEach allGroups (fun g d =>
      let on := decide (mask.toNat / 2 ^ g % 2 = 1)
      let d := if on && !(d.pg g).stop then raise { c := 162, inst := g, half := g / 12 } d else d
      driveStop g (journalPut (0x3200 + g) 2 (b2n on) (d.modPg g (fun x => { x with stop := on })))) s.dev)))) ∧
  (∀ (s : State) (p : Path) (n : Byte) (o : Obj), s.Accepts p 0x1220 2 [n] o → o.cls = .act →
    exec (.fenceSlice p n) s = .next (s.afterPd (fence [n.toNat] (some (.obj p)) s.dev))) ∧
  (∀ (s : State) (p : Path) (o : Obj), s.Accepts p 0x1220 3 [1] o → o.cls = .act →
    exec (.fenceAll p 1) s = .next (s.afterPd (fence s.dev.notFree (some (.obj p)) s.dev))) ∧
  (∀ (s : State) (p : Path) (o : Obj), s.Accepts p 0x1220 4 [0xA5] o → o.cls = .act → (accept p s.dev).gesso.locked = true →
    exec (.lockClear p 0xA5) s = .next (s.afterPd (beginCold 9 (raise { c := 5 } { accept p s.dev with
      gesso := { (accept p s.dev).gesso with locked := false, failedStarts := 0, frFatal := none }
      start := { (accept p s.dev).start with st := 1, type := 1, waitTrigger := 9 } })))) ∧
  (∀ (s : State) (p : Path) (o : Obj), s.Accepts p 0x1220 5 [0xA5] o → o.cls = .act →
    exec (.deviceReset p 0xA5) s = .next (s.afterPd (beginCold 3 (let d := holdReset allGroups (accept p s.dev)
      { d with start := { d.start with waitTrigger := 3 } }))))

/-- LEVEL_REQ_ATTACH_WATCH, LEVEL_REQ_DEEP_STANDBY, WATCH_PERIOD, WAKE_N_LOW, CAN_WAKE_PATTERN, CAN_DOMINANT_EDGE,
GESSO_LOOP_IDLE_STOP, VSRV_RISE, ATTACH_WAKE, PERST_WAKE, USB2_BUS_WAKE, WAKE_RAILS_GOOD complete (R435 to R441, R446). -/
def Obligations.StandbyLevelsComplete : Prop :=
  let woken (low : Bool) (bit : Nat) (d : Dev) : Dev :=
    { d with gesso := { d.gesso with waking := true, lastWake := bit, wakeAt := d.now, wakeLow := low, loop := true } }
  (∀ (s : State) (p : Path), s.Owned p → s.dev.sliceActive = false → s.dev.startBusy = false →
    ∃ e : Dev, exec (.levelReqAttachWatch p) s = .next (s.afterPd (accept p e)) ∧ e = attachWatch (upstreamOff s.dev) ∧
      e.gesso.level = 2 ∧ e.start.deviceReady = false ∧ e.cores = [] ∧ e.sinopia.up = false ∧
      ∀ h < 2, (e.half h).easel = {} ∧ (e.half h).wash = []) ∧
  (∀ (s : State) (p : Path), s.Owned p → s.dev.sliceActive = false → s.dev.startBusy = false →
    ∃ e : Dev, exec (.levelReqDeepStandby p) s = .next (s.afterPd e) ∧ e = deepStandby (accept p (upstreamOff s.dev)) ∧
      e.gesso.level = 3 ∧ e.gesso.loop = false ∧ e.start.deviceReady = false) ∧
  (∀ (s : State), ∃ t, exec .watchPeriod s = .next t ∧
    t = s.after (forEach (s.dev.usedPorts.filter s.dev.watches) (fun p => emit (.watchRp (toPort p))) s.dev)) ∧
  (∀ (s : State) (l : LinkId), s.dev.gesso.level = 3 → s.dev.linkEnabled l = true →
    ∃ t, exec (.canDominantEdge l) s = .next t ∧ t = s.after { s.dev with gesso := { s.dev.gesso with loop := true } }) ∧
  (∀ (s : State), s.dev.gesso.level = 3 → s.dev.gesso.waking = false →
    ∃ t, exec .gessoLoopIdleStop s = .next t ∧ t = s.after { s.dev with gesso := { s.dev.gesso with loop := false } }) ∧
  (∀ (s : State), s.dev.gesso.level ≠ 0 → s.dev.cfg 0x2101 3 / 2 ^ 0 % 2 = 1 → s.dev.gesso.waking = false →
    ∃ t, exec .wakeNLow s = .next t ∧ t = s.after (woken false 0 s.dev)) ∧
  (∀ (s : State) (l : LinkId), s.dev.gesso.level = 3 → s.dev.cfg 0x2101 3 / 2 ^ 1 % 2 = 1 → s.dev.gesso.waking = false →
    s.dev.linkEnabled l = true → s.dev.gesso.loop = true →
    ∃ t, exec (.canWakePattern l (BitVec.ofNat 11 (0x780 + s.dev.gesso.nodeId.toNat)) [0x57, 0x4B]) s = .next t ∧
      t = s.after (emit (.wakeN true) (woken true 1 s.dev))) ∧
  (∀ (s : State), s.dev.gesso.vdd = true → s.dev.gesso.level ≠ 0 → s.dev.cfg 0x2101 3 / 2 ^ 2 % 2 = 1 →
    s.dev.gesso.waking = false →
    ∃ t, exec .vsrvRise s = .next t ∧
      t = s.afterPd (emit (.wakeN true) (woken true 2 { s.dev with gesso := { s.dev.gesso with vsrv := true } }))) ∧
  (∀ (s : State) (p : PortId), s.dev.gesso.level = 2 → s.dev.watches p = true → s.dev.cfg 0x2101 3 / 2 ^ 3 % 2 = 1 →
    s.dev.gesso.waking = false →
    ∃ t, exec (.attachWake p) s = .next t ∧ t = s.after (emit (.wakeN true) (woken true 3 s.dev))) ∧
  (∀ (s : State) (f : FuncId), s.dev.gesso.level = 2 → s.dev.cfg 0x2101 3 / 2 ^ 4 % 2 = 1 → s.dev.gesso.waking = false →
    ∃ t, exec (.perstWake f) s = .next t ∧
      t = s.after (emit (.wakeN true) (woken true 4 (s.dev.modFunc f (fun x => { x with perstHigh := true }))))) ∧
  (∀ (s : State) (p : PortId), s.dev.gesso.level = 2 → s.dev.busWatches p = true → s.dev.cfg 0x2101 3 / 2 ^ 5 % 2 = 1 →
    s.dev.gesso.waking = false →
    ∃ t, exec (.usb2BusWake p) s = .next t ∧ t = s.after (emit (.wakeN true) (woken true 5 s.dev))) ∧
  (∀ (s : State), s.dev.gesso.waking = true → s.dev.gesso.wakeLow = true → s.dev.gesso.level = 2 ∨ s.dev.gesso.level = 3 →
    ∃ e : Dev, exec .wakeRailsGood s = .next (s.afterPd e) ∧ .wakeN false ∈ (emit (.wakeN false) s.dev).out ∧
      e = beginStart (if s.dev.gesso.level = 2 then 2 else 1) (if s.dev.gesso.level = 2 then 6 else 7)
        (let d := emit (.wakeN false) s.dev
         { d with gesso := { d.gesso with railsGood := true, waking := false, wakeLow := false } }) ∧
      e.gesso.level = 0 ∧ e.gesso.waking = false ∧ e.start.trigger = (if s.dev.gesso.level = 2 then 6 else 7) ∧
      e.start.type = (if s.dev.gesso.level = 2 then 2 else 1) ∧ e.start.deviceReady = false ∧ (e.start.st = 1 ∨ e.start.st = 2))

/-- STAGE_CMD_ERASE, STAGE_CMD_VERIFY, STAGE_CMD_DONE, THERMAL_TRIP, THERMAL_CLEAR_START complete (R459, R460, R477, R478). -/
def Obligations.StagingAndTripComplete : Prop :=
  (∀ (s : State) (p : Path), s.Settled → s.Owned p → s.dev.flash.busy = false →
    (∃ t, exec (.stageCmdErase p) s = .next t ∧ t.dev.flash = { s.dev.flash with stage := 1 } ∧ t.dev.dict = s.dev.dict ∧
      t.dev.start = s.dev.start ∧ t.mem = s.mem) ∧
    (∃ t, exec (.stageCmdVerify p) s = .next t ∧ t.dev.flash = { s.dev.flash with stage := 3 } ∧ t.dev.dict = s.dev.dict ∧
      t.dev.start = s.dev.start ∧ t.mem = s.mem)) ∧
  (∀ (s : State) (v m : Dword), s.Settled → s.dev.flash.stage = 1 → s.dev.inactive = 1 →
    ∃ t, exec (.stageCmdDone true v m) s = .next t ∧ t.dev.flash = { s.dev.flash with stB := 0, verB := 0, stage := 0 } ∧
      t.mem = { s.mem with flashB := [] }) ∧
  (∀ (s : State) (v m : Dword), s.Settled → s.dev.flash.stage = 3 → s.dev.inactive = 1 →
    (∃ t, exec (.stageCmdDone true v m) s = .next t ∧ t.dev.flash = { s.dev.flash with stB := 3, verB := v, stage := 4, minVersion := m } ∧
      t.mem = s.mem) ∧
    (∃ t, exec (.stageCmdDone false v m) s = .next t ∧ t.dev.flash = { s.dev.flash with stB := 2, stage := 5 } ∧ t.mem = s.mem)) ∧
  (∀ (s : State) (h : HalfId) (x : BitVec 16), x.toInt < 1150 →
    exec (.thermalTrip h x) s = .next (s.afterPd (s.dev.modHalf h (fun y => { y with
      tj := x, tjPeak := if x.toInt < y.tjPeak.toInt then y.tjPeak else x })))) ∧
  (∀ (s : State) (h : HalfId) (x : BitVec 16), 1150 ≤ x.toInt →
    ∃ t, exec (.thermalTrip h x) s = .next t ∧ t.dev.start.st = 2 ∧ t.dev.start.deviceReady = false ∧ t.dev.start.retryDue = false) ∧
  (∀ (s : State), s.dev.gesso.thermalWait = true → s.dev.gesso.locked = true →
    exec .thermalClearStart s = .next (s.afterPd { s.dev with gesso := { s.dev.gesso with thermalWait := false } }))

/-- MICROFRAME_BOUNDARY, EP_PUSH taken, PSL_ALERT with a stage present (R5, R62, R70, R128, R129, R340, R342). -/
def Obligations.BoundaryPushAlertComplete : Prop :=
  (∀ s : State, s.dev.gesso.level = 0 → (s.dev.half 0).inReset = false →
    ∃ t, exec .microframeBoundary s = .next t ∧
      let d1 := forEach ([0, 1].filter s.dev.counts) (fun h => Dev.modHalf h (fun x => { x with mf := x.mf + 1 })) s.dev
      (∀ h < 2, (d1.half h).mf = (s.dev.half h).mf + (if s.dev.counts h then 1 else 0)) ∧
      let d2 := repath (fun d => commitHandshakes (commitDict d)) (commitFuncs d1)
      let d3 := palPeriod (forEach d2.notFree commitQueues d2)
      let d4 := forEach d2.notFree (fun n d => reissueHalf n 1 (reissueHalf n 0 d)) d3
      let d5 := forEach d2.notFree stopPeriodic (forEach d2.notFree applyCommits d4)
      let d6 := forEach (d5.usedPorts.filter (fun p => d5.counts (halfOfPort p))) portMicro d5
      t = s.afterPd (serveHeld (forEach [0, 1, 2, 3] upDrained (forEach allGroups pollGroup (syncOut d6))))) ∧
  (∀ (s : State) (f : FuncId) (n : SliceId) (e : List Dword) (h k st : Nat) (r : Ring),
    h = bitsOf (qwAt e 8) 12 0 → k = bitsOf (qwAt e 8) 20 16 → st = bitsOf (qwAt e 8) 40 32 → r = s.dev.ring n h k st →
    s.dev.shows f n = true → s.dev.epAccepts n h k st = true →
    (s.dev.ep n h k).cfg.streams = false ∨ (s.dev.ep n h k).bus.curStream = st →
    r.loaded = true → r.rdOut = false → r.bad = none → r.failed = none → r.held.length < 8 → (qwAt e 10).toNat = r.fetch →
    teCycle (e.take 8) = r.fcyc → (∀ i < 4, dwAt e (12 + i) = 0) → teType (e.take 8) ≠ 5 →
    teReason (s.dev.ep n h k).cfg r.fetch { first := r.cFirst, due := r.cDue, setup := r.cSetup, sum := r.cSum, links := r.cLinks } (e.take 8) = 0 →
    ∃ u : Dev, exec (.epPush f n e) s = .next (s.after (pump n h k st false u)) ∧
      u = (useCtx n h k ((wakeBus (s.dev.handle n h).port (speedSs (s.dev.handle n h).speed) false (pgWake (s.dev.handle n h).port s.dev)).modEp n h k
        (fun x => { x with st := .running }))).modRing n h k st (fun _ => u.ring n h k st) ∧
      (u.ring n h k st).held = r.held ++ [{
        addr := r.fetch, dws := e.take 8, mf := s.dev.mf (s.dev.epHalf n h), links := r.cLinks }] ∧
      (u.ring n h k st).fetch = r.fetch + 32 ∧ (u.ring n h k st).fcyc = r.fcyc ∧ (u.ring n h k st).rdOut = false ∧
      (u.ring n h k st).bad = none) ∧
  (∀ (s : State) (g : GroupId) (k : Nat), k < 8 → (s.dev.port (8 * g + k)).stage.present = true → (s.dev.pg g).st ≠ 3 →
    ∃ u : Dev, exec (.pslAlert g) s = .next (s.afterPd u) ∧ (u.pg g).alerts = (s.dev.pg g).alerts + 1 ∧
      pslFrame k 8 3 ∈ (u.pg g).frames)
end

