-- ==== Sys2Proof/Laws/Tables.lean ====
section
/-! SUPPORT. Tables keyed by number, byte memory, and little-endian bytes: reading after writing, and the canonical form. -/
namespace Sys2Proof.Machine

/-! ### Tables -/

@[simp] theorem tabFind_put_same {α : Type} (t : Tab α) (k : Nat) (x : α) : tabFind (tabPut t k x) k = some x := by
  induction t with
  | nil => simp [tabPut, tabFind]
  | cons a r ih =>
    obtain ⟨j, v⟩ := a
    simp only [tabPut]
    split_ifs with h1 h2
    · simp [tabFind]
    · simp [tabFind]
    · simp [tabFind, Ne.symm h2, ih]

theorem tabFind_put_other {α : Type} (t : Tab α) (k j : Nat) (x : α) (h : j ≠ k) :
    tabFind (tabPut t k x) j = tabFind t j := by
  induction t with
  | nil => simp [tabPut, tabFind, h.symm]
  | cons a r ih =>
    obtain ⟨i, v⟩ := a
    simp only [tabPut]
    split_ifs with h1 h2
    · simp [tabFind, h.symm]
    · subst h2; simp [tabFind, h.symm]
    · simp [tabFind, ih]

@[simp] theorem tabGet_put_same {α : Type} (c : α) (t : Tab α) (k : Nat) (x : α) : tabGet c (tabPut t k x) k = x := by
  simp [tabGet]

theorem tabGet_put_other {α : Type} (c : α) (t : Tab α) (k j : Nat) (x : α) (h : j ≠ k) :
    tabGet c (tabPut t k x) j = tabGet c t j := by
  simp [tabGet, tabFind_put_other t k j x h]

theorem tabPut_tabPut {α : Type} (t : Tab α) (k : Nat) (x y : α) : tabPut (tabPut t k x) k y = tabPut t k y := by
  induction t with
  | nil => simp [tabPut]
  | cons a r ih =>
    obtain ⟨j, v⟩ := a
    by_cases h1 : k < j
    · simp [tabPut, h1]
    · by_cases h2 : k = j
      · subst h2; simp [tabPut]
      · simp [tabPut, h1, h2, ih]

@[simp] theorem tabFind_nil {α : Type} (k : Nat) : tabFind ([] : Tab α) k = none := rfl
@[simp] theorem tabGet_nil {α : Type} (c : α) (k : Nat) : tabGet c [] k = c := rfl

theorem tabFind_del_same {α : Type} (t : Tab α) (k : Nat) : tabFind (tabDel t k) k = none := by
  induction t with
  | nil => rfl
  | cons a r ih =>
    obtain ⟨j, v⟩ := a
    by_cases h : j = k
    · simpa [tabDel, h] using ih
    · simp only [tabDel] at ih
      simp [tabDel, tabFind, h, ih]

theorem tabFind_del_other {α : Type} (t : Tab α) (k j : Nat) (h : j ≠ k) : tabFind (tabDel t k) j = tabFind t j := by
  induction t with
  | nil => rfl
  | cons a r ih =>
    obtain ⟨i, v⟩ := a
    simp only [tabDel] at ih
    by_cases hk : i = k
    · simp [tabDel, hk, tabFind, h.symm, ih]
    · simp [tabDel, tabFind, hk, ih]

/-- The keys of a table rise strictly. -/
def Rising (l : List Nat) : Prop := l.Pairwise (· < ·)

theorem keysRise_iff (l : List Nat) : keysRise l = true ↔ Rising l := by
  induction l with
  | nil => simp [keysRise, Rising]
  | cons a r ih =>
    cases r with
    | nil => simp [keysRise, Rising]
    | cons b r =>
      simp only [keysRise, Bool.and_eq_true, decide_eq_true_eq, ih, Rising, List.pairwise_cons, List.mem_cons, forall_eq_or_imp]
      constructor
      · rintro ⟨h, hb, hr⟩; exact ⟨⟨h, fun c hc => h.trans (hb c hc)⟩, hb, hr⟩
      · rintro ⟨⟨h, _⟩, hb, hr⟩; exact ⟨h, hb, hr⟩

/-- A key of the table after a write was there before or is the one written. -/
theorem mem_keys_put {α : Type} (t : Tab α) (k : Nat) (x : α) (j : Nat) :
    j ∈ (tabPut t k x).map (fun c => c.1) → j = k ∨ j ∈ t.map (fun c => c.1) := by
  induction t with
  | nil => simp [tabPut]
  | cons a r ih =>
    obtain ⟨i, v⟩ := a
    simp only [tabPut]
    split_ifs with h1 h2
    · simp
    · simp; tauto
    · simp only [List.map_cons, List.mem_cons]
      rintro (h | h)
      · exact .inr (.inl h)
      · exact (ih h).elim .inl (fun h => .inr (.inr h))

theorem rising_put {α : Type} (t : Tab α) (k : Nat) (x : α) (h : Rising (t.map (fun c => c.1))) :
    Rising ((tabPut t k x).map (fun c => c.1)) := by
  induction t with
  | nil => simp [tabPut, Rising]
  | cons a r ih =>
    obtain ⟨i, v⟩ := a
    simp only [Rising, List.map_cons, List.pairwise_cons] at h
    obtain ⟨hi, hr⟩ := h
    simp only [tabPut]
    split_ifs with h1 h2
    · simp only [Rising, List.map_cons, List.pairwise_cons, List.mem_cons, forall_eq_or_imp]
      exact ⟨⟨h1, fun j hj => h1.trans (hi j hj)⟩, hi, hr⟩
    · simp only [Rising, List.map_cons, List.pairwise_cons]
      exact ⟨h2 ▸ hi, hr⟩
    · simp only [Rising, List.map_cons, List.pairwise_cons]
      refine ⟨fun j hj => ?_, ih hr⟩
      rcases mem_keys_put r k x j hj with rfl | h
      · omega
      · exact hi j h

/-! ### Byte memory -/

theorem memWf_iff (m : Mem) : memWf m = true ↔ Rising (m.map (fun c => c.1)) ∧ ∀ c ∈ m, c.2 ≠ 0 := by
  simp only [memWf, Bool.and_eq_true, keysRise_iff, List.all_eq_true, bne_iff_ne, ne_eq]

theorem mem_put {α : Type} (t : Tab α) (k : Nat) (x : α) (c : Nat × α) : c ∈ tabPut t k x → c = (k, x) ∨ c ∈ t := by
  induction t with
  | nil => simp [tabPut]
  | cons a r ih =>
    obtain ⟨i, v⟩ := a
    simp only [tabPut]
    split_ifs with h1 h2
    · simp
    · simp; tauto
    · simp only [List.mem_cons]
      rintro (h | h)
      · exact .inr (.inl h)
      · exact (ih h).elim .inl (fun h => .inr (.inr h))

/-- A write keeps the canonical form. -/
theorem memPut_wf (m : Mem) (a : Nat) (b : Byte) (h : memWf m = true) : memWf (memPut m a b) = true := by
  rw [memWf_iff] at h ⊢
  unfold memPut
  split_ifs with hb
  · exact ⟨List.Pairwise.sublist (List.Sublist.map _ List.filter_sublist) h.1,
      fun c hc => h.2 c (List.mem_of_mem_filter hc)⟩
  · refine ⟨rising_put m a b h.1, fun c hc => ?_⟩
    rcases mem_put m a b c hc with rfl | hc
    · exact hb
    · exact h.2 c hc

theorem memWrite_wf (m : Mem) (a : Nat) (bs : List Byte) (h : memWf m = true) : memWf (memWrite m a bs) = true := by
  induction bs generalizing m a with
  | nil => exact h
  | cons b r ih => exact ih _ _ (memPut_wf m a b h)

/-- A byte read after it was written, and every other byte. -/
@[simp] theorem memGet_put_same (m : Mem) (a : Nat) (b : Byte) : memGet (memPut m a b) a = b := by
  unfold memPut memGet
  split_ifs with hb
  · simp [tabFind_del_same, hb]
  · simp

theorem memGet_put_other (m : Mem) (a c : Nat) (b : Byte) (h : c ≠ a) : memGet (memPut m a b) c = memGet m c := by
  unfold memPut memGet
  split_ifs with hb
  · simp [tabFind_del_other m a c h]
  · simp [tabFind_put_other m a c b h]

/-- Bytes outside a write read as before. -/
theorem memGet_write_outside (m : Mem) (a c : Nat) (bs : List Byte) (h : c < a ∨ a + bs.length ≤ c) :
    memGet (memWrite m a bs) c = memGet m c := by
  induction bs generalizing m a with
  | nil => rfl
  | cons b r ih =>
    simp only [List.length_cons] at h
    rw [memWrite, ih _ _ (by omega), memGet_put_other _ _ _ _ (by omega)]

/-- A byte inside a write reads what was written. -/
theorem memGet_write_inside (m : Mem) (a k : Nat) (bs : List Byte) (h : k < bs.length) :
    memGet (memWrite m a bs) (a + k) = bs[k] := by
  induction bs generalizing m a k with
  | nil => simp at h
  | cons b r ih =>
    cases k with
    | zero => rw [memWrite, memGet_write_outside _ _ _ _ (by omega)]; simp
    | succ k =>
      have := ih (memPut m a b) (a + 1) k (by simpa using h)
      rw [memWrite, show a + (k + 1) = a + 1 + k by omega, this]
      simp

theorem Memory.wf_iff (m : Memory) :
    m.wf = true ↔ memWf m.req = true ∧ memWf m.resp = true ∧ memWf m.flashA = true ∧ memWf m.flashB = true := by
  simp [Memory.wf, and_assoc]

/-- Every memory operation keeps the canonical form. -/
theorem Memory.apply_wf (m : Memory) (o : MemOp) (h : m.wf = true) : (m.apply o).wf = true := by
  rw [Memory.wf_iff] at h ⊢
  obtain ⟨h1, h2, h3, h4⟩ := h
  have nil : memWf [] = true := rfl
  cases o with
  | resp off bs => exact ⟨h1, memWrite_wf _ _ _ h2, h3, h4⟩
  | req off bs => exact ⟨memWrite_wf _ _ _ h1, h2, h3, h4⟩
  | flash p off bs =>
    simp only [Memory.apply]; split_ifs
    · exact ⟨h1, h2, memWrite_wf _ _ _ h3, h4⟩
    · exact ⟨h1, h2, h3, memWrite_wf _ _ _ h4⟩
  | erase p =>
    simp only [Memory.apply]; split_ifs
    · exact ⟨h1, h2, nil, h4⟩
    · exact ⟨h1, h2, h3, nil⟩
  | clearMailbox => exact ⟨nil, nil, h3, h4⟩

theorem Memory.fold_wf (ops : List MemOp) (m : Memory) (h : m.wf = true) : (ops.foldl Memory.apply m).wf = true := by
  induction ops generalizing m with
  | nil => exact h
  | cons o r ih => exact ih _ (Memory.apply_wf m o h)

/-! ### Little-endian bytes (R9) -/

@[simp] theorem leBytes_length (n v : Nat) : (leBytes n v).length = n := by
  induction n generalizing v with
  | zero => rfl
  | succ n ih => simp [leBytes, ih]

/-- The number that n little-endian bytes of v hold. -/
theorem ofBytes_leBytes (n v : Nat) : ofBytes (leBytes n v) = v % 256 ^ n := by
  induction n generalizing v with
  | zero => simp [leBytes, ofBytes, Nat.mod_one]
  | succ n ih =>
    simp only [leBytes, ofBytes, ih, BitVec.toNat_ofNat]
    rw [show (256 : Nat) ^ (n + 1) = 256 * 256 ^ n by ring, Nat.mod_mul]

end Sys2Proof.Machine
end

