-- ==== Sys2Proof/Laws/State.lean ====
section
/-! SUPPORT. What each update of the state leaves alone: one lemma per field and update. -/
namespace Sys2Proof.Machine

variable (d : Dev)

/-! ### emit -/

@[simp] theorem emit_freeCtr (o : Output) : (emit o d).freeCtr = d.freeCtr := rfl
@[simp] theorem emit_memOps (o : Output) : (emit o d).memOps = d.memOps := rfl
@[simp] theorem emit_dict (o : Output) : (emit o d).dict = d.dict := rfl
@[simp] theorem emit_funcs (o : Output) : (emit o d).funcs = d.funcs := rfl
@[simp] theorem emit_groups (o : Output) : (emit o d).groups = d.groups := rfl
@[simp] theorem emit_slices (o : Output) : (emit o d).slices = d.slices := rfl
@[simp] theorem emit_engs (o : Output) : (emit o d).engs = d.engs := rfl
@[simp] theorem emit_ports (o : Output) : (emit o d).ports = d.ports := rfl
@[simp] theorem emit_pgs (o : Output) : (emit o d).pgs = d.pgs := rfl
@[simp] theorem emit_halves (o : Output) : (emit o d).halves = d.halves := rfl
@[simp] theorem emit_sinopia (o : Output) : (emit o d).sinopia = d.sinopia := rfl
@[simp] theorem emit_cores (o : Output) : (emit o d).cores = d.cores := rfl
@[simp] theorem emit_cans (o : Output) : (emit o d).cans = d.cans := rfl
@[simp] theorem emit_mbox (o : Output) : (emit o d).mbox = d.mbox := rfl
@[simp] theorem emit_events (o : Output) : (emit o d).events = d.events := rfl
@[simp] theorem emit_gesso (o : Output) : (emit o d).gesso = d.gesso := rfl
@[simp] theorem emit_start (o : Output) : (emit o d).start = d.start := rfl
@[simp] theorem emit_flash (o : Output) : (emit o d).flash = d.flash := rfl
@[simp] theorem emit_update (o : Output) : (emit o d).update = d.update := rfl
@[simp] theorem emit_sys (o : Output) : (emit o d).sys = d.sys := rfl
@[simp] theorem emit_out (o : Output) : (emit o d).out = o :: d.out := rfl

/-! ### Dev.modSlice -/

@[simp] theorem Dev.modSlice_out (n : Nat) (g : Slice → Slice) : (d.modSlice n g).out = d.out := rfl
@[simp] theorem Dev.modSlice_freeCtr (n : Nat) (g : Slice → Slice) : (d.modSlice n g).freeCtr = d.freeCtr := rfl
@[simp] theorem Dev.modSlice_memOps (n : Nat) (g : Slice → Slice) : (d.modSlice n g).memOps = d.memOps := rfl
@[simp] theorem Dev.modSlice_dict (n : Nat) (g : Slice → Slice) : (d.modSlice n g).dict = d.dict := rfl
@[simp] theorem Dev.modSlice_funcs (n : Nat) (g : Slice → Slice) : (d.modSlice n g).funcs = d.funcs := rfl
@[simp] theorem Dev.modSlice_groups (n : Nat) (g : Slice → Slice) : (d.modSlice n g).groups = d.groups := rfl
@[simp] theorem Dev.modSlice_engs (n : Nat) (g : Slice → Slice) : (d.modSlice n g).engs = d.engs := rfl
@[simp] theorem Dev.modSlice_ports (n : Nat) (g : Slice → Slice) : (d.modSlice n g).ports = d.ports := rfl
@[simp] theorem Dev.modSlice_pgs (n : Nat) (g : Slice → Slice) : (d.modSlice n g).pgs = d.pgs := rfl
@[simp] theorem Dev.modSlice_halves (n : Nat) (g : Slice → Slice) : (d.modSlice n g).halves = d.halves := rfl
@[simp] theorem Dev.modSlice_sinopia (n : Nat) (g : Slice → Slice) : (d.modSlice n g).sinopia = d.sinopia := rfl
@[simp] theorem Dev.modSlice_cores (n : Nat) (g : Slice → Slice) : (d.modSlice n g).cores = d.cores := rfl
@[simp] theorem Dev.modSlice_cans (n : Nat) (g : Slice → Slice) : (d.modSlice n g).cans = d.cans := rfl
@[simp] theorem Dev.modSlice_mbox (n : Nat) (g : Slice → Slice) : (d.modSlice n g).mbox = d.mbox := rfl
@[simp] theorem Dev.modSlice_events (n : Nat) (g : Slice → Slice) : (d.modSlice n g).events = d.events := rfl
@[simp] theorem Dev.modSlice_gesso (n : Nat) (g : Slice → Slice) : (d.modSlice n g).gesso = d.gesso := rfl
@[simp] theorem Dev.modSlice_start (n : Nat) (g : Slice → Slice) : (d.modSlice n g).start = d.start := rfl
@[simp] theorem Dev.modSlice_flash (n : Nat) (g : Slice → Slice) : (d.modSlice n g).flash = d.flash := rfl
@[simp] theorem Dev.modSlice_update (n : Nat) (g : Slice → Slice) : (d.modSlice n g).update = d.update := rfl
@[simp] theorem Dev.modSlice_sys (n : Nat) (g : Slice → Slice) : (d.modSlice n g).sys = d.sys := rfl
@[simp] theorem Dev.modSlice_same (n : Nat) (g : Slice → Slice) : (d.modSlice n g).slice n = g (d.slice n) := by simp [Dev.slice, Dev.modSlice]
theorem Dev.modSlice_other (n m : Nat) (g : Slice → Slice) (h : m ≠ n) : (d.modSlice n g).slice m = d.slice m := by
  simp [Dev.slice, Dev.modSlice, tabGet_put_other _ _ _ _ _ h]
@[simp] theorem Dev.modSlice_eng (n k : Nat) (g : Slice → Slice) : (d.modSlice n g).eng k = d.eng k := rfl
@[simp] theorem Dev.modSlice_port (n k : Nat) (g : Slice → Slice) : (d.modSlice n g).port k = d.port k := rfl
@[simp] theorem Dev.modSlice_func (n k : Nat) (g : Slice → Slice) : (d.modSlice n g).func k = d.func k := rfl
@[simp] theorem Dev.modSlice_group (n k : Nat) (g : Slice → Slice) : (d.modSlice n g).group k = d.group k := rfl
@[simp] theorem Dev.modSlice_pg (n k : Nat) (g : Slice → Slice) : (d.modSlice n g).pg k = d.pg k := rfl
@[simp] theorem Dev.modSlice_half (n k : Nat) (g : Slice → Slice) : (d.modSlice n g).half k = d.half k := rfl
@[simp] theorem Dev.modSlice_core (n k : Nat) (g : Slice → Slice) : (d.modSlice n g).core k = d.core k := rfl
@[simp] theorem Dev.modSlice_can (n k : Nat) (g : Slice → Slice) : (d.modSlice n g).can k = d.can k := rfl
@[simp] theorem Dev.modSlice_S (n : Nat) (g : Slice → Slice) : (d.modSlice n g).S = d.S := rfl
@[simp] theorem Dev.modSlice_cfg (n i j : Nat) (g : Slice → Slice) : (d.modSlice n g).cfg i j = d.cfg i j := rfl
@[simp] theorem Dev.modSlice_members (n k : Nat) (g : Slice → Slice) : (d.modSlice n g).members k = d.members k := rfl

/-! ### Dev.modEng -/

@[simp] theorem Dev.modEng_out (n : Nat) (g : SliceEng → SliceEng) : (d.modEng n g).out = d.out := rfl
@[simp] theorem Dev.modEng_freeCtr (n : Nat) (g : SliceEng → SliceEng) : (d.modEng n g).freeCtr = d.freeCtr := rfl
@[simp] theorem Dev.modEng_memOps (n : Nat) (g : SliceEng → SliceEng) : (d.modEng n g).memOps = d.memOps := rfl
@[simp] theorem Dev.modEng_dict (n : Nat) (g : SliceEng → SliceEng) : (d.modEng n g).dict = d.dict := rfl
@[simp] theorem Dev.modEng_funcs (n : Nat) (g : SliceEng → SliceEng) : (d.modEng n g).funcs = d.funcs := rfl
@[simp] theorem Dev.modEng_groups (n : Nat) (g : SliceEng → SliceEng) : (d.modEng n g).groups = d.groups := rfl
@[simp] theorem Dev.modEng_slices (n : Nat) (g : SliceEng → SliceEng) : (d.modEng n g).slices = d.slices := rfl
@[simp] theorem Dev.modEng_ports (n : Nat) (g : SliceEng → SliceEng) : (d.modEng n g).ports = d.ports := rfl
@[simp] theorem Dev.modEng_pgs (n : Nat) (g : SliceEng → SliceEng) : (d.modEng n g).pgs = d.pgs := rfl
@[simp] theorem Dev.modEng_halves (n : Nat) (g : SliceEng → SliceEng) : (d.modEng n g).halves = d.halves := rfl
@[simp] theorem Dev.modEng_sinopia (n : Nat) (g : SliceEng → SliceEng) : (d.modEng n g).sinopia = d.sinopia := rfl
@[simp] theorem Dev.modEng_cores (n : Nat) (g : SliceEng → SliceEng) : (d.modEng n g).cores = d.cores := rfl
@[simp] theorem Dev.modEng_cans (n : Nat) (g : SliceEng → SliceEng) : (d.modEng n g).cans = d.cans := rfl
@[simp] theorem Dev.modEng_mbox (n : Nat) (g : SliceEng → SliceEng) : (d.modEng n g).mbox = d.mbox := rfl
@[simp] theorem Dev.modEng_events (n : Nat) (g : SliceEng → SliceEng) : (d.modEng n g).events = d.events := rfl
@[simp] theorem Dev.modEng_gesso (n : Nat) (g : SliceEng → SliceEng) : (d.modEng n g).gesso = d.gesso := rfl
@[simp] theorem Dev.modEng_start (n : Nat) (g : SliceEng → SliceEng) : (d.modEng n g).start = d.start := rfl
@[simp] theorem Dev.modEng_flash (n : Nat) (g : SliceEng → SliceEng) : (d.modEng n g).flash = d.flash := rfl
@[simp] theorem Dev.modEng_update (n : Nat) (g : SliceEng → SliceEng) : (d.modEng n g).update = d.update := rfl
@[simp] theorem Dev.modEng_sys (n : Nat) (g : SliceEng → SliceEng) : (d.modEng n g).sys = d.sys := rfl
@[simp] theorem Dev.modEng_same (n : Nat) (g : SliceEng → SliceEng) : (d.modEng n g).eng n = g (d.eng n) := by simp [Dev.eng, Dev.modEng]
theorem Dev.modEng_other (n m : Nat) (g : SliceEng → SliceEng) (h : m ≠ n) : (d.modEng n g).eng m = d.eng m := by
  simp [Dev.eng, Dev.modEng, tabGet_put_other _ _ _ _ _ h]
@[simp] theorem Dev.modEng_slice (n k : Nat) (g : SliceEng → SliceEng) : (d.modEng n g).slice k = d.slice k := rfl
@[simp] theorem Dev.modEng_port (n k : Nat) (g : SliceEng → SliceEng) : (d.modEng n g).port k = d.port k := rfl
@[simp] theorem Dev.modEng_func (n k : Nat) (g : SliceEng → SliceEng) : (d.modEng n g).func k = d.func k := rfl
@[simp] theorem Dev.modEng_group (n k : Nat) (g : SliceEng → SliceEng) : (d.modEng n g).group k = d.group k := rfl
@[simp] theorem Dev.modEng_pg (n k : Nat) (g : SliceEng → SliceEng) : (d.modEng n g).pg k = d.pg k := rfl
@[simp] theorem Dev.modEng_half (n k : Nat) (g : SliceEng → SliceEng) : (d.modEng n g).half k = d.half k := rfl
@[simp] theorem Dev.modEng_core (n k : Nat) (g : SliceEng → SliceEng) : (d.modEng n g).core k = d.core k := rfl
@[simp] theorem Dev.modEng_can (n k : Nat) (g : SliceEng → SliceEng) : (d.modEng n g).can k = d.can k := rfl
@[simp] theorem Dev.modEng_S (n : Nat) (g : SliceEng → SliceEng) : (d.modEng n g).S = d.S := rfl
@[simp] theorem Dev.modEng_cfg (n i j : Nat) (g : SliceEng → SliceEng) : (d.modEng n g).cfg i j = d.cfg i j := rfl
@[simp] theorem Dev.modEng_members (n k : Nat) (g : SliceEng → SliceEng) : (d.modEng n g).members k = d.members k := rfl

/-! ### Dev.modPort -/

@[simp] theorem Dev.modPort_out (n : Nat) (g : Port → Port) : (d.modPort n g).out = d.out := rfl
@[simp] theorem Dev.modPort_freeCtr (n : Nat) (g : Port → Port) : (d.modPort n g).freeCtr = d.freeCtr := rfl
@[simp] theorem Dev.modPort_memOps (n : Nat) (g : Port → Port) : (d.modPort n g).memOps = d.memOps := rfl
@[simp] theorem Dev.modPort_dict (n : Nat) (g : Port → Port) : (d.modPort n g).dict = d.dict := rfl
@[simp] theorem Dev.modPort_funcs (n : Nat) (g : Port → Port) : (d.modPort n g).funcs = d.funcs := rfl
@[simp] theorem Dev.modPort_groups (n : Nat) (g : Port → Port) : (d.modPort n g).groups = d.groups := rfl
@[simp] theorem Dev.modPort_slices (n : Nat) (g : Port → Port) : (d.modPort n g).slices = d.slices := rfl
@[simp] theorem Dev.modPort_engs (n : Nat) (g : Port → Port) : (d.modPort n g).engs = d.engs := rfl
@[simp] theorem Dev.modPort_pgs (n : Nat) (g : Port → Port) : (d.modPort n g).pgs = d.pgs := rfl
@[simp] theorem Dev.modPort_halves (n : Nat) (g : Port → Port) : (d.modPort n g).halves = d.halves := rfl
@[simp] theorem Dev.modPort_sinopia (n : Nat) (g : Port → Port) : (d.modPort n g).sinopia = d.sinopia := rfl
@[simp] theorem Dev.modPort_cores (n : Nat) (g : Port → Port) : (d.modPort n g).cores = d.cores := rfl
@[simp] theorem Dev.modPort_cans (n : Nat) (g : Port → Port) : (d.modPort n g).cans = d.cans := rfl
@[simp] theorem Dev.modPort_mbox (n : Nat) (g : Port → Port) : (d.modPort n g).mbox = d.mbox := rfl
@[simp] theorem Dev.modPort_events (n : Nat) (g : Port → Port) : (d.modPort n g).events = d.events := rfl
@[simp] theorem Dev.modPort_gesso (n : Nat) (g : Port → Port) : (d.modPort n g).gesso = d.gesso := rfl
@[simp] theorem Dev.modPort_start (n : Nat) (g : Port → Port) : (d.modPort n g).start = d.start := rfl
@[simp] theorem Dev.modPort_flash (n : Nat) (g : Port → Port) : (d.modPort n g).flash = d.flash := rfl
@[simp] theorem Dev.modPort_update (n : Nat) (g : Port → Port) : (d.modPort n g).update = d.update := rfl
@[simp] theorem Dev.modPort_sys (n : Nat) (g : Port → Port) : (d.modPort n g).sys = d.sys := rfl
@[simp] theorem Dev.modPort_same (n : Nat) (g : Port → Port) : (d.modPort n g).port n = g (d.port n) := by simp [Dev.port, Dev.modPort]
theorem Dev.modPort_other (n m : Nat) (g : Port → Port) (h : m ≠ n) : (d.modPort n g).port m = d.port m := by
  simp [Dev.port, Dev.modPort, tabGet_put_other _ _ _ _ _ h]
@[simp] theorem Dev.modPort_slice (n k : Nat) (g : Port → Port) : (d.modPort n g).slice k = d.slice k := rfl
@[simp] theorem Dev.modPort_eng (n k : Nat) (g : Port → Port) : (d.modPort n g).eng k = d.eng k := rfl
@[simp] theorem Dev.modPort_func (n k : Nat) (g : Port → Port) : (d.modPort n g).func k = d.func k := rfl
@[simp] theorem Dev.modPort_group (n k : Nat) (g : Port → Port) : (d.modPort n g).group k = d.group k := rfl
@[simp] theorem Dev.modPort_pg (n k : Nat) (g : Port → Port) : (d.modPort n g).pg k = d.pg k := rfl
@[simp] theorem Dev.modPort_half (n k : Nat) (g : Port → Port) : (d.modPort n g).half k = d.half k := rfl
@[simp] theorem Dev.modPort_core (n k : Nat) (g : Port → Port) : (d.modPort n g).core k = d.core k := rfl
@[simp] theorem Dev.modPort_can (n k : Nat) (g : Port → Port) : (d.modPort n g).can k = d.can k := rfl
@[simp] theorem Dev.modPort_S (n : Nat) (g : Port → Port) : (d.modPort n g).S = d.S := rfl
@[simp] theorem Dev.modPort_cfg (n i j : Nat) (g : Port → Port) : (d.modPort n g).cfg i j = d.cfg i j := rfl
@[simp] theorem Dev.modPort_members (n k : Nat) (g : Port → Port) : (d.modPort n g).members k = d.members k := rfl

/-! ### Dev.modFunc -/

@[simp] theorem Dev.modFunc_out (n : Nat) (g : Func → Func) : (d.modFunc n g).out = d.out := rfl
@[simp] theorem Dev.modFunc_freeCtr (n : Nat) (g : Func → Func) : (d.modFunc n g).freeCtr = d.freeCtr := rfl
@[simp] theorem Dev.modFunc_memOps (n : Nat) (g : Func → Func) : (d.modFunc n g).memOps = d.memOps := rfl
@[simp] theorem Dev.modFunc_dict (n : Nat) (g : Func → Func) : (d.modFunc n g).dict = d.dict := rfl
@[simp] theorem Dev.modFunc_groups (n : Nat) (g : Func → Func) : (d.modFunc n g).groups = d.groups := rfl
@[simp] theorem Dev.modFunc_slices (n : Nat) (g : Func → Func) : (d.modFunc n g).slices = d.slices := rfl
@[simp] theorem Dev.modFunc_engs (n : Nat) (g : Func → Func) : (d.modFunc n g).engs = d.engs := rfl
@[simp] theorem Dev.modFunc_ports (n : Nat) (g : Func → Func) : (d.modFunc n g).ports = d.ports := rfl
@[simp] theorem Dev.modFunc_pgs (n : Nat) (g : Func → Func) : (d.modFunc n g).pgs = d.pgs := rfl
@[simp] theorem Dev.modFunc_halves (n : Nat) (g : Func → Func) : (d.modFunc n g).halves = d.halves := rfl
@[simp] theorem Dev.modFunc_sinopia (n : Nat) (g : Func → Func) : (d.modFunc n g).sinopia = d.sinopia := rfl
@[simp] theorem Dev.modFunc_cores (n : Nat) (g : Func → Func) : (d.modFunc n g).cores = d.cores := rfl
@[simp] theorem Dev.modFunc_cans (n : Nat) (g : Func → Func) : (d.modFunc n g).cans = d.cans := rfl
@[simp] theorem Dev.modFunc_mbox (n : Nat) (g : Func → Func) : (d.modFunc n g).mbox = d.mbox := rfl
@[simp] theorem Dev.modFunc_events (n : Nat) (g : Func → Func) : (d.modFunc n g).events = d.events := rfl
@[simp] theorem Dev.modFunc_gesso (n : Nat) (g : Func → Func) : (d.modFunc n g).gesso = d.gesso := rfl
@[simp] theorem Dev.modFunc_start (n : Nat) (g : Func → Func) : (d.modFunc n g).start = d.start := rfl
@[simp] theorem Dev.modFunc_flash (n : Nat) (g : Func → Func) : (d.modFunc n g).flash = d.flash := rfl
@[simp] theorem Dev.modFunc_update (n : Nat) (g : Func → Func) : (d.modFunc n g).update = d.update := rfl
@[simp] theorem Dev.modFunc_sys (n : Nat) (g : Func → Func) : (d.modFunc n g).sys = d.sys := rfl
@[simp] theorem Dev.modFunc_same (n : Nat) (g : Func → Func) : (d.modFunc n g).func n = g (d.func n) := by simp [Dev.func, Dev.modFunc]
theorem Dev.modFunc_other (n m : Nat) (g : Func → Func) (h : m ≠ n) : (d.modFunc n g).func m = d.func m := by
  simp [Dev.func, Dev.modFunc, tabGet_put_other _ _ _ _ _ h]
@[simp] theorem Dev.modFunc_slice (n k : Nat) (g : Func → Func) : (d.modFunc n g).slice k = d.slice k := rfl
@[simp] theorem Dev.modFunc_eng (n k : Nat) (g : Func → Func) : (d.modFunc n g).eng k = d.eng k := rfl
@[simp] theorem Dev.modFunc_port (n k : Nat) (g : Func → Func) : (d.modFunc n g).port k = d.port k := rfl
@[simp] theorem Dev.modFunc_group (n k : Nat) (g : Func → Func) : (d.modFunc n g).group k = d.group k := rfl
@[simp] theorem Dev.modFunc_pg (n k : Nat) (g : Func → Func) : (d.modFunc n g).pg k = d.pg k := rfl
@[simp] theorem Dev.modFunc_half (n k : Nat) (g : Func → Func) : (d.modFunc n g).half k = d.half k := rfl
@[simp] theorem Dev.modFunc_core (n k : Nat) (g : Func → Func) : (d.modFunc n g).core k = d.core k := rfl
@[simp] theorem Dev.modFunc_can (n k : Nat) (g : Func → Func) : (d.modFunc n g).can k = d.can k := rfl
@[simp] theorem Dev.modFunc_S (n : Nat) (g : Func → Func) : (d.modFunc n g).S = d.S := rfl
@[simp] theorem Dev.modFunc_cfg (n i j : Nat) (g : Func → Func) : (d.modFunc n g).cfg i j = d.cfg i j := rfl
@[simp] theorem Dev.modFunc_members (n k : Nat) (g : Func → Func) : (d.modFunc n g).members k = d.members k := rfl

/-! ### Dev.modGroup -/

@[simp] theorem Dev.modGroup_out (n : Nat) (g : HostGroup → HostGroup) : (d.modGroup n g).out = d.out := rfl
@[simp] theorem Dev.modGroup_freeCtr (n : Nat) (g : HostGroup → HostGroup) : (d.modGroup n g).freeCtr = d.freeCtr := rfl
@[simp] theorem Dev.modGroup_memOps (n : Nat) (g : HostGroup → HostGroup) : (d.modGroup n g).memOps = d.memOps := rfl
@[simp] theorem Dev.modGroup_dict (n : Nat) (g : HostGroup → HostGroup) : (d.modGroup n g).dict = d.dict := rfl
@[simp] theorem Dev.modGroup_funcs (n : Nat) (g : HostGroup → HostGroup) : (d.modGroup n g).funcs = d.funcs := rfl
@[simp] theorem Dev.modGroup_slices (n : Nat) (g : HostGroup → HostGroup) : (d.modGroup n g).slices = d.slices := rfl
@[simp] theorem Dev.modGroup_engs (n : Nat) (g : HostGroup → HostGroup) : (d.modGroup n g).engs = d.engs := rfl
@[simp] theorem Dev.modGroup_ports (n : Nat) (g : HostGroup → HostGroup) : (d.modGroup n g).ports = d.ports := rfl
@[simp] theorem Dev.modGroup_pgs (n : Nat) (g : HostGroup → HostGroup) : (d.modGroup n g).pgs = d.pgs := rfl
@[simp] theorem Dev.modGroup_halves (n : Nat) (g : HostGroup → HostGroup) : (d.modGroup n g).halves = d.halves := rfl
@[simp] theorem Dev.modGroup_sinopia (n : Nat) (g : HostGroup → HostGroup) : (d.modGroup n g).sinopia = d.sinopia := rfl
@[simp] theorem Dev.modGroup_cores (n : Nat) (g : HostGroup → HostGroup) : (d.modGroup n g).cores = d.cores := rfl
@[simp] theorem Dev.modGroup_cans (n : Nat) (g : HostGroup → HostGroup) : (d.modGroup n g).cans = d.cans := rfl
@[simp] theorem Dev.modGroup_mbox (n : Nat) (g : HostGroup → HostGroup) : (d.modGroup n g).mbox = d.mbox := rfl
@[simp] theorem Dev.modGroup_events (n : Nat) (g : HostGroup → HostGroup) : (d.modGroup n g).events = d.events := rfl
@[simp] theorem Dev.modGroup_gesso (n : Nat) (g : HostGroup → HostGroup) : (d.modGroup n g).gesso = d.gesso := rfl
@[simp] theorem Dev.modGroup_start (n : Nat) (g : HostGroup → HostGroup) : (d.modGroup n g).start = d.start := rfl
@[simp] theorem Dev.modGroup_flash (n : Nat) (g : HostGroup → HostGroup) : (d.modGroup n g).flash = d.flash := rfl
@[simp] theorem Dev.modGroup_update (n : Nat) (g : HostGroup → HostGroup) : (d.modGroup n g).update = d.update := rfl
@[simp] theorem Dev.modGroup_sys (n : Nat) (g : HostGroup → HostGroup) : (d.modGroup n g).sys = d.sys := rfl
@[simp] theorem Dev.modGroup_same (n : Nat) (g : HostGroup → HostGroup) : (d.modGroup n g).group n = g (d.group n) := by simp [Dev.group, Dev.modGroup]
theorem Dev.modGroup_other (n m : Nat) (g : HostGroup → HostGroup) (h : m ≠ n) : (d.modGroup n g).group m = d.group m := by
  simp [Dev.group, Dev.modGroup, tabGet_put_other _ _ _ _ _ h]
@[simp] theorem Dev.modGroup_slice (n k : Nat) (g : HostGroup → HostGroup) : (d.modGroup n g).slice k = d.slice k := rfl
@[simp] theorem Dev.modGroup_eng (n k : Nat) (g : HostGroup → HostGroup) : (d.modGroup n g).eng k = d.eng k := rfl
@[simp] theorem Dev.modGroup_port (n k : Nat) (g : HostGroup → HostGroup) : (d.modGroup n g).port k = d.port k := rfl
@[simp] theorem Dev.modGroup_func (n k : Nat) (g : HostGroup → HostGroup) : (d.modGroup n g).func k = d.func k := rfl
@[simp] theorem Dev.modGroup_pg (n k : Nat) (g : HostGroup → HostGroup) : (d.modGroup n g).pg k = d.pg k := rfl
@[simp] theorem Dev.modGroup_half (n k : Nat) (g : HostGroup → HostGroup) : (d.modGroup n g).half k = d.half k := rfl
@[simp] theorem Dev.modGroup_core (n k : Nat) (g : HostGroup → HostGroup) : (d.modGroup n g).core k = d.core k := rfl
@[simp] theorem Dev.modGroup_can (n k : Nat) (g : HostGroup → HostGroup) : (d.modGroup n g).can k = d.can k := rfl
@[simp] theorem Dev.modGroup_S (n : Nat) (g : HostGroup → HostGroup) : (d.modGroup n g).S = d.S := rfl
@[simp] theorem Dev.modGroup_cfg (n i j : Nat) (g : HostGroup → HostGroup) : (d.modGroup n g).cfg i j = d.cfg i j := rfl
@[simp] theorem Dev.modGroup_members (n k : Nat) (g : HostGroup → HostGroup) : (d.modGroup n g).members k = d.members k := rfl

/-! ### Dev.modPg -/

@[simp] theorem Dev.modPg_out (n : Nat) (g : PGroup → PGroup) : (d.modPg n g).out = d.out := rfl
@[simp] theorem Dev.modPg_freeCtr (n : Nat) (g : PGroup → PGroup) : (d.modPg n g).freeCtr = d.freeCtr := rfl
@[simp] theorem Dev.modPg_memOps (n : Nat) (g : PGroup → PGroup) : (d.modPg n g).memOps = d.memOps := rfl
@[simp] theorem Dev.modPg_dict (n : Nat) (g : PGroup → PGroup) : (d.modPg n g).dict = d.dict := rfl
@[simp] theorem Dev.modPg_funcs (n : Nat) (g : PGroup → PGroup) : (d.modPg n g).funcs = d.funcs := rfl
@[simp] theorem Dev.modPg_groups (n : Nat) (g : PGroup → PGroup) : (d.modPg n g).groups = d.groups := rfl
@[simp] theorem Dev.modPg_slices (n : Nat) (g : PGroup → PGroup) : (d.modPg n g).slices = d.slices := rfl
@[simp] theorem Dev.modPg_engs (n : Nat) (g : PGroup → PGroup) : (d.modPg n g).engs = d.engs := rfl
@[simp] theorem Dev.modPg_ports (n : Nat) (g : PGroup → PGroup) : (d.modPg n g).ports = d.ports := rfl
@[simp] theorem Dev.modPg_halves (n : Nat) (g : PGroup → PGroup) : (d.modPg n g).halves = d.halves := rfl
@[simp] theorem Dev.modPg_sinopia (n : Nat) (g : PGroup → PGroup) : (d.modPg n g).sinopia = d.sinopia := rfl
@[simp] theorem Dev.modPg_cores (n : Nat) (g : PGroup → PGroup) : (d.modPg n g).cores = d.cores := rfl
@[simp] theorem Dev.modPg_cans (n : Nat) (g : PGroup → PGroup) : (d.modPg n g).cans = d.cans := rfl
@[simp] theorem Dev.modPg_mbox (n : Nat) (g : PGroup → PGroup) : (d.modPg n g).mbox = d.mbox := rfl
@[simp] theorem Dev.modPg_events (n : Nat) (g : PGroup → PGroup) : (d.modPg n g).events = d.events := rfl
@[simp] theorem Dev.modPg_gesso (n : Nat) (g : PGroup → PGroup) : (d.modPg n g).gesso = d.gesso := rfl
@[simp] theorem Dev.modPg_start (n : Nat) (g : PGroup → PGroup) : (d.modPg n g).start = d.start := rfl
@[simp] theorem Dev.modPg_flash (n : Nat) (g : PGroup → PGroup) : (d.modPg n g).flash = d.flash := rfl
@[simp] theorem Dev.modPg_update (n : Nat) (g : PGroup → PGroup) : (d.modPg n g).update = d.update := rfl
@[simp] theorem Dev.modPg_sys (n : Nat) (g : PGroup → PGroup) : (d.modPg n g).sys = d.sys := rfl
@[simp] theorem Dev.modPg_same (n : Nat) (g : PGroup → PGroup) : (d.modPg n g).pg n = g (d.pg n) := by simp [Dev.pg, Dev.modPg]
theorem Dev.modPg_other (n m : Nat) (g : PGroup → PGroup) (h : m ≠ n) : (d.modPg n g).pg m = d.pg m := by
  simp [Dev.pg, Dev.modPg, tabGet_put_other _ _ _ _ _ h]
@[simp] theorem Dev.modPg_slice (n k : Nat) (g : PGroup → PGroup) : (d.modPg n g).slice k = d.slice k := rfl
@[simp] theorem Dev.modPg_eng (n k : Nat) (g : PGroup → PGroup) : (d.modPg n g).eng k = d.eng k := rfl
@[simp] theorem Dev.modPg_port (n k : Nat) (g : PGroup → PGroup) : (d.modPg n g).port k = d.port k := rfl
@[simp] theorem Dev.modPg_func (n k : Nat) (g : PGroup → PGroup) : (d.modPg n g).func k = d.func k := rfl
@[simp] theorem Dev.modPg_group (n k : Nat) (g : PGroup → PGroup) : (d.modPg n g).group k = d.group k := rfl
@[simp] theorem Dev.modPg_half (n k : Nat) (g : PGroup → PGroup) : (d.modPg n g).half k = d.half k := rfl
@[simp] theorem Dev.modPg_core (n k : Nat) (g : PGroup → PGroup) : (d.modPg n g).core k = d.core k := rfl
@[simp] theorem Dev.modPg_can (n k : Nat) (g : PGroup → PGroup) : (d.modPg n g).can k = d.can k := rfl
@[simp] theorem Dev.modPg_S (n : Nat) (g : PGroup → PGroup) : (d.modPg n g).S = d.S := rfl
@[simp] theorem Dev.modPg_cfg (n i j : Nat) (g : PGroup → PGroup) : (d.modPg n g).cfg i j = d.cfg i j := rfl
@[simp] theorem Dev.modPg_members (n k : Nat) (g : PGroup → PGroup) : (d.modPg n g).members k = d.members k := rfl

/-! ### Dev.modHalf -/

@[simp] theorem Dev.modHalf_out (n : Nat) (g : Half → Half) : (d.modHalf n g).out = d.out := rfl
@[simp] theorem Dev.modHalf_freeCtr (n : Nat) (g : Half → Half) : (d.modHalf n g).freeCtr = d.freeCtr := rfl
@[simp] theorem Dev.modHalf_memOps (n : Nat) (g : Half → Half) : (d.modHalf n g).memOps = d.memOps := rfl
@[simp] theorem Dev.modHalf_dict (n : Nat) (g : Half → Half) : (d.modHalf n g).dict = d.dict := rfl
@[simp] theorem Dev.modHalf_funcs (n : Nat) (g : Half → Half) : (d.modHalf n g).funcs = d.funcs := rfl
@[simp] theorem Dev.modHalf_groups (n : Nat) (g : Half → Half) : (d.modHalf n g).groups = d.groups := rfl
@[simp] theorem Dev.modHalf_slices (n : Nat) (g : Half → Half) : (d.modHalf n g).slices = d.slices := rfl
@[simp] theorem Dev.modHalf_engs (n : Nat) (g : Half → Half) : (d.modHalf n g).engs = d.engs := rfl
@[simp] theorem Dev.modHalf_ports (n : Nat) (g : Half → Half) : (d.modHalf n g).ports = d.ports := rfl
@[simp] theorem Dev.modHalf_pgs (n : Nat) (g : Half → Half) : (d.modHalf n g).pgs = d.pgs := rfl
@[simp] theorem Dev.modHalf_sinopia (n : Nat) (g : Half → Half) : (d.modHalf n g).sinopia = d.sinopia := rfl
@[simp] theorem Dev.modHalf_cores (n : Nat) (g : Half → Half) : (d.modHalf n g).cores = d.cores := rfl
@[simp] theorem Dev.modHalf_cans (n : Nat) (g : Half → Half) : (d.modHalf n g).cans = d.cans := rfl
@[simp] theorem Dev.modHalf_mbox (n : Nat) (g : Half → Half) : (d.modHalf n g).mbox = d.mbox := rfl
@[simp] theorem Dev.modHalf_events (n : Nat) (g : Half → Half) : (d.modHalf n g).events = d.events := rfl
@[simp] theorem Dev.modHalf_gesso (n : Nat) (g : Half → Half) : (d.modHalf n g).gesso = d.gesso := rfl
@[simp] theorem Dev.modHalf_start (n : Nat) (g : Half → Half) : (d.modHalf n g).start = d.start := rfl
@[simp] theorem Dev.modHalf_flash (n : Nat) (g : Half → Half) : (d.modHalf n g).flash = d.flash := rfl
@[simp] theorem Dev.modHalf_update (n : Nat) (g : Half → Half) : (d.modHalf n g).update = d.update := rfl
@[simp] theorem Dev.modHalf_sys (n : Nat) (g : Half → Half) : (d.modHalf n g).sys = d.sys := rfl
@[simp] theorem Dev.modHalf_same (n : Nat) (g : Half → Half) : (d.modHalf n g).half n = g (d.half n) := by simp [Dev.half, Dev.modHalf]
theorem Dev.modHalf_other (n m : Nat) (g : Half → Half) (h : m ≠ n) : (d.modHalf n g).half m = d.half m := by
  simp [Dev.half, Dev.modHalf, tabGet_put_other _ _ _ _ _ h]
@[simp] theorem Dev.modHalf_slice (n k : Nat) (g : Half → Half) : (d.modHalf n g).slice k = d.slice k := rfl
@[simp] theorem Dev.modHalf_eng (n k : Nat) (g : Half → Half) : (d.modHalf n g).eng k = d.eng k := rfl
@[simp] theorem Dev.modHalf_port (n k : Nat) (g : Half → Half) : (d.modHalf n g).port k = d.port k := rfl
@[simp] theorem Dev.modHalf_func (n k : Nat) (g : Half → Half) : (d.modHalf n g).func k = d.func k := rfl
@[simp] theorem Dev.modHalf_group (n k : Nat) (g : Half → Half) : (d.modHalf n g).group k = d.group k := rfl
@[simp] theorem Dev.modHalf_pg (n k : Nat) (g : Half → Half) : (d.modHalf n g).pg k = d.pg k := rfl
@[simp] theorem Dev.modHalf_core (n k : Nat) (g : Half → Half) : (d.modHalf n g).core k = d.core k := rfl
@[simp] theorem Dev.modHalf_can (n k : Nat) (g : Half → Half) : (d.modHalf n g).can k = d.can k := rfl
@[simp] theorem Dev.modHalf_S (n : Nat) (g : Half → Half) : (d.modHalf n g).S = d.S := rfl
@[simp] theorem Dev.modHalf_cfg (n i j : Nat) (g : Half → Half) : (d.modHalf n g).cfg i j = d.cfg i j := rfl
@[simp] theorem Dev.modHalf_members (n k : Nat) (g : Half → Half) : (d.modHalf n g).members k = d.members k := rfl

/-! ### Dev.modCore -/

@[simp] theorem Dev.modCore_out (n : Nat) (g : Core → Core) : (d.modCore n g).out = d.out := rfl
@[simp] theorem Dev.modCore_freeCtr (n : Nat) (g : Core → Core) : (d.modCore n g).freeCtr = d.freeCtr := rfl
@[simp] theorem Dev.modCore_memOps (n : Nat) (g : Core → Core) : (d.modCore n g).memOps = d.memOps := rfl
@[simp] theorem Dev.modCore_dict (n : Nat) (g : Core → Core) : (d.modCore n g).dict = d.dict := rfl
@[simp] theorem Dev.modCore_funcs (n : Nat) (g : Core → Core) : (d.modCore n g).funcs = d.funcs := rfl
@[simp] theorem Dev.modCore_groups (n : Nat) (g : Core → Core) : (d.modCore n g).groups = d.groups := rfl
@[simp] theorem Dev.modCore_slices (n : Nat) (g : Core → Core) : (d.modCore n g).slices = d.slices := rfl
@[simp] theorem Dev.modCore_engs (n : Nat) (g : Core → Core) : (d.modCore n g).engs = d.engs := rfl
@[simp] theorem Dev.modCore_ports (n : Nat) (g : Core → Core) : (d.modCore n g).ports = d.ports := rfl
@[simp] theorem Dev.modCore_pgs (n : Nat) (g : Core → Core) : (d.modCore n g).pgs = d.pgs := rfl
@[simp] theorem Dev.modCore_halves (n : Nat) (g : Core → Core) : (d.modCore n g).halves = d.halves := rfl
@[simp] theorem Dev.modCore_sinopia (n : Nat) (g : Core → Core) : (d.modCore n g).sinopia = d.sinopia := rfl
@[simp] theorem Dev.modCore_cans (n : Nat) (g : Core → Core) : (d.modCore n g).cans = d.cans := rfl
@[simp] theorem Dev.modCore_mbox (n : Nat) (g : Core → Core) : (d.modCore n g).mbox = d.mbox := rfl
@[simp] theorem Dev.modCore_events (n : Nat) (g : Core → Core) : (d.modCore n g).events = d.events := rfl
@[simp] theorem Dev.modCore_gesso (n : Nat) (g : Core → Core) : (d.modCore n g).gesso = d.gesso := rfl
@[simp] theorem Dev.modCore_start (n : Nat) (g : Core → Core) : (d.modCore n g).start = d.start := rfl
@[simp] theorem Dev.modCore_flash (n : Nat) (g : Core → Core) : (d.modCore n g).flash = d.flash := rfl
@[simp] theorem Dev.modCore_update (n : Nat) (g : Core → Core) : (d.modCore n g).update = d.update := rfl
@[simp] theorem Dev.modCore_sys (n : Nat) (g : Core → Core) : (d.modCore n g).sys = d.sys := rfl
@[simp] theorem Dev.modCore_same (n : Nat) (g : Core → Core) : (d.modCore n g).core n = g (d.core n) := by simp [Dev.core, Dev.modCore]
theorem Dev.modCore_other (n m : Nat) (g : Core → Core) (h : m ≠ n) : (d.modCore n g).core m = d.core m := by
  simp [Dev.core, Dev.modCore, tabGet_put_other _ _ _ _ _ h]
@[simp] theorem Dev.modCore_slice (n k : Nat) (g : Core → Core) : (d.modCore n g).slice k = d.slice k := rfl
@[simp] theorem Dev.modCore_eng (n k : Nat) (g : Core → Core) : (d.modCore n g).eng k = d.eng k := rfl
@[simp] theorem Dev.modCore_port (n k : Nat) (g : Core → Core) : (d.modCore n g).port k = d.port k := rfl
@[simp] theorem Dev.modCore_func (n k : Nat) (g : Core → Core) : (d.modCore n g).func k = d.func k := rfl
@[simp] theorem Dev.modCore_group (n k : Nat) (g : Core → Core) : (d.modCore n g).group k = d.group k := rfl
@[simp] theorem Dev.modCore_pg (n k : Nat) (g : Core → Core) : (d.modCore n g).pg k = d.pg k := rfl
@[simp] theorem Dev.modCore_half (n k : Nat) (g : Core → Core) : (d.modCore n g).half k = d.half k := rfl
@[simp] theorem Dev.modCore_can (n k : Nat) (g : Core → Core) : (d.modCore n g).can k = d.can k := rfl
@[simp] theorem Dev.modCore_S (n : Nat) (g : Core → Core) : (d.modCore n g).S = d.S := rfl
@[simp] theorem Dev.modCore_cfg (n i j : Nat) (g : Core → Core) : (d.modCore n g).cfg i j = d.cfg i j := rfl
@[simp] theorem Dev.modCore_members (n k : Nat) (g : Core → Core) : (d.modCore n g).members k = d.members k := rfl

/-! ### Dev.modCan -/

@[simp] theorem Dev.modCan_out (n : Nat) (g : CanLink → CanLink) : (d.modCan n g).out = d.out := rfl
@[simp] theorem Dev.modCan_freeCtr (n : Nat) (g : CanLink → CanLink) : (d.modCan n g).freeCtr = d.freeCtr := rfl
@[simp] theorem Dev.modCan_memOps (n : Nat) (g : CanLink → CanLink) : (d.modCan n g).memOps = d.memOps := rfl
@[simp] theorem Dev.modCan_dict (n : Nat) (g : CanLink → CanLink) : (d.modCan n g).dict = d.dict := rfl
@[simp] theorem Dev.modCan_funcs (n : Nat) (g : CanLink → CanLink) : (d.modCan n g).funcs = d.funcs := rfl
@[simp] theorem Dev.modCan_groups (n : Nat) (g : CanLink → CanLink) : (d.modCan n g).groups = d.groups := rfl
@[simp] theorem Dev.modCan_slices (n : Nat) (g : CanLink → CanLink) : (d.modCan n g).slices = d.slices := rfl
@[simp] theorem Dev.modCan_engs (n : Nat) (g : CanLink → CanLink) : (d.modCan n g).engs = d.engs := rfl
@[simp] theorem Dev.modCan_ports (n : Nat) (g : CanLink → CanLink) : (d.modCan n g).ports = d.ports := rfl
@[simp] theorem Dev.modCan_pgs (n : Nat) (g : CanLink → CanLink) : (d.modCan n g).pgs = d.pgs := rfl
@[simp] theorem Dev.modCan_halves (n : Nat) (g : CanLink → CanLink) : (d.modCan n g).halves = d.halves := rfl
@[simp] theorem Dev.modCan_sinopia (n : Nat) (g : CanLink → CanLink) : (d.modCan n g).sinopia = d.sinopia := rfl
@[simp] theorem Dev.modCan_cores (n : Nat) (g : CanLink → CanLink) : (d.modCan n g).cores = d.cores := rfl
@[simp] theorem Dev.modCan_mbox (n : Nat) (g : CanLink → CanLink) : (d.modCan n g).mbox = d.mbox := rfl
@[simp] theorem Dev.modCan_events (n : Nat) (g : CanLink → CanLink) : (d.modCan n g).events = d.events := rfl
@[simp] theorem Dev.modCan_gesso (n : Nat) (g : CanLink → CanLink) : (d.modCan n g).gesso = d.gesso := rfl
@[simp] theorem Dev.modCan_start (n : Nat) (g : CanLink → CanLink) : (d.modCan n g).start = d.start := rfl
@[simp] theorem Dev.modCan_flash (n : Nat) (g : CanLink → CanLink) : (d.modCan n g).flash = d.flash := rfl
@[simp] theorem Dev.modCan_update (n : Nat) (g : CanLink → CanLink) : (d.modCan n g).update = d.update := rfl
@[simp] theorem Dev.modCan_sys (n : Nat) (g : CanLink → CanLink) : (d.modCan n g).sys = d.sys := rfl
@[simp] theorem Dev.modCan_same (n : Nat) (g : CanLink → CanLink) : (d.modCan n g).can n = g (d.can n) := by simp [Dev.can, Dev.modCan]
theorem Dev.modCan_other (n m : Nat) (g : CanLink → CanLink) (h : m ≠ n) : (d.modCan n g).can m = d.can m := by
  simp [Dev.can, Dev.modCan, tabGet_put_other _ _ _ _ _ h]
@[simp] theorem Dev.modCan_slice (n k : Nat) (g : CanLink → CanLink) : (d.modCan n g).slice k = d.slice k := rfl
@[simp] theorem Dev.modCan_eng (n k : Nat) (g : CanLink → CanLink) : (d.modCan n g).eng k = d.eng k := rfl
@[simp] theorem Dev.modCan_port (n k : Nat) (g : CanLink → CanLink) : (d.modCan n g).port k = d.port k := rfl
@[simp] theorem Dev.modCan_func (n k : Nat) (g : CanLink → CanLink) : (d.modCan n g).func k = d.func k := rfl
@[simp] theorem Dev.modCan_group (n k : Nat) (g : CanLink → CanLink) : (d.modCan n g).group k = d.group k := rfl
@[simp] theorem Dev.modCan_pg (n k : Nat) (g : CanLink → CanLink) : (d.modCan n g).pg k = d.pg k := rfl
@[simp] theorem Dev.modCan_half (n k : Nat) (g : CanLink → CanLink) : (d.modCan n g).half k = d.half k := rfl
@[simp] theorem Dev.modCan_core (n k : Nat) (g : CanLink → CanLink) : (d.modCan n g).core k = d.core k := rfl
@[simp] theorem Dev.modCan_S (n : Nat) (g : CanLink → CanLink) : (d.modCan n g).S = d.S := rfl
@[simp] theorem Dev.modCan_cfg (n i j : Nat) (g : CanLink → CanLink) : (d.modCan n g).cfg i j = d.cfg i j := rfl
@[simp] theorem Dev.modCan_members (n k : Nat) (g : CanLink → CanLink) : (d.modCan n g).members k = d.members k := rfl
@[simp] theorem emit_slice (o : Output) (k : Nat) : (emit o d).slice k = d.slice k := rfl
@[simp] theorem emit_eng (o : Output) (k : Nat) : (emit o d).eng k = d.eng k := rfl
@[simp] theorem emit_port (o : Output) (k : Nat) : (emit o d).port k = d.port k := rfl
@[simp] theorem emit_func (o : Output) (k : Nat) : (emit o d).func k = d.func k := rfl
@[simp] theorem emit_group (o : Output) (k : Nat) : (emit o d).group k = d.group k := rfl
@[simp] theorem emit_pg (o : Output) (k : Nat) : (emit o d).pg k = d.pg k := rfl
@[simp] theorem emit_half (o : Output) (k : Nat) : (emit o d).half k = d.half k := rfl
@[simp] theorem emit_core (o : Output) (k : Nat) : (emit o d).core k = d.core k := rfl
@[simp] theorem emit_can (o : Output) (k : Nat) : (emit o d).can k = d.can k := rfl
@[simp] theorem emit_S (o : Output) : (emit o d).S = d.S := rfl
@[simp] theorem emit_cfg (o : Output) (i j : Nat) : (emit o d).cfg i j = d.cfg i j := rfl
@[simp] theorem emit_members (o : Output) (k : Nat) : (emit o d).members k = d.members k := rfl

/-! ### Parts of a port and of a slice -/

@[simp] theorem Dev.modBus_port_owner (p q : Nat) (g : PortBus → PortBus) : ((d.modBus p g).port q).owner = (d.port q).owner := by
  by_cases h : q = p
  · subst h; simp [Dev.modBus]
  · simp [Dev.modBus, Dev.modPort_other _ _ _ _ h]
@[simp] theorem Dev.modBus_bus (p : Nat) (g : PortBus → PortBus) : ((d.modBus p g).port p).bus = g (d.port p).bus := by simp [Dev.modBus]
@[simp] theorem Dev.modBus_port_cnt (p q : Nat) (g : PortBus → PortBus) : ((d.modBus p g).port q).cnt = (d.port q).cnt := by
  by_cases h : q = p
  · subst h; simp [Dev.modBus]
  · simp [Dev.modBus, Dev.modPort_other _ _ _ _ h]
@[simp] theorem Dev.modBus_port_tc (p q : Nat) (g : PortBus → PortBus) : ((d.modBus p g).port q).tc = (d.port q).tc := by
  by_cases h : q = p
  · subst h; simp [Dev.modBus]
  · simp [Dev.modBus, Dev.modPort_other _ _ _ _ h]
@[simp] theorem Dev.modBus_port_pd (p q : Nat) (g : PortBus → PortBus) : ((d.modBus p g).port q).pd = (d.port q).pd := by
  by_cases h : q = p
  · subst h; simp [Dev.modBus]
  · simp [Dev.modBus, Dev.modPort_other _ _ _ _ h]
@[simp] theorem Dev.modBus_port_seq (p q : Nat) (g : PortBus → PortBus) : ((d.modBus p g).port q).seq = (d.port q).seq := by
  by_cases h : q = p
  · subst h; simp [Dev.modBus]
  · simp [Dev.modBus, Dev.modPort_other _ _ _ _ h]
@[simp] theorem Dev.modBus_port_stage (p q : Nat) (g : PortBus → PortBus) : ((d.modBus p g).port q).stage = (d.port q).stage := by
  by_cases h : q = p
  · subst h; simp [Dev.modBus]
  · simp [Dev.modBus, Dev.modPort_other _ _ _ _ h]
@[simp] theorem Dev.modBus_port_plan (p q : Nat) (g : PortBus → PortBus) : ((d.modBus p g).port q).plan = (d.port q).plan := by
  by_cases h : q = p
  · subst h; simp [Dev.modBus]
  · simp [Dev.modBus, Dev.modPort_other _ _ _ _ h]
@[simp] theorem Dev.modBus_port_fenceWait (p q : Nat) (g : PortBus → PortBus) : ((d.modBus p g).port q).fenceWait = (d.port q).fenceWait := by
  by_cases h : q = p
  · subst h; simp [Dev.modBus]
  · simp [Dev.modBus, Dev.modPort_other _ _ _ _ h]
@[simp] theorem Dev.modBus_out (p : Nat) (g : PortBus → PortBus) : (d.modBus p g).out = d.out := rfl
@[simp] theorem Dev.modBus_freeCtr (p : Nat) (g : PortBus → PortBus) : (d.modBus p g).freeCtr = d.freeCtr := rfl
@[simp] theorem Dev.modBus_memOps (p : Nat) (g : PortBus → PortBus) : (d.modBus p g).memOps = d.memOps := rfl
@[simp] theorem Dev.modBus_dict (p : Nat) (g : PortBus → PortBus) : (d.modBus p g).dict = d.dict := rfl
@[simp] theorem Dev.modBus_funcs (p : Nat) (g : PortBus → PortBus) : (d.modBus p g).funcs = d.funcs := rfl
@[simp] theorem Dev.modBus_groups (p : Nat) (g : PortBus → PortBus) : (d.modBus p g).groups = d.groups := rfl
@[simp] theorem Dev.modBus_slices (p : Nat) (g : PortBus → PortBus) : (d.modBus p g).slices = d.slices := rfl
@[simp] theorem Dev.modBus_engs (p : Nat) (g : PortBus → PortBus) : (d.modBus p g).engs = d.engs := rfl
@[simp] theorem Dev.modBus_pgs (p : Nat) (g : PortBus → PortBus) : (d.modBus p g).pgs = d.pgs := rfl
@[simp] theorem Dev.modBus_halves (p : Nat) (g : PortBus → PortBus) : (d.modBus p g).halves = d.halves := rfl
@[simp] theorem Dev.modBus_sinopia (p : Nat) (g : PortBus → PortBus) : (d.modBus p g).sinopia = d.sinopia := rfl
@[simp] theorem Dev.modBus_cores (p : Nat) (g : PortBus → PortBus) : (d.modBus p g).cores = d.cores := rfl
@[simp] theorem Dev.modBus_cans (p : Nat) (g : PortBus → PortBus) : (d.modBus p g).cans = d.cans := rfl
@[simp] theorem Dev.modBus_mbox (p : Nat) (g : PortBus → PortBus) : (d.modBus p g).mbox = d.mbox := rfl
@[simp] theorem Dev.modBus_events (p : Nat) (g : PortBus → PortBus) : (d.modBus p g).events = d.events := rfl
@[simp] theorem Dev.modBus_gesso (p : Nat) (g : PortBus → PortBus) : (d.modBus p g).gesso = d.gesso := rfl
@[simp] theorem Dev.modBus_start (p : Nat) (g : PortBus → PortBus) : (d.modBus p g).start = d.start := rfl
@[simp] theorem Dev.modBus_flash (p : Nat) (g : PortBus → PortBus) : (d.modBus p g).flash = d.flash := rfl
@[simp] theorem Dev.modBus_update (p : Nat) (g : PortBus → PortBus) : (d.modBus p g).update = d.update := rfl
@[simp] theorem Dev.modBus_sys (p : Nat) (g : PortBus → PortBus) : (d.modBus p g).sys = d.sys := rfl
theorem Dev.modBus_other (p q : Nat) (g : PortBus → PortBus) (h : q ≠ p) : (d.modBus p g).port q = d.port q := by
  simp [Dev.modBus, Dev.modPort_other _ _ _ _ h]
@[simp] theorem Dev.modCnt_port_owner (p q : Nat) (g : BusCnt → BusCnt) : ((d.modCnt p g).port q).owner = (d.port q).owner := by
  by_cases h : q = p
  · subst h; simp [Dev.modCnt]
  · simp [Dev.modCnt, Dev.modPort_other _ _ _ _ h]
@[simp] theorem Dev.modCnt_port_bus (p q : Nat) (g : BusCnt → BusCnt) : ((d.modCnt p g).port q).bus = (d.port q).bus := by
  by_cases h : q = p
  · subst h; simp [Dev.modCnt]
  · simp [Dev.modCnt, Dev.modPort_other _ _ _ _ h]
@[simp] theorem Dev.modCnt_cnt (p : Nat) (g : BusCnt → BusCnt) : ((d.modCnt p g).port p).cnt = g (d.port p).cnt := by simp [Dev.modCnt]
@[simp] theorem Dev.modCnt_port_tc (p q : Nat) (g : BusCnt → BusCnt) : ((d.modCnt p g).port q).tc = (d.port q).tc := by
  by_cases h : q = p
  · subst h; simp [Dev.modCnt]
  · simp [Dev.modCnt, Dev.modPort_other _ _ _ _ h]
@[simp] theorem Dev.modCnt_port_pd (p q : Nat) (g : BusCnt → BusCnt) : ((d.modCnt p g).port q).pd = (d.port q).pd := by
  by_cases h : q = p
  · subst h; simp [Dev.modCnt]
  · simp [Dev.modCnt, Dev.modPort_other _ _ _ _ h]
@[simp] theorem Dev.modCnt_port_seq (p q : Nat) (g : BusCnt → BusCnt) : ((d.modCnt p g).port q).seq = (d.port q).seq := by
  by_cases h : q = p
  · subst h; simp [Dev.modCnt]
  · simp [Dev.modCnt, Dev.modPort_other _ _ _ _ h]
@[simp] theorem Dev.modCnt_port_stage (p q : Nat) (g : BusCnt → BusCnt) : ((d.modCnt p g).port q).stage = (d.port q).stage := by
  by_cases h : q = p
  · subst h; simp [Dev.modCnt]
  · simp [Dev.modCnt, Dev.modPort_other _ _ _ _ h]
@[simp] theorem Dev.modCnt_port_plan (p q : Nat) (g : BusCnt → BusCnt) : ((d.modCnt p g).port q).plan = (d.port q).plan := by
  by_cases h : q = p
  · subst h; simp [Dev.modCnt]
  · simp [Dev.modCnt, Dev.modPort_other _ _ _ _ h]
@[simp] theorem Dev.modCnt_port_fenceWait (p q : Nat) (g : BusCnt → BusCnt) : ((d.modCnt p g).port q).fenceWait = (d.port q).fenceWait := by
  by_cases h : q = p
  · subst h; simp [Dev.modCnt]
  · simp [Dev.modCnt, Dev.modPort_other _ _ _ _ h]
@[simp] theorem Dev.modCnt_out (p : Nat) (g : BusCnt → BusCnt) : (d.modCnt p g).out = d.out := rfl
@[simp] theorem Dev.modCnt_freeCtr (p : Nat) (g : BusCnt → BusCnt) : (d.modCnt p g).freeCtr = d.freeCtr := rfl
@[simp] theorem Dev.modCnt_memOps (p : Nat) (g : BusCnt → BusCnt) : (d.modCnt p g).memOps = d.memOps := rfl
@[simp] theorem Dev.modCnt_dict (p : Nat) (g : BusCnt → BusCnt) : (d.modCnt p g).dict = d.dict := rfl
@[simp] theorem Dev.modCnt_funcs (p : Nat) (g : BusCnt → BusCnt) : (d.modCnt p g).funcs = d.funcs := rfl
@[simp] theorem Dev.modCnt_groups (p : Nat) (g : BusCnt → BusCnt) : (d.modCnt p g).groups = d.groups := rfl
@[simp] theorem Dev.modCnt_slices (p : Nat) (g : BusCnt → BusCnt) : (d.modCnt p g).slices = d.slices := rfl
@[simp] theorem Dev.modCnt_engs (p : Nat) (g : BusCnt → BusCnt) : (d.modCnt p g).engs = d.engs := rfl
@[simp] theorem Dev.modCnt_pgs (p : Nat) (g : BusCnt → BusCnt) : (d.modCnt p g).pgs = d.pgs := rfl
@[simp] theorem Dev.modCnt_halves (p : Nat) (g : BusCnt → BusCnt) : (d.modCnt p g).halves = d.halves := rfl
@[simp] theorem Dev.modCnt_sinopia (p : Nat) (g : BusCnt → BusCnt) : (d.modCnt p g).sinopia = d.sinopia := rfl
@[simp] theorem Dev.modCnt_cores (p : Nat) (g : BusCnt → BusCnt) : (d.modCnt p g).cores = d.cores := rfl
@[simp] theorem Dev.modCnt_cans (p : Nat) (g : BusCnt → BusCnt) : (d.modCnt p g).cans = d.cans := rfl
@[simp] theorem Dev.modCnt_mbox (p : Nat) (g : BusCnt → BusCnt) : (d.modCnt p g).mbox = d.mbox := rfl
@[simp] theorem Dev.modCnt_events (p : Nat) (g : BusCnt → BusCnt) : (d.modCnt p g).events = d.events := rfl
@[simp] theorem Dev.modCnt_gesso (p : Nat) (g : BusCnt → BusCnt) : (d.modCnt p g).gesso = d.gesso := rfl
@[simp] theorem Dev.modCnt_start (p : Nat) (g : BusCnt → BusCnt) : (d.modCnt p g).start = d.start := rfl
@[simp] theorem Dev.modCnt_flash (p : Nat) (g : BusCnt → BusCnt) : (d.modCnt p g).flash = d.flash := rfl
@[simp] theorem Dev.modCnt_update (p : Nat) (g : BusCnt → BusCnt) : (d.modCnt p g).update = d.update := rfl
@[simp] theorem Dev.modCnt_sys (p : Nat) (g : BusCnt → BusCnt) : (d.modCnt p g).sys = d.sys := rfl
theorem Dev.modCnt_other (p q : Nat) (g : BusCnt → BusCnt) (h : q ≠ p) : (d.modCnt p g).port q = d.port q := by
  simp [Dev.modCnt, Dev.modPort_other _ _ _ _ h]
@[simp] theorem Dev.modTc_port_owner (p q : Nat) (g : TypeC → TypeC) : ((d.modTc p g).port q).owner = (d.port q).owner := by
  by_cases h : q = p
  · subst h; simp [Dev.modTc]
  · simp [Dev.modTc, Dev.modPort_other _ _ _ _ h]
@[simp] theorem Dev.modTc_port_bus (p q : Nat) (g : TypeC → TypeC) : ((d.modTc p g).port q).bus = (d.port q).bus := by
  by_cases h : q = p
  · subst h; simp [Dev.modTc]
  · simp [Dev.modTc, Dev.modPort_other _ _ _ _ h]
@[simp] theorem Dev.modTc_port_cnt (p q : Nat) (g : TypeC → TypeC) : ((d.modTc p g).port q).cnt = (d.port q).cnt := by
  by_cases h : q = p
  · subst h; simp [Dev.modTc]
  · simp [Dev.modTc, Dev.modPort_other _ _ _ _ h]
@[simp] theorem Dev.modTc_tc (p : Nat) (g : TypeC → TypeC) : ((d.modTc p g).port p).tc = g (d.port p).tc := by simp [Dev.modTc]
@[simp] theorem Dev.modTc_port_pd (p q : Nat) (g : TypeC → TypeC) : ((d.modTc p g).port q).pd = (d.port q).pd := by
  by_cases h : q = p
  · subst h; simp [Dev.modTc]
  · simp [Dev.modTc, Dev.modPort_other _ _ _ _ h]
@[simp] theorem Dev.modTc_port_seq (p q : Nat) (g : TypeC → TypeC) : ((d.modTc p g).port q).seq = (d.port q).seq := by
  by_cases h : q = p
  · subst h; simp [Dev.modTc]
  · simp [Dev.modTc, Dev.modPort_other _ _ _ _ h]
@[simp] theorem Dev.modTc_port_stage (p q : Nat) (g : TypeC → TypeC) : ((d.modTc p g).port q).stage = (d.port q).stage := by
  by_cases h : q = p
  · subst h; simp [Dev.modTc]
  · simp [Dev.modTc, Dev.modPort_other _ _ _ _ h]
@[simp] theorem Dev.modTc_port_plan (p q : Nat) (g : TypeC → TypeC) : ((d.modTc p g).port q).plan = (d.port q).plan := by
  by_cases h : q = p
  · subst h; simp [Dev.modTc]
  · simp [Dev.modTc, Dev.modPort_other _ _ _ _ h]
@[simp] theorem Dev.modTc_port_fenceWait (p q : Nat) (g : TypeC → TypeC) : ((d.modTc p g).port q).fenceWait = (d.port q).fenceWait := by
  by_cases h : q = p
  · subst h; simp [Dev.modTc]
  · simp [Dev.modTc, Dev.modPort_other _ _ _ _ h]
@[simp] theorem Dev.modTc_out (p : Nat) (g : TypeC → TypeC) : (d.modTc p g).out = d.out := rfl
@[simp] theorem Dev.modTc_freeCtr (p : Nat) (g : TypeC → TypeC) : (d.modTc p g).freeCtr = d.freeCtr := rfl
@[simp] theorem Dev.modTc_memOps (p : Nat) (g : TypeC → TypeC) : (d.modTc p g).memOps = d.memOps := rfl
@[simp] theorem Dev.modTc_dict (p : Nat) (g : TypeC → TypeC) : (d.modTc p g).dict = d.dict := rfl
@[simp] theorem Dev.modTc_funcs (p : Nat) (g : TypeC → TypeC) : (d.modTc p g).funcs = d.funcs := rfl
@[simp] theorem Dev.modTc_groups (p : Nat) (g : TypeC → TypeC) : (d.modTc p g).groups = d.groups := rfl
@[simp] theorem Dev.modTc_slices (p : Nat) (g : TypeC → TypeC) : (d.modTc p g).slices = d.slices := rfl
@[simp] theorem Dev.modTc_engs (p : Nat) (g : TypeC → TypeC) : (d.modTc p g).engs = d.engs := rfl
@[simp] theorem Dev.modTc_pgs (p : Nat) (g : TypeC → TypeC) : (d.modTc p g).pgs = d.pgs := rfl
@[simp] theorem Dev.modTc_halves (p : Nat) (g : TypeC → TypeC) : (d.modTc p g).halves = d.halves := rfl
@[simp] theorem Dev.modTc_sinopia (p : Nat) (g : TypeC → TypeC) : (d.modTc p g).sinopia = d.sinopia := rfl
@[simp] theorem Dev.modTc_cores (p : Nat) (g : TypeC → TypeC) : (d.modTc p g).cores = d.cores := rfl
@[simp] theorem Dev.modTc_cans (p : Nat) (g : TypeC → TypeC) : (d.modTc p g).cans = d.cans := rfl
@[simp] theorem Dev.modTc_mbox (p : Nat) (g : TypeC → TypeC) : (d.modTc p g).mbox = d.mbox := rfl
@[simp] theorem Dev.modTc_events (p : Nat) (g : TypeC → TypeC) : (d.modTc p g).events = d.events := rfl
@[simp] theorem Dev.modTc_gesso (p : Nat) (g : TypeC → TypeC) : (d.modTc p g).gesso = d.gesso := rfl
@[simp] theorem Dev.modTc_start (p : Nat) (g : TypeC → TypeC) : (d.modTc p g).start = d.start := rfl
@[simp] theorem Dev.modTc_flash (p : Nat) (g : TypeC → TypeC) : (d.modTc p g).flash = d.flash := rfl
@[simp] theorem Dev.modTc_update (p : Nat) (g : TypeC → TypeC) : (d.modTc p g).update = d.update := rfl
@[simp] theorem Dev.modTc_sys (p : Nat) (g : TypeC → TypeC) : (d.modTc p g).sys = d.sys := rfl
theorem Dev.modTc_other (p q : Nat) (g : TypeC → TypeC) (h : q ≠ p) : (d.modTc p g).port q = d.port q := by
  simp [Dev.modTc, Dev.modPort_other _ _ _ _ h]
@[simp] theorem Dev.modPd_port_owner (p q : Nat) (g : Pd → Pd) : ((d.modPd p g).port q).owner = (d.port q).owner := by
  by_cases h : q = p
  · subst h; simp [Dev.modPd]
  · simp [Dev.modPd, Dev.modPort_other _ _ _ _ h]
@[simp] theorem Dev.modPd_port_bus (p q : Nat) (g : Pd → Pd) : ((d.modPd p g).port q).bus = (d.port q).bus := by
  by_cases h : q = p
  · subst h; simp [Dev.modPd]
  · simp [Dev.modPd, Dev.modPort_other _ _ _ _ h]
@[simp] theorem Dev.modPd_port_cnt (p q : Nat) (g : Pd → Pd) : ((d.modPd p g).port q).cnt = (d.port q).cnt := by
  by_cases h : q = p
  · subst h; simp [Dev.modPd]
  · simp [Dev.modPd, Dev.modPort_other _ _ _ _ h]
@[simp] theorem Dev.modPd_port_tc (p q : Nat) (g : Pd → Pd) : ((d.modPd p g).port q).tc = (d.port q).tc := by
  by_cases h : q = p
  · subst h; simp [Dev.modPd]
  · simp [Dev.modPd, Dev.modPort_other _ _ _ _ h]
@[simp] theorem Dev.modPd_pd (p : Nat) (g : Pd → Pd) : ((d.modPd p g).port p).pd = g (d.port p).pd := by simp [Dev.modPd]
@[simp] theorem Dev.modPd_port_seq (p q : Nat) (g : Pd → Pd) : ((d.modPd p g).port q).seq = (d.port q).seq := by
  by_cases h : q = p
  · subst h; simp [Dev.modPd]
  · simp [Dev.modPd, Dev.modPort_other _ _ _ _ h]
@[simp] theorem Dev.modPd_port_stage (p q : Nat) (g : Pd → Pd) : ((d.modPd p g).port q).stage = (d.port q).stage := by
  by_cases h : q = p
  · subst h; simp [Dev.modPd]
  · simp [Dev.modPd, Dev.modPort_other _ _ _ _ h]
@[simp] theorem Dev.modPd_port_plan (p q : Nat) (g : Pd → Pd) : ((d.modPd p g).port q).plan = (d.port q).plan := by
  by_cases h : q = p
  · subst h; simp [Dev.modPd]
  · simp [Dev.modPd, Dev.modPort_other _ _ _ _ h]
@[simp] theorem Dev.modPd_port_fenceWait (p q : Nat) (g : Pd → Pd) : ((d.modPd p g).port q).fenceWait = (d.port q).fenceWait := by
  by_cases h : q = p
  · subst h; simp [Dev.modPd]
  · simp [Dev.modPd, Dev.modPort_other _ _ _ _ h]
@[simp] theorem Dev.modPd_out (p : Nat) (g : Pd → Pd) : (d.modPd p g).out = d.out := rfl
@[simp] theorem Dev.modPd_freeCtr (p : Nat) (g : Pd → Pd) : (d.modPd p g).freeCtr = d.freeCtr := rfl
@[simp] theorem Dev.modPd_memOps (p : Nat) (g : Pd → Pd) : (d.modPd p g).memOps = d.memOps := rfl
@[simp] theorem Dev.modPd_dict (p : Nat) (g : Pd → Pd) : (d.modPd p g).dict = d.dict := rfl
@[simp] theorem Dev.modPd_funcs (p : Nat) (g : Pd → Pd) : (d.modPd p g).funcs = d.funcs := rfl
@[simp] theorem Dev.modPd_groups (p : Nat) (g : Pd → Pd) : (d.modPd p g).groups = d.groups := rfl
@[simp] theorem Dev.modPd_slices (p : Nat) (g : Pd → Pd) : (d.modPd p g).slices = d.slices := rfl
@[simp] theorem Dev.modPd_engs (p : Nat) (g : Pd → Pd) : (d.modPd p g).engs = d.engs := rfl
@[simp] theorem Dev.modPd_pgs (p : Nat) (g : Pd → Pd) : (d.modPd p g).pgs = d.pgs := rfl
@[simp] theorem Dev.modPd_halves (p : Nat) (g : Pd → Pd) : (d.modPd p g).halves = d.halves := rfl
@[simp] theorem Dev.modPd_sinopia (p : Nat) (g : Pd → Pd) : (d.modPd p g).sinopia = d.sinopia := rfl
@[simp] theorem Dev.modPd_cores (p : Nat) (g : Pd → Pd) : (d.modPd p g).cores = d.cores := rfl
@[simp] theorem Dev.modPd_cans (p : Nat) (g : Pd → Pd) : (d.modPd p g).cans = d.cans := rfl
@[simp] theorem Dev.modPd_mbox (p : Nat) (g : Pd → Pd) : (d.modPd p g).mbox = d.mbox := rfl
@[simp] theorem Dev.modPd_events (p : Nat) (g : Pd → Pd) : (d.modPd p g).events = d.events := rfl
@[simp] theorem Dev.modPd_gesso (p : Nat) (g : Pd → Pd) : (d.modPd p g).gesso = d.gesso := rfl
@[simp] theorem Dev.modPd_start (p : Nat) (g : Pd → Pd) : (d.modPd p g).start = d.start := rfl
@[simp] theorem Dev.modPd_flash (p : Nat) (g : Pd → Pd) : (d.modPd p g).flash = d.flash := rfl
@[simp] theorem Dev.modPd_update (p : Nat) (g : Pd → Pd) : (d.modPd p g).update = d.update := rfl
@[simp] theorem Dev.modPd_sys (p : Nat) (g : Pd → Pd) : (d.modPd p g).sys = d.sys := rfl
theorem Dev.modPd_other (p q : Nat) (g : Pd → Pd) (h : q ≠ p) : (d.modPd p g).port q = d.port q := by
  simp [Dev.modPd, Dev.modPort_other _ _ _ _ h]
@[simp] theorem Dev.modSeq_port_owner (p q : Nat) (g : PdSeq → PdSeq) : ((d.modSeq p g).port q).owner = (d.port q).owner := by
  by_cases h : q = p
  · subst h; simp [Dev.modSeq]
  · simp [Dev.modSeq, Dev.modPort_other _ _ _ _ h]
@[simp] theorem Dev.modSeq_port_bus (p q : Nat) (g : PdSeq → PdSeq) : ((d.modSeq p g).port q).bus = (d.port q).bus := by
  by_cases h : q = p
  · subst h; simp [Dev.modSeq]
  · simp [Dev.modSeq, Dev.modPort_other _ _ _ _ h]
@[simp] theorem Dev.modSeq_port_cnt (p q : Nat) (g : PdSeq → PdSeq) : ((d.modSeq p g).port q).cnt = (d.port q).cnt := by
  by_cases h : q = p
  · subst h; simp [Dev.modSeq]
  · simp [Dev.modSeq, Dev.modPort_other _ _ _ _ h]
@[simp] theorem Dev.modSeq_port_tc (p q : Nat) (g : PdSeq → PdSeq) : ((d.modSeq p g).port q).tc = (d.port q).tc := by
  by_cases h : q = p
  · subst h; simp [Dev.modSeq]
  · simp [Dev.modSeq, Dev.modPort_other _ _ _ _ h]
@[simp] theorem Dev.modSeq_port_pd (p q : Nat) (g : PdSeq → PdSeq) : ((d.modSeq p g).port q).pd = (d.port q).pd := by
  by_cases h : q = p
  · subst h; simp [Dev.modSeq]
  · simp [Dev.modSeq, Dev.modPort_other _ _ _ _ h]
@[simp] theorem Dev.modSeq_seq (p : Nat) (g : PdSeq → PdSeq) : ((d.modSeq p g).port p).seq = g (d.port p).seq := by simp [Dev.modSeq]
@[simp] theorem Dev.modSeq_port_stage (p q : Nat) (g : PdSeq → PdSeq) : ((d.modSeq p g).port q).stage = (d.port q).stage := by
  by_cases h : q = p
  · subst h; simp [Dev.modSeq]
  · simp [Dev.modSeq, Dev.modPort_other _ _ _ _ h]
@[simp] theorem Dev.modSeq_port_plan (p q : Nat) (g : PdSeq → PdSeq) : ((d.modSeq p g).port q).plan = (d.port q).plan := by
  by_cases h : q = p
  · subst h; simp [Dev.modSeq]
  · simp [Dev.modSeq, Dev.modPort_other _ _ _ _ h]
@[simp] theorem Dev.modSeq_port_fenceWait (p q : Nat) (g : PdSeq → PdSeq) : ((d.modSeq p g).port q).fenceWait = (d.port q).fenceWait := by
  by_cases h : q = p
  · subst h; simp [Dev.modSeq]
  · simp [Dev.modSeq, Dev.modPort_other _ _ _ _ h]
@[simp] theorem Dev.modSeq_out (p : Nat) (g : PdSeq → PdSeq) : (d.modSeq p g).out = d.out := rfl
@[simp] theorem Dev.modSeq_freeCtr (p : Nat) (g : PdSeq → PdSeq) : (d.modSeq p g).freeCtr = d.freeCtr := rfl
@[simp] theorem Dev.modSeq_memOps (p : Nat) (g : PdSeq → PdSeq) : (d.modSeq p g).memOps = d.memOps := rfl
@[simp] theorem Dev.modSeq_dict (p : Nat) (g : PdSeq → PdSeq) : (d.modSeq p g).dict = d.dict := rfl
@[simp] theorem Dev.modSeq_funcs (p : Nat) (g : PdSeq → PdSeq) : (d.modSeq p g).funcs = d.funcs := rfl
@[simp] theorem Dev.modSeq_groups (p : Nat) (g : PdSeq → PdSeq) : (d.modSeq p g).groups = d.groups := rfl
@[simp] theorem Dev.modSeq_slices (p : Nat) (g : PdSeq → PdSeq) : (d.modSeq p g).slices = d.slices := rfl
@[simp] theorem Dev.modSeq_engs (p : Nat) (g : PdSeq → PdSeq) : (d.modSeq p g).engs = d.engs := rfl
@[simp] theorem Dev.modSeq_pgs (p : Nat) (g : PdSeq → PdSeq) : (d.modSeq p g).pgs = d.pgs := rfl
@[simp] theorem Dev.modSeq_halves (p : Nat) (g : PdSeq → PdSeq) : (d.modSeq p g).halves = d.halves := rfl
@[simp] theorem Dev.modSeq_sinopia (p : Nat) (g : PdSeq → PdSeq) : (d.modSeq p g).sinopia = d.sinopia := rfl
@[simp] theorem Dev.modSeq_cores (p : Nat) (g : PdSeq → PdSeq) : (d.modSeq p g).cores = d.cores := rfl
@[simp] theorem Dev.modSeq_cans (p : Nat) (g : PdSeq → PdSeq) : (d.modSeq p g).cans = d.cans := rfl
@[simp] theorem Dev.modSeq_mbox (p : Nat) (g : PdSeq → PdSeq) : (d.modSeq p g).mbox = d.mbox := rfl
@[simp] theorem Dev.modSeq_events (p : Nat) (g : PdSeq → PdSeq) : (d.modSeq p g).events = d.events := rfl
@[simp] theorem Dev.modSeq_gesso (p : Nat) (g : PdSeq → PdSeq) : (d.modSeq p g).gesso = d.gesso := rfl
@[simp] theorem Dev.modSeq_start (p : Nat) (g : PdSeq → PdSeq) : (d.modSeq p g).start = d.start := rfl
@[simp] theorem Dev.modSeq_flash (p : Nat) (g : PdSeq → PdSeq) : (d.modSeq p g).flash = d.flash := rfl
@[simp] theorem Dev.modSeq_update (p : Nat) (g : PdSeq → PdSeq) : (d.modSeq p g).update = d.update := rfl
@[simp] theorem Dev.modSeq_sys (p : Nat) (g : PdSeq → PdSeq) : (d.modSeq p g).sys = d.sys := rfl
theorem Dev.modSeq_other (p q : Nat) (g : PdSeq → PdSeq) (h : q ≠ p) : (d.modSeq p g).port q = d.port q := by
  simp [Dev.modSeq, Dev.modPort_other _ _ _ _ h]
@[simp] theorem Dev.modStage_port_owner (p q : Nat) (g : Stage → Stage) : ((d.modStage p g).port q).owner = (d.port q).owner := by
  by_cases h : q = p
  · subst h; simp [Dev.modStage]
  · simp [Dev.modStage, Dev.modPort_other _ _ _ _ h]
@[simp] theorem Dev.modStage_port_bus (p q : Nat) (g : Stage → Stage) : ((d.modStage p g).port q).bus = (d.port q).bus := by
  by_cases h : q = p
  · subst h; simp [Dev.modStage]
  · simp [Dev.modStage, Dev.modPort_other _ _ _ _ h]
@[simp] theorem Dev.modStage_port_cnt (p q : Nat) (g : Stage → Stage) : ((d.modStage p g).port q).cnt = (d.port q).cnt := by
  by_cases h : q = p
  · subst h; simp [Dev.modStage]
  · simp [Dev.modStage, Dev.modPort_other _ _ _ _ h]
@[simp] theorem Dev.modStage_port_tc (p q : Nat) (g : Stage → Stage) : ((d.modStage p g).port q).tc = (d.port q).tc := by
  by_cases h : q = p
  · subst h; simp [Dev.modStage]
  · simp [Dev.modStage, Dev.modPort_other _ _ _ _ h]
@[simp] theorem Dev.modStage_port_pd (p q : Nat) (g : Stage → Stage) : ((d.modStage p g).port q).pd = (d.port q).pd := by
  by_cases h : q = p
  · subst h; simp [Dev.modStage]
  · simp [Dev.modStage, Dev.modPort_other _ _ _ _ h]
@[simp] theorem Dev.modStage_port_seq (p q : Nat) (g : Stage → Stage) : ((d.modStage p g).port q).seq = (d.port q).seq := by
  by_cases h : q = p
  · subst h; simp [Dev.modStage]
  · simp [Dev.modStage, Dev.modPort_other _ _ _ _ h]
@[simp] theorem Dev.modStage_stage (p : Nat) (g : Stage → Stage) : ((d.modStage p g).port p).stage = g (d.port p).stage := by simp [Dev.modStage]
@[simp] theorem Dev.modStage_port_plan (p q : Nat) (g : Stage → Stage) : ((d.modStage p g).port q).plan = (d.port q).plan := by
  by_cases h : q = p
  · subst h; simp [Dev.modStage]
  · simp [Dev.modStage, Dev.modPort_other _ _ _ _ h]
@[simp] theorem Dev.modStage_port_fenceWait (p q : Nat) (g : Stage → Stage) : ((d.modStage p g).port q).fenceWait = (d.port q).fenceWait := by
  by_cases h : q = p
  · subst h; simp [Dev.modStage]
  · simp [Dev.modStage, Dev.modPort_other _ _ _ _ h]
@[simp] theorem Dev.modStage_out (p : Nat) (g : Stage → Stage) : (d.modStage p g).out = d.out := rfl
@[simp] theorem Dev.modStage_freeCtr (p : Nat) (g : Stage → Stage) : (d.modStage p g).freeCtr = d.freeCtr := rfl
@[simp] theorem Dev.modStage_memOps (p : Nat) (g : Stage → Stage) : (d.modStage p g).memOps = d.memOps := rfl
@[simp] theorem Dev.modStage_dict (p : Nat) (g : Stage → Stage) : (d.modStage p g).dict = d.dict := rfl
@[simp] theorem Dev.modStage_funcs (p : Nat) (g : Stage → Stage) : (d.modStage p g).funcs = d.funcs := rfl
@[simp] theorem Dev.modStage_groups (p : Nat) (g : Stage → Stage) : (d.modStage p g).groups = d.groups := rfl
@[simp] theorem Dev.modStage_slices (p : Nat) (g : Stage → Stage) : (d.modStage p g).slices = d.slices := rfl
@[simp] theorem Dev.modStage_engs (p : Nat) (g : Stage → Stage) : (d.modStage p g).engs = d.engs := rfl
@[simp] theorem Dev.modStage_pgs (p : Nat) (g : Stage → Stage) : (d.modStage p g).pgs = d.pgs := rfl
@[simp] theorem Dev.modStage_halves (p : Nat) (g : Stage → Stage) : (d.modStage p g).halves = d.halves := rfl
@[simp] theorem Dev.modStage_sinopia (p : Nat) (g : Stage → Stage) : (d.modStage p g).sinopia = d.sinopia := rfl
@[simp] theorem Dev.modStage_cores (p : Nat) (g : Stage → Stage) : (d.modStage p g).cores = d.cores := rfl
@[simp] theorem Dev.modStage_cans (p : Nat) (g : Stage → Stage) : (d.modStage p g).cans = d.cans := rfl
@[simp] theorem Dev.modStage_mbox (p : Nat) (g : Stage → Stage) : (d.modStage p g).mbox = d.mbox := rfl
@[simp] theorem Dev.modStage_events (p : Nat) (g : Stage → Stage) : (d.modStage p g).events = d.events := rfl
@[simp] theorem Dev.modStage_gesso (p : Nat) (g : Stage → Stage) : (d.modStage p g).gesso = d.gesso := rfl
@[simp] theorem Dev.modStage_start (p : Nat) (g : Stage → Stage) : (d.modStage p g).start = d.start := rfl
@[simp] theorem Dev.modStage_flash (p : Nat) (g : Stage → Stage) : (d.modStage p g).flash = d.flash := rfl
@[simp] theorem Dev.modStage_update (p : Nat) (g : Stage → Stage) : (d.modStage p g).update = d.update := rfl
@[simp] theorem Dev.modStage_sys (p : Nat) (g : Stage → Stage) : (d.modStage p g).sys = d.sys := rfl
theorem Dev.modStage_other (p q : Nat) (g : Stage → Stage) (h : q ≠ p) : (d.modStage p g).port q = d.port q := by
  simp [Dev.modStage, Dev.modPort_other _ _ _ _ h]
@[simp] theorem Dev.modWq_same (n q : Nat) (g : WQ → WQ) : (d.modWq n q g).wq n q = g (d.wq n q) := by simp [Dev.wq, Dev.modWq, Slice.wq]
@[simp] theorem Dev.modCq_same (n q : Nat) (g : CQ → CQ) : (d.modCq n q g).cq n q = g (d.cq n q) := by simp [Dev.cq, Dev.modCq, Slice.cq]
@[simp] theorem Dev.modHandle_same (n h : Nat) (g : Handle → Handle) : (d.modHandle n h g).handle n h = g (d.handle n h) := by simp [Dev.handle, Dev.modHandle, SliceEng.handle]
@[simp] theorem Dev.modEp_same (n h e : Nat) (g : Ep → Ep) : (d.modEp n h e g).ep n h e = g (d.ep n h e) := by simp [Dev.ep, Dev.modEp, Handle.ep]
@[simp] theorem Dev.modRing_same (n h e st : Nat) (g : Ring → Ring) : (d.modRing n h e st g).ring n h e st = g (d.ring n h e st) := by simp [Dev.ring, Dev.modRing, Ep.ring]
@[simp] theorem Dev.modPal_same (n r : Nat) (g : Pal → Pal) : (d.modPal n r g).pal n r = g (d.pal n r) := by simp [Dev.pal, Dev.modPal, SliceEng.palOf]
@[simp] theorem Dev.modWq_out (n q : Nat) (g : WQ → WQ) : (d.modWq n q g).out = d.out := rfl
@[simp] theorem Dev.modCq_out (n q : Nat) (g : CQ → CQ) : (d.modCq n q g).out = d.out := rfl
@[simp] theorem Dev.modHandle_out (n h : Nat) (g : Handle → Handle) : (d.modHandle n h g).out = d.out := rfl
@[simp] theorem Dev.modEp_out (n h e : Nat) (g : Ep → Ep) : (d.modEp n h e g).out = d.out := rfl
@[simp] theorem Dev.modRing_out (n h e st : Nat) (g : Ring → Ring) : (d.modRing n h e st g).out = d.out := rfl
@[simp] theorem Dev.modPal_out (n r : Nat) (g : Pal → Pal) : (d.modPal n r g).out = d.out := rfl
@[simp] theorem Dev.modWq_freeCtr (n q : Nat) (g : WQ → WQ) : (d.modWq n q g).freeCtr = d.freeCtr := rfl
@[simp] theorem Dev.modCq_freeCtr (n q : Nat) (g : CQ → CQ) : (d.modCq n q g).freeCtr = d.freeCtr := rfl
@[simp] theorem Dev.modHandle_freeCtr (n h : Nat) (g : Handle → Handle) : (d.modHandle n h g).freeCtr = d.freeCtr := rfl
@[simp] theorem Dev.modEp_freeCtr (n h e : Nat) (g : Ep → Ep) : (d.modEp n h e g).freeCtr = d.freeCtr := rfl
@[simp] theorem Dev.modRing_freeCtr (n h e st : Nat) (g : Ring → Ring) : (d.modRing n h e st g).freeCtr = d.freeCtr := rfl
@[simp] theorem Dev.modPal_freeCtr (n r : Nat) (g : Pal → Pal) : (d.modPal n r g).freeCtr = d.freeCtr := rfl
@[simp] theorem Dev.modWq_memOps (n q : Nat) (g : WQ → WQ) : (d.modWq n q g).memOps = d.memOps := rfl
@[simp] theorem Dev.modCq_memOps (n q : Nat) (g : CQ → CQ) : (d.modCq n q g).memOps = d.memOps := rfl
@[simp] theorem Dev.modHandle_memOps (n h : Nat) (g : Handle → Handle) : (d.modHandle n h g).memOps = d.memOps := rfl
@[simp] theorem Dev.modEp_memOps (n h e : Nat) (g : Ep → Ep) : (d.modEp n h e g).memOps = d.memOps := rfl
@[simp] theorem Dev.modRing_memOps (n h e st : Nat) (g : Ring → Ring) : (d.modRing n h e st g).memOps = d.memOps := rfl
@[simp] theorem Dev.modPal_memOps (n r : Nat) (g : Pal → Pal) : (d.modPal n r g).memOps = d.memOps := rfl
@[simp] theorem Dev.modWq_dict (n q : Nat) (g : WQ → WQ) : (d.modWq n q g).dict = d.dict := rfl
@[simp] theorem Dev.modCq_dict (n q : Nat) (g : CQ → CQ) : (d.modCq n q g).dict = d.dict := rfl
@[simp] theorem Dev.modHandle_dict (n h : Nat) (g : Handle → Handle) : (d.modHandle n h g).dict = d.dict := rfl
@[simp] theorem Dev.modEp_dict (n h e : Nat) (g : Ep → Ep) : (d.modEp n h e g).dict = d.dict := rfl
@[simp] theorem Dev.modRing_dict (n h e st : Nat) (g : Ring → Ring) : (d.modRing n h e st g).dict = d.dict := rfl
@[simp] theorem Dev.modPal_dict (n r : Nat) (g : Pal → Pal) : (d.modPal n r g).dict = d.dict := rfl
@[simp] theorem Dev.modWq_funcs (n q : Nat) (g : WQ → WQ) : (d.modWq n q g).funcs = d.funcs := rfl
@[simp] theorem Dev.modCq_funcs (n q : Nat) (g : CQ → CQ) : (d.modCq n q g).funcs = d.funcs := rfl
@[simp] theorem Dev.modHandle_funcs (n h : Nat) (g : Handle → Handle) : (d.modHandle n h g).funcs = d.funcs := rfl
@[simp] theorem Dev.modEp_funcs (n h e : Nat) (g : Ep → Ep) : (d.modEp n h e g).funcs = d.funcs := rfl
@[simp] theorem Dev.modRing_funcs (n h e st : Nat) (g : Ring → Ring) : (d.modRing n h e st g).funcs = d.funcs := rfl
@[simp] theorem Dev.modPal_funcs (n r : Nat) (g : Pal → Pal) : (d.modPal n r g).funcs = d.funcs := rfl
@[simp] theorem Dev.modWq_groups (n q : Nat) (g : WQ → WQ) : (d.modWq n q g).groups = d.groups := rfl
@[simp] theorem Dev.modCq_groups (n q : Nat) (g : CQ → CQ) : (d.modCq n q g).groups = d.groups := rfl
@[simp] theorem Dev.modHandle_groups (n h : Nat) (g : Handle → Handle) : (d.modHandle n h g).groups = d.groups := rfl
@[simp] theorem Dev.modEp_groups (n h e : Nat) (g : Ep → Ep) : (d.modEp n h e g).groups = d.groups := rfl
@[simp] theorem Dev.modRing_groups (n h e st : Nat) (g : Ring → Ring) : (d.modRing n h e st g).groups = d.groups := rfl
@[simp] theorem Dev.modPal_groups (n r : Nat) (g : Pal → Pal) : (d.modPal n r g).groups = d.groups := rfl
@[simp] theorem Dev.modHandle_slices (n h : Nat) (g : Handle → Handle) : (d.modHandle n h g).slices = d.slices := rfl
@[simp] theorem Dev.modEp_slices (n h e : Nat) (g : Ep → Ep) : (d.modEp n h e g).slices = d.slices := rfl
@[simp] theorem Dev.modRing_slices (n h e st : Nat) (g : Ring → Ring) : (d.modRing n h e st g).slices = d.slices := rfl
@[simp] theorem Dev.modPal_slices (n r : Nat) (g : Pal → Pal) : (d.modPal n r g).slices = d.slices := rfl
@[simp] theorem Dev.modWq_engs (n q : Nat) (g : WQ → WQ) : (d.modWq n q g).engs = d.engs := rfl
@[simp] theorem Dev.modCq_engs (n q : Nat) (g : CQ → CQ) : (d.modCq n q g).engs = d.engs := rfl
@[simp] theorem Dev.modWq_ports (n q : Nat) (g : WQ → WQ) : (d.modWq n q g).ports = d.ports := rfl
@[simp] theorem Dev.modCq_ports (n q : Nat) (g : CQ → CQ) : (d.modCq n q g).ports = d.ports := rfl
@[simp] theorem Dev.modHandle_ports (n h : Nat) (g : Handle → Handle) : (d.modHandle n h g).ports = d.ports := rfl
@[simp] theorem Dev.modEp_ports (n h e : Nat) (g : Ep → Ep) : (d.modEp n h e g).ports = d.ports := rfl
@[simp] theorem Dev.modRing_ports (n h e st : Nat) (g : Ring → Ring) : (d.modRing n h e st g).ports = d.ports := rfl
@[simp] theorem Dev.modPal_ports (n r : Nat) (g : Pal → Pal) : (d.modPal n r g).ports = d.ports := rfl
@[simp] theorem Dev.modWq_pgs (n q : Nat) (g : WQ → WQ) : (d.modWq n q g).pgs = d.pgs := rfl
@[simp] theorem Dev.modCq_pgs (n q : Nat) (g : CQ → CQ) : (d.modCq n q g).pgs = d.pgs := rfl
@[simp] theorem Dev.modHandle_pgs (n h : Nat) (g : Handle → Handle) : (d.modHandle n h g).pgs = d.pgs := rfl
@[simp] theorem Dev.modEp_pgs (n h e : Nat) (g : Ep → Ep) : (d.modEp n h e g).pgs = d.pgs := rfl
@[simp] theorem Dev.modRing_pgs (n h e st : Nat) (g : Ring → Ring) : (d.modRing n h e st g).pgs = d.pgs := rfl
@[simp] theorem Dev.modPal_pgs (n r : Nat) (g : Pal → Pal) : (d.modPal n r g).pgs = d.pgs := rfl
@[simp] theorem Dev.modWq_halves (n q : Nat) (g : WQ → WQ) : (d.modWq n q g).halves = d.halves := rfl
@[simp] theorem Dev.modCq_halves (n q : Nat) (g : CQ → CQ) : (d.modCq n q g).halves = d.halves := rfl
@[simp] theorem Dev.modHandle_halves (n h : Nat) (g : Handle → Handle) : (d.modHandle n h g).halves = d.halves := rfl
@[simp] theorem Dev.modEp_halves (n h e : Nat) (g : Ep → Ep) : (d.modEp n h e g).halves = d.halves := rfl
@[simp] theorem Dev.modRing_halves (n h e st : Nat) (g : Ring → Ring) : (d.modRing n h e st g).halves = d.halves := rfl
@[simp] theorem Dev.modPal_halves (n r : Nat) (g : Pal → Pal) : (d.modPal n r g).halves = d.halves := rfl
@[simp] theorem Dev.modWq_sinopia (n q : Nat) (g : WQ → WQ) : (d.modWq n q g).sinopia = d.sinopia := rfl
@[simp] theorem Dev.modCq_sinopia (n q : Nat) (g : CQ → CQ) : (d.modCq n q g).sinopia = d.sinopia := rfl
@[simp] theorem Dev.modHandle_sinopia (n h : Nat) (g : Handle → Handle) : (d.modHandle n h g).sinopia = d.sinopia := rfl
@[simp] theorem Dev.modEp_sinopia (n h e : Nat) (g : Ep → Ep) : (d.modEp n h e g).sinopia = d.sinopia := rfl
@[simp] theorem Dev.modRing_sinopia (n h e st : Nat) (g : Ring → Ring) : (d.modRing n h e st g).sinopia = d.sinopia := rfl
@[simp] theorem Dev.modPal_sinopia (n r : Nat) (g : Pal → Pal) : (d.modPal n r g).sinopia = d.sinopia := rfl
@[simp] theorem Dev.modWq_cores (n q : Nat) (g : WQ → WQ) : (d.modWq n q g).cores = d.cores := rfl
@[simp] theorem Dev.modCq_cores (n q : Nat) (g : CQ → CQ) : (d.modCq n q g).cores = d.cores := rfl
@[simp] theorem Dev.modHandle_cores (n h : Nat) (g : Handle → Handle) : (d.modHandle n h g).cores = d.cores := rfl
@[simp] theorem Dev.modEp_cores (n h e : Nat) (g : Ep → Ep) : (d.modEp n h e g).cores = d.cores := rfl
@[simp] theorem Dev.modRing_cores (n h e st : Nat) (g : Ring → Ring) : (d.modRing n h e st g).cores = d.cores := rfl
@[simp] theorem Dev.modPal_cores (n r : Nat) (g : Pal → Pal) : (d.modPal n r g).cores = d.cores := rfl
@[simp] theorem Dev.modWq_cans (n q : Nat) (g : WQ → WQ) : (d.modWq n q g).cans = d.cans := rfl
@[simp] theorem Dev.modCq_cans (n q : Nat) (g : CQ → CQ) : (d.modCq n q g).cans = d.cans := rfl
@[simp] theorem Dev.modHandle_cans (n h : Nat) (g : Handle → Handle) : (d.modHandle n h g).cans = d.cans := rfl
@[simp] theorem Dev.modEp_cans (n h e : Nat) (g : Ep → Ep) : (d.modEp n h e g).cans = d.cans := rfl
@[simp] theorem Dev.modRing_cans (n h e st : Nat) (g : Ring → Ring) : (d.modRing n h e st g).cans = d.cans := rfl
@[simp] theorem Dev.modPal_cans (n r : Nat) (g : Pal → Pal) : (d.modPal n r g).cans = d.cans := rfl
@[simp] theorem Dev.modWq_mbox (n q : Nat) (g : WQ → WQ) : (d.modWq n q g).mbox = d.mbox := rfl
@[simp] theorem Dev.modCq_mbox (n q : Nat) (g : CQ → CQ) : (d.modCq n q g).mbox = d.mbox := rfl
@[simp] theorem Dev.modHandle_mbox (n h : Nat) (g : Handle → Handle) : (d.modHandle n h g).mbox = d.mbox := rfl
@[simp] theorem Dev.modEp_mbox (n h e : Nat) (g : Ep → Ep) : (d.modEp n h e g).mbox = d.mbox := rfl
@[simp] theorem Dev.modRing_mbox (n h e st : Nat) (g : Ring → Ring) : (d.modRing n h e st g).mbox = d.mbox := rfl
@[simp] theorem Dev.modPal_mbox (n r : Nat) (g : Pal → Pal) : (d.modPal n r g).mbox = d.mbox := rfl
@[simp] theorem Dev.modWq_events (n q : Nat) (g : WQ → WQ) : (d.modWq n q g).events = d.events := rfl
@[simp] theorem Dev.modCq_events (n q : Nat) (g : CQ → CQ) : (d.modCq n q g).events = d.events := rfl
@[simp] theorem Dev.modHandle_events (n h : Nat) (g : Handle → Handle) : (d.modHandle n h g).events = d.events := rfl
@[simp] theorem Dev.modEp_events (n h e : Nat) (g : Ep → Ep) : (d.modEp n h e g).events = d.events := rfl
@[simp] theorem Dev.modRing_events (n h e st : Nat) (g : Ring → Ring) : (d.modRing n h e st g).events = d.events := rfl
@[simp] theorem Dev.modPal_events (n r : Nat) (g : Pal → Pal) : (d.modPal n r g).events = d.events := rfl
@[simp] theorem Dev.modWq_gesso (n q : Nat) (g : WQ → WQ) : (d.modWq n q g).gesso = d.gesso := rfl
@[simp] theorem Dev.modCq_gesso (n q : Nat) (g : CQ → CQ) : (d.modCq n q g).gesso = d.gesso := rfl
@[simp] theorem Dev.modHandle_gesso (n h : Nat) (g : Handle → Handle) : (d.modHandle n h g).gesso = d.gesso := rfl
@[simp] theorem Dev.modEp_gesso (n h e : Nat) (g : Ep → Ep) : (d.modEp n h e g).gesso = d.gesso := rfl
@[simp] theorem Dev.modRing_gesso (n h e st : Nat) (g : Ring → Ring) : (d.modRing n h e st g).gesso = d.gesso := rfl
@[simp] theorem Dev.modPal_gesso (n r : Nat) (g : Pal → Pal) : (d.modPal n r g).gesso = d.gesso := rfl
@[simp] theorem Dev.modWq_start (n q : Nat) (g : WQ → WQ) : (d.modWq n q g).start = d.start := rfl
@[simp] theorem Dev.modCq_start (n q : Nat) (g : CQ → CQ) : (d.modCq n q g).start = d.start := rfl
@[simp] theorem Dev.modHandle_start (n h : Nat) (g : Handle → Handle) : (d.modHandle n h g).start = d.start := rfl
@[simp] theorem Dev.modEp_start (n h e : Nat) (g : Ep → Ep) : (d.modEp n h e g).start = d.start := rfl
@[simp] theorem Dev.modRing_start (n h e st : Nat) (g : Ring → Ring) : (d.modRing n h e st g).start = d.start := rfl
@[simp] theorem Dev.modPal_start (n r : Nat) (g : Pal → Pal) : (d.modPal n r g).start = d.start := rfl
@[simp] theorem Dev.modWq_flash (n q : Nat) (g : WQ → WQ) : (d.modWq n q g).flash = d.flash := rfl
@[simp] theorem Dev.modCq_flash (n q : Nat) (g : CQ → CQ) : (d.modCq n q g).flash = d.flash := rfl
@[simp] theorem Dev.modHandle_flash (n h : Nat) (g : Handle → Handle) : (d.modHandle n h g).flash = d.flash := rfl
@[simp] theorem Dev.modEp_flash (n h e : Nat) (g : Ep → Ep) : (d.modEp n h e g).flash = d.flash := rfl
@[simp] theorem Dev.modRing_flash (n h e st : Nat) (g : Ring → Ring) : (d.modRing n h e st g).flash = d.flash := rfl
@[simp] theorem Dev.modPal_flash (n r : Nat) (g : Pal → Pal) : (d.modPal n r g).flash = d.flash := rfl
@[simp] theorem Dev.modWq_update (n q : Nat) (g : WQ → WQ) : (d.modWq n q g).update = d.update := rfl
@[simp] theorem Dev.modCq_update (n q : Nat) (g : CQ → CQ) : (d.modCq n q g).update = d.update := rfl
@[simp] theorem Dev.modHandle_update (n h : Nat) (g : Handle → Handle) : (d.modHandle n h g).update = d.update := rfl
@[simp] theorem Dev.modEp_update (n h e : Nat) (g : Ep → Ep) : (d.modEp n h e g).update = d.update := rfl
@[simp] theorem Dev.modRing_update (n h e st : Nat) (g : Ring → Ring) : (d.modRing n h e st g).update = d.update := rfl
@[simp] theorem Dev.modPal_update (n r : Nat) (g : Pal → Pal) : (d.modPal n r g).update = d.update := rfl
@[simp] theorem Dev.modWq_sys (n q : Nat) (g : WQ → WQ) : (d.modWq n q g).sys = d.sys := rfl
@[simp] theorem Dev.modCq_sys (n q : Nat) (g : CQ → CQ) : (d.modCq n q g).sys = d.sys := rfl
@[simp] theorem Dev.modHandle_sys (n h : Nat) (g : Handle → Handle) : (d.modHandle n h g).sys = d.sys := rfl
@[simp] theorem Dev.modEp_sys (n h e : Nat) (g : Ep → Ep) : (d.modEp n h e g).sys = d.sys := rfl
@[simp] theorem Dev.modRing_sys (n h e st : Nat) (g : Ring → Ring) : (d.modRing n h e st g).sys = d.sys := rfl
@[simp] theorem Dev.modPal_sys (n r : Nat) (g : Pal → Pal) : (d.modPal n r g).sys = d.sys := rfl

end Sys2Proof.Machine
end

