-- ==== Sys2Proof/Laws/KeepOps.lean ====
section
/-! SUPPORT. Which operations leave the dictionary, the host groups, the start, the flash states and the update alone (Dev.keep). -/
namespace Sys2Proof.Machine

set_option linter.unusedSimpArgs false
set_option linter.unreachableTactic false
set_option linter.unusedTactic false

/-- A memory operation other than the mailbox's response. -/
def MemOp.other : MemOp → Bool
  | .resp _ _ => false
  | _ => true

/-- The parts that no bus, ring, queue or port operation changes; of the memory operations, all but the mailbox's responses. -/
def Dev.keep (d : Dev) : Dict × Tab HostGroup × StartSt × Flash × Update × List MemOp :=
  (d.dict, d.groups, d.start, d.flash, d.update, d.memOps.filter MemOp.other)

theorem keep_mk (d : Dev) (o fc fu sl en po pg ha si co ca mb ev ge sy) :
    Dev.keep (Dev.mk o fc d.memOps d.dict fu d.groups sl en po pg ha si co ca mb ev ge d.start d.flash d.update sy) = d.keep := rfl
theorem keep_ite (c : Prop) [Decidable c] (a b : Dev) : (if c then a else b).keep = if c then a.keep else b.keep := by
  split <;> rfl
theorem ite_of {c : Prop} [Decidable c] {a b : Dev} {x} (h : a.keep = x) (g : b.keep = x) : (if c then a else b).keep = x := by
  split
  · exact h
  · exact g
theorem fold_keep {α : Type} (f : Dev → α → Dev) (l : List α) (d : Dev) (h : ∀ d a, (f d a).keep = d.keep) :
    (l.foldl f d).keep = d.keep := by
  induction l generalizing d with
  | nil => rfl
  | cons a r ih => exact (ih (f d a)).trans (h d a)
theorem pair_keep {α : Type} {x : α × Dev} {a : α} {d : Dev} (h : x = (a, d)) : d.keep = x.2.keep := by rw [h]
theorem fold1_keep {α β : Type} (f : Dev × β → α → Dev × β) (l : List α) (t : Dev × β) (h : ∀ t a, (f t a).1.keep = t.1.keep) :
    (l.foldl f t).1.keep = t.1.keep := by
  induction l generalizing t with
  | nil => rfl
  | cons a r ih => exact (ih (f t a)).trans (h t a)
theorem fold2_keep {α β : Type} (f : β × Dev → α → β × Dev) (l : List α) (t : β × Dev) (h : ∀ t a, (f t a).2.keep = t.2.keep) :
    (l.foldl f t).2.keep = t.2.keep := by
  induction l generalizing t with
  | nil => rfl
  | cons a r ih => exact (ih (f t a)).trans (h t a)
theorem elim_keep {α : Type} (o : Option α) (d : Dev) (f : α → Dev) : (o.elim d f).keep = o.elim d.keep (fun a => (f a).keep) := by
  cases o <;> rfl
theorem elim_same {α β : Type} (o : Option α) (x : β) : o.elim x (fun _ => x) = x := by
  cases o <;> rfl

theorem Dev.modSlice_keep (n : Nat) (g : Slice → Slice) (d : Dev) : (Dev.modSlice n g d).keep = d.keep := by
  unfold Dev.modSlice
  try dsimp only
  repeat' (first | (simp only [keep_mk, keep_ite, ite_self, eq_self, implies_true]; done) | with_reducible refine ite_of ?_ ?_ | split)
theorem Dev.modEng_keep (n : Nat) (g : SliceEng → SliceEng) (d : Dev) : (Dev.modEng n g d).keep = d.keep := by
  unfold Dev.modEng
  try dsimp only
  repeat' (first | (simp only [keep_mk, keep_ite, ite_self, eq_self, implies_true]; done) | with_reducible refine ite_of ?_ ?_ | split)
theorem Dev.modPort_keep (p : Nat) (g : Port → Port) (d : Dev) : (Dev.modPort p g d).keep = d.keep := by
  unfold Dev.modPort
  try dsimp only
  repeat' (first | (simp only [keep_mk, keep_ite, ite_self, eq_self, implies_true]; done) | with_reducible refine ite_of ?_ ?_ | split)
theorem Dev.modFunc_keep (f : Nat) (g : Func → Func) (d : Dev) : (Dev.modFunc f g d).keep = d.keep := by
  unfold Dev.modFunc
  try dsimp only
  repeat' (first | (simp only [keep_mk, keep_ite, ite_self, eq_self, implies_true]; done) | with_reducible refine ite_of ?_ ?_ | split)
theorem Dev.modPg_keep (k : Nat) (g : PGroup → PGroup) (d : Dev) : (Dev.modPg k g d).keep = d.keep := by
  unfold Dev.modPg
  try dsimp only
  repeat' (first | (simp only [keep_mk, keep_ite, ite_self, eq_self, implies_true]; done) | with_reducible refine ite_of ?_ ?_ | split)
theorem Dev.modHalf_keep (h : Nat) (g : Half → Half) (d : Dev) : (Dev.modHalf h g d).keep = d.keep := by
  unfold Dev.modHalf
  try dsimp only
  repeat' (first | (simp only [keep_mk, keep_ite, ite_self, eq_self, implies_true]; done) | with_reducible refine ite_of ?_ ?_ | split)
theorem Dev.modCore_keep (c : Nat) (g : Core → Core) (d : Dev) : (Dev.modCore c g d).keep = d.keep := by
  unfold Dev.modCore
  try dsimp only
  repeat' (first | (simp only [keep_mk, keep_ite, ite_self, eq_self, implies_true]; done) | with_reducible refine ite_of ?_ ?_ | split)
theorem Dev.modCan_keep (l : Nat) (g : CanLink → CanLink) (d : Dev) : (Dev.modCan l g d).keep = d.keep := by
  unfold Dev.modCan
  try dsimp only
  repeat' (first | (simp only [keep_mk, keep_ite, ite_self, eq_self, implies_true]; done) | with_reducible refine ite_of ?_ ?_ | split)
theorem Dev.modBus_keep (p : Nat) (g : PortBus → PortBus) (d0 : Dev) : (Dev.modBus p g d0).keep = d0.keep := by
  unfold Dev.modBus
  try dsimp only
  repeat' (first | (simp only [keep_mk, keep_ite, ite_self, eq_self, implies_true, Dev.modPort_keep]; done) | with_reducible refine ite_of ?_ ?_ | split)
theorem Dev.modCnt_keep (p : Nat) (g : BusCnt → BusCnt) (d0 : Dev) : (Dev.modCnt p g d0).keep = d0.keep := by
  unfold Dev.modCnt
  try dsimp only
  repeat' (first | (simp only [keep_mk, keep_ite, ite_self, eq_self, implies_true, Dev.modPort_keep]; done) | with_reducible refine ite_of ?_ ?_ | split)
theorem Dev.modTc_keep (p : Nat) (g : TypeC → TypeC) (d0 : Dev) : (Dev.modTc p g d0).keep = d0.keep := by
  unfold Dev.modTc
  try dsimp only
  repeat' (first | (simp only [keep_mk, keep_ite, ite_self, eq_self, implies_true, Dev.modPort_keep]; done) | with_reducible refine ite_of ?_ ?_ | split)
theorem Dev.modPd_keep (p : Nat) (g : Pd → Pd) (d0 : Dev) : (Dev.modPd p g d0).keep = d0.keep := by
  unfold Dev.modPd
  try dsimp only
  repeat' (first | (simp only [keep_mk, keep_ite, ite_self, eq_self, implies_true, Dev.modPort_keep]; done) | with_reducible refine ite_of ?_ ?_ | split)
theorem Dev.modSeq_keep (p : Nat) (g : PdSeq → PdSeq) (d0 : Dev) : (Dev.modSeq p g d0).keep = d0.keep := by
  unfold Dev.modSeq
  try dsimp only
  repeat' (first | (simp only [keep_mk, keep_ite, ite_self, eq_self, implies_true, Dev.modPort_keep]; done) | with_reducible refine ite_of ?_ ?_ | split)
theorem Dev.modStage_keep (p : Nat) (g : Stage → Stage) (d0 : Dev) : (Dev.modStage p g d0).keep = d0.keep := by
  unfold Dev.modStage
  try dsimp only
  repeat' (first | (simp only [keep_mk, keep_ite, ite_self, eq_self, implies_true, Dev.modPort_keep]; done) | with_reducible refine ite_of ?_ ?_ | split)
theorem Dev.modEasel_keep (h : Nat) (g : Easel → Easel) (d0 : Dev) : (Dev.modEasel h g d0).keep = d0.keep := by
  unfold Dev.modEasel
  try dsimp only
  repeat' (first | (simp only [keep_mk, keep_ite, ite_self, eq_self, implies_true, Dev.modHalf_keep]; done) | with_reducible refine ite_of ?_ ?_ | split)
theorem Dev.modWq_keep (n : Nat) (q : Nat) (g : WQ → WQ) (d0 : Dev) : (Dev.modWq n q g d0).keep = d0.keep := by
  unfold Dev.modWq
  try dsimp only
  repeat' (first | (simp only [keep_mk, keep_ite, ite_self, eq_self, implies_true, Dev.modSlice_keep]; done) | with_reducible refine ite_of ?_ ?_ | split)
theorem Dev.modCq_keep (n : Nat) (q : Nat) (g : CQ → CQ) (d0 : Dev) : (Dev.modCq n q g d0).keep = d0.keep := by
  unfold Dev.modCq
  try dsimp only
  repeat' (first | (simp only [keep_mk, keep_ite, ite_self, eq_self, implies_true, Dev.modSlice_keep]; done) | with_reducible refine ite_of ?_ ?_ | split)
theorem Dev.modHandle_keep (n : Nat) (h : Nat) (g : Handle → Handle) (d0 : Dev) : (Dev.modHandle n h g d0).keep = d0.keep := by
  unfold Dev.modHandle
  try dsimp only
  repeat' (first | (simp only [keep_mk, keep_ite, ite_self, eq_self, implies_true, Dev.modEng_keep]; done) | with_reducible refine ite_of ?_ ?_ | split)
theorem Dev.modEp_keep (n : Nat) (h : Nat) (e : Nat) (g : Ep → Ep) (d0 : Dev) : (Dev.modEp n h e g d0).keep = d0.keep := by
  unfold Dev.modEp
  try dsimp only
  repeat' (first | (simp only [keep_mk, keep_ite, ite_self, eq_self, implies_true, Dev.modHandle_keep]; done) | with_reducible refine ite_of ?_ ?_ | split)
theorem Dev.modRing_keep (n : Nat) (h : Nat) (e : Nat) (st : Nat) (g : Ring → Ring) (d0 : Dev) : (Dev.modRing n h e st g d0).keep = d0.keep := by
  unfold Dev.modRing
  try dsimp only
  repeat' (first | (simp only [keep_mk, keep_ite, ite_self, eq_self, implies_true, Dev.modEp_keep]; done) | with_reducible refine ite_of ?_ ?_ | split)
theorem Dev.modXfer_keep (n : Nat) (h : Nat) (e : Nat) (g : Xfer → Xfer) (d0 : Dev) : (Dev.modXfer n h e g d0).keep = d0.keep := by
  unfold Dev.modXfer
  try dsimp only
  repeat' (first | (simp only [keep_mk, keep_ite, ite_self, eq_self, implies_true, Dev.modEp_keep]; done) | with_reducible refine ite_of ?_ ?_ | split)
theorem Dev.modEpBus_keep (n : Nat) (h : Nat) (e : Nat) (g : EpBus → EpBus) (d0 : Dev) : (Dev.modEpBus n h e g d0).keep = d0.keep := by
  unfold Dev.modEpBus
  try dsimp only
  repeat' (first | (simp only [keep_mk, keep_ite, ite_self, eq_self, implies_true, Dev.modEp_keep]; done) | with_reducible refine ite_of ?_ ?_ | split)
theorem Dev.modPal_keep (n : Nat) (r : Nat) (g : Pal → Pal) (d0 : Dev) : (Dev.modPal n r g d0).keep = d0.keep := by
  unfold Dev.modPal
  try dsimp only
  repeat' (first | (simp only [keep_mk, keep_ite, ite_self, eq_self, implies_true, Dev.modEng_keep]; done) | with_reducible refine ite_of ?_ ?_ | split)
theorem forEach_keep {α : Type} (l : List α) (f : α → Dev → Dev) (d : Dev) (h : ∀ a d, (f a d).keep = d.keep) :
    (forEach l f d).keep = d.keep := fold_keep _ l d (fun d a => h a d)
theorem doIf_keep (c : Bool) (f : Dev → Dev) (d : Dev) (h : ∀ d, (f d).keep = d.keep) : (doIf c f d).keep = d.keep := by
  unfold doIf; split
  · exact h d
  · rfl
theorem emit_keep (o : Output) (d : Dev) : (emit o d).keep = d.keep := by
  unfold emit
  try dsimp only
  repeat' (first | (simp only [keep_mk, keep_ite, ite_self, eq_self, implies_true]; done) | with_reducible refine ite_of ?_ ?_ | split)
theorem outageStart_keep (p : Nat) (d : Dev) : (outageStart p d).keep = d.keep := by
  unfold outageStart
  try dsimp only
  repeat' (first | (simp only [keep_mk, keep_ite, ite_self, eq_self, implies_true, Dev.modPort_keep]; done) | with_reducible refine ite_of ?_ ?_ | split)
theorem outageEnd_keep (p : Nat) (d : Dev) : (outageEnd p d).keep = d.keep := by
  unfold outageEnd
  try dsimp only
  repeat' (first | (simp only [keep_mk, keep_ite, ite_self, eq_self, implies_true, Dev.modPort_keep]; done) | with_reducible refine ite_of ?_ ?_ | split)
theorem queueEventFrame_keep (l : Nat) (c : Nat) (frame : List Byte) (d : Dev) : (queueEventFrame l c frame d).keep = d.keep := by
  unfold queueEventFrame
  try dsimp only
  repeat' (first | (simp only [keep_mk, keep_ite, ite_self, eq_self, implies_true, Dev.modCan_keep]; done) | with_reducible refine ite_of ?_ ?_ | split)
theorem putRecord_keep (sev : Nat) (e : Ev) (d : Dev) : (putRecord sev e d).keep = d.keep := by
  unfold putRecord
  try dsimp only
  repeat' (first | (simp only [keep_mk, keep_ite, ite_self, eq_self, implies_true]; done) | with_reducible refine ite_of ?_ ?_ | split)
theorem raise_keep (e : Ev) (d : Dev) : (raise e d).keep = d.keep := by
  unfold raise
  try dsimp only
  repeat' (first | (simp only [keep_mk, keep_ite, ite_self, eq_self, implies_true, doIf_keep, forEach_keep, putRecord_keep, queueEventFrame_keep]; done) | (with_reducible refine (doIf_keep _ _ _ (fun _ => ?_)).trans ?_) | (with_reducible refine (forEach_keep _ _ _ (fun _ _ => ?_)).trans ?_) | (simp only [keep_mk, keep_ite, ite_self, eq_self, implies_true, doIf_keep, forEach_keep, putRecord_keep, queueEventFrame_keep]; with_reducible (first | (with_reducible refine (doIf_keep _ _ _ (fun _ => ?_)).trans ?_) | (with_reducible refine (forEach_keep _ _ _ (fun _ _ => ?_)).trans ?_))) | with_reducible refine ite_of ?_ ?_ | split)
theorem fnMessage_keep (f : Nat) (v : Nat) (d : Dev) : (fnMessage f v d).keep = d.keep := by
  unfold fnMessage
  try dsimp only
  repeat' (first | (simp only [keep_mk, keep_ite, ite_self, eq_self, implies_true, Dev.modFunc_keep, emit_keep]; done) | with_reducible refine ite_of ?_ ?_ | split)
theorem summaryMessage_keep (f : Nat) (wasClear : Bool) (d0 : Dev) : (summaryMessage f wasClear d0).keep = d0.keep := by
  unfold summaryMessage
  try dsimp only
  repeat' (first | (simp only [keep_mk, keep_ite, ite_self, eq_self, implies_true, doIf_keep, fnMessage_keep]; done) | (with_reducible refine (doIf_keep _ _ _ (fun _ => ?_)).trans ?_) | (simp only [keep_mk, keep_ite, ite_self, eq_self, implies_true, doIf_keep, fnMessage_keep]; with_reducible (first | (with_reducible refine (doIf_keep _ _ _ (fun _ => ?_)).trans ?_))) | with_reducible refine ite_of ?_ ?_ | split)
theorem setRestarted_keep (f : Nat) (d : Dev) : (setRestarted f d).keep = d.keep := by
  unfold setRestarted
  try dsimp only
  repeat' (first | (simp only [keep_mk, keep_ite, ite_self, eq_self, implies_true, Dev.modFunc_keep, summaryMessage_keep]; done) | with_reducible refine ite_of ?_ ?_ | split)
theorem setGroupState_keep (f : Nat) (d : Dev) : (setGroupState f d).keep = d.keep := by
  unfold setGroupState
  try dsimp only
  repeat' (first | (simp only [keep_mk, keep_ite, ite_self, eq_self, implies_true, Dev.modFunc_keep, summaryMessage_keep]; done) | with_reducible refine ite_of ?_ ?_ | split)
theorem setSliceEvt_keep (n : Nat) (f : Nat) (d : Dev) : (setSliceEvt n f d).keep = d.keep := by
  unfold setSliceEvt
  try dsimp only
  repeat' (first | (simp only [keep_mk, keep_ite, ite_self, eq_self, implies_true, Dev.modFunc_keep, summaryMessage_keep]; done) | with_reducible refine ite_of ?_ ?_ | split)
theorem groupChanged_keep (g : Nat) (fs : List Nat) (d : Dev) : (groupChanged g fs d).keep = d.keep := by
  unfold groupChanged
  try dsimp only
  repeat' (first | (simp only [keep_mk, keep_ite, ite_self, eq_self, implies_true, forEach_keep, raise_keep, setGroupState_keep]; done) | (with_reducible refine (forEach_keep _ _ _ (fun _ _ => ?_)).trans ?_) | (simp only [keep_mk, keep_ite, ite_self, eq_self, implies_true, forEach_keep, raise_keep, setGroupState_keep]; with_reducible (first | (with_reducible refine (forEach_keep _ _ _ (fun _ _ => ?_)).trans ?_))) | with_reducible refine ite_of ?_ ?_ | split)
theorem canSend_keep (l : Nat) (func : Nat) (bytes : List Byte) (d : Dev) : (canSend l func bytes d).keep = d.keep := by
  unfold canSend
  try dsimp only
  repeat' (first | (simp only [keep_mk, keep_ite, ite_self, eq_self, implies_true, Dev.modCan_keep, emit_keep]; done) | with_reducible refine ite_of ?_ ?_ | split)
theorem herobAnswer_keep (l : Nat) (fr : HFrame) (code : Nat) (reason : Nat) (data : List Byte) (d : Dev) : (herobAnswer l fr code reason data d).keep = d.keep := by
  unfold herobAnswer
  try dsimp only
  repeat' (first | (simp only [keep_mk, keep_ite, ite_self, eq_self, implies_true, Dev.modCan_keep, canSend_keep]; done) | with_reducible refine ite_of ?_ ?_ | split)
theorem mboxAnswer_keep (code : Nat) (reason : Nat) (data : List Byte) (d : Dev) : (mboxAnswer code reason data d).keep = d.keep := by
  simp [mboxAnswer, Dev.keep, MemOp.other]
theorem answer_keep (p : Path) (code : Nat) (reason : Nat) (data : List Byte) (d : Dev) : (answer p code reason data d).keep = d.keep := by
  unfold answer
  try dsimp only
  repeat' (first | (simp only [keep_mk, keep_ite, ite_self, eq_self, implies_true, emit_keep, herobAnswer_keep, mboxAnswer_keep]; done) | with_reducible refine ite_of ?_ ?_ | split)
theorem accept_keep (p : Path) (d0 : Dev) : (accept p d0).keep = d0.keep := by
  unfold accept
  try dsimp only
  repeat' (first | (simp only [keep_mk, keep_ite, ite_self, eq_self, implies_true, answer_keep]; done) | with_reducible refine ite_of ?_ ?_ | split)
theorem refuse_keep (p : Path) (code : Nat) (reason : Nat) (d0 : Dev) : (refuse p code reason d0).keep = d0.keep := by
  unfold refuse
  try dsimp only
  repeat' (first | (simp only [keep_mk, keep_ite, ite_self, eq_self, implies_true, answer_keep]; done) | with_reducible refine ite_of ?_ ?_ | split)
theorem served_keep (p : Path) (loader : Bool) (f : Dev → Dev) (d : Dev) (hf : ∀ a0, (f a0).keep = a0.keep) : (served p loader f d).keep = d.keep := by
  unfold served
  try dsimp only
  repeat' (first | (simp only [keep_mk, keep_ite, ite_self, eq_self, implies_true, hf, refuse_keep]; done) | with_reducible refine ite_of ?_ ?_ | split)
theorem entered_keep (p : Path) (loader : Bool) (f : Dev → Dev) (d : Dev) (hf : ∀ a0, (f a0).keep = a0.keep) : (entered p loader f d).keep = d.keep := by
  unfold entered
  try dsimp only
  repeat' (first | (simp only [keep_mk, keep_ite, ite_self, eq_self, implies_true, hf, answer_keep, emit_keep, served_keep]; done) | (with_reducible refine (served_keep _ _ _ _ (fun _ => ?_)).trans ?_) | (simp only [keep_mk, keep_ite, ite_self, eq_self, implies_true, hf, answer_keep, emit_keep, served_keep]; with_reducible (first | (with_reducible refine (served_keep _ _ _ _ (fun _ => ?_)).trans ?_))) | with_reducible refine ite_of ?_ ?_ | split)
theorem guarded_keep (p : Path) (okValue : Bool) (f : Dev → Dev) (d0 : Dev) (hf : ∀ a0, (f a0).keep = a0.keep) : (guarded p okValue f d0).keep = d0.keep := by
  unfold guarded
  try dsimp only
  repeat' (first | (simp only [keep_mk, keep_ite, ite_self, eq_self, implies_true, hf, entered_keep, refuse_keep]; done) | (with_reducible refine (entered_keep _ _ _ _ (fun _ => ?_)).trans ?_) | (simp only [keep_mk, keep_ite, ite_self, eq_self, implies_true, hf, entered_keep, refuse_keep]; with_reducible (first | (with_reducible refine (entered_keep _ _ _ _ (fun _ => ?_)).trans ?_))) | with_reducible refine ite_of ?_ ?_ | split)
theorem opDone_keep (p : Path) (op : Nat) (n : Nat) (tag : Dword) (code : Nat) (reason : Nat) (r0 : Nat) (r1 : Nat) (r2 : Nat) (d : Dev) : (opDone p op n tag code reason r0 r1 r2 d).keep = d.keep := by
  unfold opDone
  try dsimp only
  repeat' (first | (simp only [keep_mk, keep_ite, ite_self, eq_self, implies_true, Dev.modSlice_keep, answer_keep]; done) | with_reducible refine ite_of ?_ ?_ | split)
theorem opEnd_keep (n : Nat) (code : Nat) (reason : Nat) (r0 : Nat) (r1 : Nat) (r2 : Nat) (d : Dev) : (opEnd n code reason r0 r1 r2 d).keep = d.keep := by
  unfold opEnd
  try dsimp only
  repeat' (first | (simp only [keep_mk, keep_ite, ite_self, eq_self, implies_true, Dev.modSlice_keep, opDone_keep]; done) | with_reducible refine ite_of ?_ ?_ | split)
theorem setSliceSt_keep (n : Nat) (st : SliceSt) (d : Dev) : (setSliceSt n st d).keep = d.keep := by
  unfold setSliceSt
  try dsimp only
  repeat' (first | (simp only [keep_mk, keep_ite, ite_self, eq_self, implies_true, Dev.modSlice_keep, forEach_keep, raise_keep, setSliceEvt_keep]; done) | (with_reducible refine (forEach_keep _ _ _ (fun _ _ => ?_)).trans ?_) | (simp only [keep_mk, keep_ite, ite_self, eq_self, implies_true, Dev.modSlice_keep, forEach_keep, raise_keep, setSliceEvt_keep]; with_reducible (first | (with_reducible refine (forEach_keep _ _ _ (fun _ _ => ?_)).trans ?_))) | with_reducible refine ite_of ?_ ?_ | split)
theorem miniAnswer_keep (l : Nat) (cmd : Nat) (fr : HFrame) (seq : Nat) (data : List Byte) (d : Dev) : (miniAnswer l cmd fr seq data d).keep = d.keep := by
  unfold miniAnswer
  try dsimp only
  repeat' (first | (simp only [keep_mk, keep_ite, ite_self, eq_self, implies_true, Dev.modCan_keep, canSend_keep]; done) | with_reducible refine ite_of ?_ ?_ | split)
theorem miniAbort_keep (l : Nat) (fr : HFrame) (code : Nat) (reason : Nat) (d0 : Dev) : (miniAbort l fr code reason d0).keep = d0.keep := by
  unfold miniAbort
  try dsimp only
  repeat' (first | (simp only [keep_mk, keep_ite, ite_self, eq_self, implies_true, miniAnswer_keep]; done) | with_reducible refine ite_of ?_ ?_ | split)
theorem fenceAnswer_keep (w : FenceWho) (d : Dev) : (fenceAnswer w d).keep = d.keep := by
  unfold fenceAnswer
  try dsimp only
  repeat' (first | (simp only [keep_mk, keep_ite, ite_self, eq_self, implies_true, accept_keep, miniAnswer_keep, opDone_keep]; done) | with_reducible refine ite_of ?_ ?_ | split)
theorem fenceAnswers_keep (n : Nat) (d : Dev) : (fenceAnswers n d).keep = d.keep := by
  unfold fenceAnswers
  try dsimp only
  repeat' (first | (simp only [keep_mk, keep_ite, ite_self, eq_self, implies_true, fold_keep, fenceAnswer_keep]; done) | (with_reducible refine (fold_keep _ _ _ (fun _ _ => ?_)).trans ?_) | (simp only [keep_mk, keep_ite, ite_self, eq_self, implies_true, fold_keep, fenceAnswer_keep]; with_reducible (first | (with_reducible refine (fold_keep _ _ _ (fun _ _ => ?_)).trans ?_))) | with_reducible refine ite_of ?_ ?_ | split)
theorem gessoTick_keep (d : Dev) : (gessoTick d).keep = d.keep := by
  unfold gessoTick
  try dsimp only
  repeat' (first | (simp only [keep_mk, keep_ite, ite_self, eq_self, implies_true]; done) | with_reducible refine ite_of ?_ ?_ | split)
theorem sendWrite_keep (n : Nat) (h : Nat) (f : Nat) (tag : Nat) (addr : Nat) (bytes : List Byte) (data : Bool) (d : Dev) : (sendWrite n h f tag addr bytes data d).keep = d.keep := by
  unfold sendWrite
  try dsimp only
  repeat' (first | (simp only [keep_mk, keep_ite, ite_self, eq_self, implies_true, Dev.modEng_keep, emit_keep]; done) | with_reducible refine ite_of ?_ ?_ | split)
theorem issueWrite_keep (n : Nat) (h : Nat) (f : Nat) (tag : Nat) (addr : Nat) (bytes : List Byte) (data : Bool) (d : Dev) : (issueWrite n h f tag addr bytes data d).keep = d.keep := by
  unfold issueWrite
  try dsimp only
  repeat' (first | (simp only [keep_mk, keep_ite, ite_self, eq_self, implies_true, doIf_keep, emit_keep, sendWrite_keep]; done) | (with_reducible refine (doIf_keep _ _ _ (fun _ => ?_)).trans ?_) | (simp only [keep_mk, keep_ite, ite_self, eq_self, implies_true, doIf_keep, emit_keep, sendWrite_keep]; with_reducible (first | (with_reducible refine (doIf_keep _ _ _ (fun _ => ?_)).trans ?_))) | with_reducible refine ite_of ?_ ?_ | split)
theorem issueData_keep (n : Nat) (h : Nat) (f : Nat) (tag : Nat) (addr : Nat) (bytes : List Byte) (d : Dev) : (issueData n h f tag addr bytes d).keep = d.keep := by
  unfold issueData
  try dsimp only
  repeat' (first | (simp only [keep_mk, keep_ite, ite_self, eq_self, implies_true, fold_keep, issueWrite_keep]; done) | (with_reducible refine (fold_keep _ _ _ (fun _ _ => ?_)).trans ?_) | (simp only [keep_mk, keep_ite, ite_self, eq_self, implies_true, fold_keep, issueWrite_keep]; with_reducible (first | (with_reducible refine (fold_keep _ _ _ (fun _ _ => ?_)).trans ?_))) | with_reducible refine ite_of ?_ ?_ | split)
theorem writeOn_keep (link : Option Nat) (n : Nat) (h : Nat) (tag : Nat) (addr : Nat) (bytes : List Byte) (d : Dev) : (writeOn link n h tag addr bytes d).keep = d.keep := by
  unfold writeOn
  try dsimp only
  repeat' (first | (simp only [keep_mk, keep_ite, ite_self, eq_self, implies_true, Dev.modEng_keep, issueWrite_keep]; done) | with_reducible refine ite_of ?_ ?_ | split)
theorem hostWrite_keep (n : Nat) (h : Nat) (tag : Nat) (addr : Nat) (bytes : List Byte) (d : Dev) : (hostWrite n h tag addr bytes d).keep = d.keep := by
  unfold hostWrite
  try dsimp only
  repeat' (first | (simp only [keep_mk, keep_ite, ite_self, eq_self, implies_true, writeOn_keep]; done) | with_reducible refine ite_of ?_ ?_ | split)
theorem issueRead_keep (n : Nat) (h : Nat) (f : Nat) (addr : Nat) (len : Nat) (off : Nat) (tag : Nat) (r : ReadRef) (d : Dev) : (issueRead n h f addr len off tag r d).keep = d.keep := by
  unfold issueRead
  try dsimp only
  repeat' (first | (simp only [keep_mk, keep_ite, ite_self, eq_self, implies_true, Dev.modEng_keep, emit_keep]; done) | with_reducible refine ite_of ?_ ?_ | split)
theorem hostReadOff_keep (n : Nat) (h : Nat) (addr : Nat) (len : Nat) (off : Nat) (tag : Nat) (r : ReadRef) (d : Dev) : (hostReadOff n h addr len off tag r d).keep = d.keep := by
  unfold hostReadOff
  try dsimp only
  repeat' (first | (simp only [keep_mk, keep_ite, ite_self, eq_self, implies_true, Dev.modEng_keep, issueRead_keep]; done) | with_reducible refine ite_of ?_ ?_ | split)
theorem hostRead_keep (n : Nat) (h : Nat) (addr : Nat) (len : Nat) (r : ReadRef) (d0 : Dev) : (hostRead n h addr len r d0).keep = d0.keep := by
  unfold hostRead
  try dsimp only
  repeat' (first | (simp only [keep_mk, keep_ite, ite_self, eq_self, implies_true, hostReadOff_keep]; done) | with_reducible refine ite_of ?_ ?_ | split)
theorem cancelWhere_keep (n : Nat) (p : HRead → Bool) (d0 : Dev) : (cancelWhere n p d0).keep = d0.keep := by
  unfold cancelWhere
  try dsimp only
  repeat' (first | (simp only [keep_mk, keep_ite, ite_self, eq_self, implies_true, Dev.modEng_keep]; done) | with_reducible refine ite_of ?_ ?_ | split)
theorem cancelReads_keep (n : Nat) (p : ReadRef → Bool) (d0 : Dev) : (cancelReads n p d0).keep = d0.keep := by
  unfold cancelReads
  try dsimp only
  repeat' (first | (simp only [keep_mk, keep_ite, ite_self, eq_self, implies_true, cancelWhere_keep]; done) | with_reducible refine ite_of ?_ ?_ | split)
theorem structReads_keep (n : Nat) (p : ReadRef → Bool) (d0 : Dev) : (structReads n p d0).keep = d0.keep := by
  unfold structReads
  try dsimp only
  repeat' (first | (simp only [keep_mk, keep_ite, ite_self, eq_self, implies_true, Dev.modEng_keep]; done) | with_reducible refine ite_of ?_ ?_ | split)
theorem confirmBy_keep (x : HRead) (n : Nat) (d0 : Dev) : (confirmBy x n d0).keep = d0.keep := by
  unfold confirmBy
  try dsimp only
  repeat' (first | (simp only [keep_mk, keep_ite, ite_self, eq_self, implies_true, Dev.modEng_keep]; done) | with_reducible refine ite_of ?_ ?_ | split)
theorem newTag_keep (n : Nat) (d : Dev) : (newTag n d).2.keep = d.keep := by
  unfold newTag
  try dsimp only
  repeat' (first | (simp only [keep_mk, keep_ite, ite_self, eq_self, implies_true, Dev.modEng_keep]; done) | with_reducible refine ite_of ?_ ?_ | split)
theorem markLost_keep (n : Nat) (lostW : HWrite → Bool) (lostR : HRead → Bool) (d0 : Dev) : (markLost n lostW lostR d0).keep = d0.keep := by
  unfold markLost
  try dsimp only
  repeat' (first | (simp only [keep_mk, keep_ite, ite_self, eq_self, implies_true, Dev.modEng_keep]; done) | with_reducible refine ite_of ?_ ?_ | split)
theorem sliceMessage_keep (n : Nat) (q : Nat) (v : Nat) (d : Dev) : (sliceMessage n q v d).keep = d.keep := by
  unfold sliceMessage
  try dsimp only
  repeat' (first | (simp only [keep_mk, keep_ite, ite_self, eq_self, implies_true, Dev.modSlice_keep, issueWrite_keep]; done) | with_reducible refine ite_of ?_ ?_ | split)
theorem releaseVectors_keep (n : Nat) (d : Dev) : (releaseVectors n d).keep = d.keep := by
  unfold releaseVectors
  try dsimp only
  repeat' (first | (simp only [keep_mk, keep_ite, ite_self, eq_self, implies_true, Dev.modSlice_keep, sliceMessage_keep, fold_keep]; done) | (with_reducible refine (fold_keep _ _ _ (fun _ _ => ?_)).trans ?_) | (simp only [keep_mk, keep_ite, ite_self, eq_self, implies_true, Dev.modSlice_keep, sliceMessage_keep, fold_keep]; with_reducible (first | (with_reducible refine (fold_keep _ _ _ (fun _ _ => ?_)).trans ?_))) | with_reducible refine ite_of ?_ ?_ | split)
theorem cqMessage_keep (n : Nat) (q : Nat) (d : Dev) : (cqMessage n q d).keep = d.keep := by
  unfold cqMessage
  try dsimp only
  repeat' (first | (simp only [keep_mk, keep_ite, ite_self, eq_self, implies_true, Dev.modCq_keep, sliceMessage_keep]; done) | with_reducible refine ite_of ?_ ?_ | split)
theorem writeCiOn_keep (link : Option Nat) (n : Nat) (q : Nat) (d : Dev) : (writeCiOn link n q d).keep = d.keep := by
  unfold writeCiOn
  try dsimp only
  repeat' (first | (simp only [keep_mk, keep_ite, ite_self, eq_self, implies_true, Dev.modWq_keep, writeOn_keep]; done) | with_reducible refine ite_of ?_ ?_ | split)
theorem writeCi_keep (n : Nat) (q : Nat) (d : Dev) : (writeCi n q d).keep = d.keep := by
  unfold writeCi
  try dsimp only
  repeat' (first | (simp only [keep_mk, keep_ite, ite_self, eq_self, implies_true, writeCiOn_keep]; done) | with_reducible refine ite_of ?_ ?_ | split)
theorem countMissed_keep (n : Nat) (c : Comp) (d : Dev) : (countMissed n c d).keep = d.keep := by
  unfold countMissed
  try dsimp only
  repeat' (first | (simp only [keep_mk, keep_ite, ite_self, eq_self, implies_true, Dev.modCnt_keep]; done) | with_reducible refine ite_of ?_ ?_ | split)
theorem placeComp_keep (n : Nat) (q : Nat) (f : Nat) (c : Comp) (d : Dev) : (placeComp n q f c d).keep = d.keep := by
  unfold placeComp
  try dsimp only
  repeat' (first | (simp only [keep_mk, keep_ite, ite_self, eq_self, implies_true, Dev.modCq_keep, Dev.modEng_keep, countMissed_keep, cqMessage_keep, doIf_keep, emit_keep, issueWrite_keep, releaseVectors_keep, writeCiOn_keep]; done) | (with_reducible refine (doIf_keep _ _ _ (fun _ => ?_)).trans ?_) | (simp only [keep_mk, keep_ite, ite_self, eq_self, implies_true, Dev.modCq_keep, Dev.modEng_keep, countMissed_keep, cqMessage_keep, doIf_keep, emit_keep, issueWrite_keep, releaseVectors_keep, writeCiOn_keep]; with_reducible (first | (with_reducible refine (doIf_keep _ _ _ (fun _ => ?_)).trans ?_))) | with_reducible refine ite_of ?_ ?_ | split)
theorem tryComp_keep (n : Nat) (q : Nat) (c : Comp) (d : Dev) : (tryComp n q c d).2.keep = d.keep := by
  unfold tryComp
  try dsimp only
  repeat' (first | (simp only [keep_mk, keep_ite, ite_self, eq_self, implies_true, Dev.modCq_keep, placeComp_keep]; done) | with_reducible refine ite_of ?_ ?_ | split)
theorem writePortEvent_keep (p : Nat) (d : Dev) : (writePortEvent p d).keep = d.keep := by
  unfold writePortEvent
  try dsimp only
  repeat' (first | (simp only [keep_mk, keep_ite, ite_self, eq_self, implies_true, Dev.modBus_keep, tryComp_keep]; done) | with_reducible refine ite_of ?_ ?_ | split)
theorem writeSliceEvent_keep (n : Nat) (d : Dev) : (writeSliceEvent n d).keep = d.keep := by
  unfold writeSliceEvent
  try dsimp only
  repeat' (first | (simp only [keep_mk, keep_ite, ite_self, eq_self, implies_true, Dev.modEng_keep, tryComp_keep]; done) | with_reducible refine ite_of ?_ ?_ | split)
theorem eventsBefore_keep (n : Nat) (k : Nat) (d : Dev) : (eventsBefore n k d).keep = d.keep := by
  unfold eventsBefore
  try dsimp only
  repeat' (first | (simp only [keep_mk, keep_ite, ite_self, eq_self, implies_true, fold_keep, elim_keep, elim_same, writePortEvent_keep, writeSliceEvent_keep]; done) | (with_reducible refine (fold_keep _ _ _ (fun _ _ => ?_)).trans ?_) | (simp only [keep_mk, keep_ite, ite_self, eq_self, implies_true, fold_keep, elim_keep, elim_same, writePortEvent_keep, writeSliceEvent_keep]; with_reducible (first | (with_reducible refine (fold_keep _ _ _ (fun _ _ => ?_)).trans ?_))) | with_reducible refine ite_of ?_ ?_ | split)
theorem drainHeld_keep (n : Nat) (q : Nat) (x0 : Nat) (d0 : Dev) : (drainHeld n q x0 d0).keep = d0.keep := by
  induction x0 generalizing n q d0
  all_goals
    unfold drainHeld
    try dsimp only
    repeat' (first | (simp only [*, keep_mk, keep_ite, ite_self, eq_self, implies_true, Dev.modCq_keep, eventsBefore_keep, tryComp_keep, writePortEvent_keep, elim_keep, elim_same]; done) | with_reducible refine ite_of ?_ ?_ | split)
theorem drainCq_keep (n : Nat) (q : Nat) (d : Dev) : (drainCq n q d).keep = d.keep := by
  unfold drainCq
  try dsimp only
  repeat' (first | (simp only [keep_mk, keep_ite, ite_self, eq_self, implies_true, fold_keep, drainHeld_keep, eventsBefore_keep]; done) | (with_reducible refine (fold_keep _ _ _ (fun _ _ => ?_)).trans ?_) | (simp only [keep_mk, keep_ite, ite_self, eq_self, implies_true, fold_keep, drainHeld_keep, eventsBefore_keep]; with_reducible (first | (with_reducible refine (fold_keep _ _ _ (fun _ _ => ?_)).trans ?_))) | with_reducible refine ite_of ?_ ?_ | split)
theorem eventsLast_keep (n : Nat) (d : Dev) : (eventsLast n d).keep = d.keep := by
  unfold eventsLast
  try dsimp only
  repeat' (first | (simp only [keep_mk, keep_ite, ite_self, eq_self, implies_true, Dev.modBus_keep, Dev.modEng_keep, Dev.modSlice_keep, forEach_keep]; done) | (with_reducible refine (forEach_keep _ _ _ (fun _ _ => ?_)).trans ?_) | (simp only [keep_mk, keep_ite, ite_self, eq_self, implies_true, Dev.modBus_keep, Dev.modEng_keep, Dev.modSlice_keep, forEach_keep]; with_reducible (first | (with_reducible refine (forEach_keep _ _ _ (fun _ _ => ?_)).trans ?_))) | with_reducible refine ite_of ?_ ?_ | split)
theorem postNow_keep (n : Nat) (q : Nat) (c : Comp) (d : Dev) : (postNow n q c d).keep = d.keep := by
  unfold postNow
  try dsimp only
  repeat' (first | (simp only [keep_mk, keep_ite, ite_self, eq_self, implies_true, Dev.modCq_keep, Dev.modEng_keep, drainHeld_keep]; done) | with_reducible refine ite_of ?_ ?_ | split)
theorem postDue_keep (n : Nat) (u : Due) (d : Dev) : (postDue n u d).keep = d.keep := by
  unfold postDue
  try dsimp only
  repeat' (first | (simp only [keep_mk, keep_ite, ite_self, eq_self, implies_true, Dev.modEng_keep, postNow_keep]; done) | with_reducible refine ite_of ?_ ?_ | split)
theorem post_keep (n : Nat) (q : Nat) (c : Comp) (d : Dev) : (post n q c d).keep = d.keep := by
  unfold post
  try dsimp only
  repeat' (first | (simp only [keep_mk, keep_ite, ite_self, eq_self, implies_true, Dev.modEng_keep, postNow_keep]; done) | with_reducible refine ite_of ?_ ?_ | split)
theorem postAfter_keep (n : Nat) (q : Nat) (tag : Nat) (c : Comp) (d0 : Dev) : (postAfter n q tag c d0).keep = d0.keep := by
  unfold postAfter
  try dsimp only
  repeat' (first | (simp only [keep_mk, keep_ite, ite_self, eq_self, implies_true, postDue_keep]; done) | with_reducible refine ite_of ?_ ?_ | split)
theorem releaseOne_keep (n : Nat) (x : Dev × List Due) (u : Due) : (releaseOne n x u).1.keep = x.1.keep := by
  unfold releaseOne
  try dsimp only
  repeat' (first | (simp only [keep_mk, keep_ite, ite_self, eq_self, implies_true, postNow_keep]; done) | with_reducible refine ite_of ?_ ?_ | split)
theorem releaseDue_keep (n : Nat) (d : Dev) : (releaseDue n d).keep = d.keep := by
  unfold releaseDue
  simp only [Dev.modEng_keep]
  exact (fold1_keep _ _ _ (fun t u => releaseOne_keep n t u)).trans (Dev.modEng_keep ..)
theorem drainAll_keep (n : Nat) (d : Dev) : (drainAll n d).keep = d.keep := by
  unfold drainAll
  try dsimp only
  repeat' (first | (simp only [keep_mk, keep_ite, ite_self, eq_self, implies_true, drainCq_keep, forEach_keep, releaseDue_keep]; done) | (with_reducible refine (forEach_keep _ _ _ (fun _ _ => ?_)).trans ?_) | (simp only [keep_mk, keep_ite, ite_self, eq_self, implies_true, drainCq_keep, forEach_keep, releaseDue_keep]; with_reducible (first | (with_reducible refine (forEach_keep _ _ _ (fun _ _ => ?_)).trans ?_))) | with_reducible refine ite_of ?_ ?_ | split)
theorem sliceEvent_keep (n : Nat) (bits : Nat) (d : Dev) : (sliceEvent n bits d).keep = d.keep := by
  unfold sliceEvent
  try dsimp only
  repeat' (first | (simp only [keep_mk, keep_ite, ite_self, eq_self, implies_true, Dev.modEng_keep, writeSliceEvent_keep]; done) | with_reducible refine ite_of ?_ ?_ | split)
theorem portEvent_keep (p : Nat) (e : PEv) (d : Dev) : (portEvent p e d).keep = d.keep := by
  unfold portEvent
  try dsimp only
  repeat' (first | (simp only [keep_mk, keep_ite, ite_self, eq_self, implies_true, Dev.modBus_keep, Dev.modEng_keep, doIf_keep, writePortEvent_keep]; done) | (with_reducible refine (doIf_keep _ _ _ (fun _ => ?_)).trans ?_) | (simp only [keep_mk, keep_ite, ite_self, eq_self, implies_true, Dev.modBus_keep, Dev.modEng_keep, doIf_keep, writePortEvent_keep]; with_reducible (first | (with_reducible refine (doIf_keep _ _ _ (fun _ => ?_)).trans ?_))) | with_reducible refine ite_of ?_ ?_ | split)
theorem pathChanged_keep (n : Nat) (d : Dev) : (pathChanged n d).keep = d.keep := by
  unfold pathChanged
  try dsimp only
  repeat' (first | (simp only [keep_mk, keep_ite, ite_self, eq_self, implies_true, sliceEvent_keep]; done) | with_reducible refine ite_of ?_ ?_ | split)
theorem reissueOne_keep (n : Nat) (f : Nat) (w : HWrite) (d : Dev) : (reissueOne n f w d).keep = d.keep := by
  unfold reissueOne
  try dsimp only
  repeat' (first | (simp only [keep_mk, keep_ite, ite_self, eq_self, implies_true, Dev.modCq_keep, Dev.modEng_keep, doIf_keep, forEach_keep, issueData_keep, issueWrite_keep]; done) | (with_reducible refine (doIf_keep _ _ _ (fun _ => ?_)).trans ?_) | (with_reducible refine (forEach_keep _ _ _ (fun _ _ => ?_)).trans ?_) | (simp only [keep_mk, keep_ite, ite_self, eq_self, implies_true, Dev.modCq_keep, Dev.modEng_keep, doIf_keep, forEach_keep, issueData_keep, issueWrite_keep]; with_reducible (first | (with_reducible refine (doIf_keep _ _ _ (fun _ => ?_)).trans ?_) | (with_reducible refine (forEach_keep _ _ _ (fun _ _ => ?_)).trans ?_))) | with_reducible refine ite_of ?_ ?_ | split)
theorem reissueHalf_keep (n : Nat) (h : Nat) (d : Dev) : (reissueHalf n h d).keep = d.keep := by
  unfold reissueHalf
  try dsimp only
  repeat' (first | (simp only [keep_mk, keep_ite, ite_self, eq_self, implies_true, Dev.modEng_keep, doIf_keep, issueRead_keep, reissueOne_keep, releaseVectors_keep, fold_keep]; done) | (with_reducible refine (doIf_keep _ _ _ (fun _ => ?_)).trans ?_) | (with_reducible refine (fold_keep _ _ _ (fun _ _ => ?_)).trans ?_) | (simp only [keep_mk, keep_ite, ite_self, eq_self, implies_true, Dev.modEng_keep, doIf_keep, issueRead_keep, reissueOne_keep, releaseVectors_keep, fold_keep]; with_reducible (first | (with_reducible refine (doIf_keep _ _ _ (fun _ => ?_)).trans ?_) | (with_reducible refine (fold_keep _ _ _ (fun _ _ => ?_)).trans ?_))) | with_reducible refine ite_of ?_ ?_ | split)

end Sys2Proof.Machine
end

