-- ==== Sys2Proof/Laws/KeepRings.lean ====
section
/-! SUPPORT. Which operations leave the dictionary, the host groups, the start, the flash states and the update alone (Dev.keep). -/
namespace Sys2Proof.Machine

set_option linter.unusedSimpArgs false
set_option linter.unreachableTactic false
set_option linter.unusedTactic false

theorem dbIgnored_keep (n : Nat) (d0 : Dev) : (dbIgnored n d0).keep = d0.keep := by
  unfold dbIgnored
  try dsimp only
  repeat' (first | (simp only [keep_mk, keep_ite, ite_self, eq_self, implies_true, Dev.modSlice_keep]; done) | with_reducible refine ite_of ?_ ?_ | split)
theorem readPi_keep (n : Nat) (q : Nat) (d : Dev) : (readPi n q d).keep = d.keep := by
  unfold readPi
  try dsimp only
  repeat' (first | (simp only [keep_mk, keep_ite, ite_self, eq_self, implies_true, Dev.modWq_keep, hostRead_keep]; done) | with_reducible refine ite_of ?_ ?_ | split)
theorem ringWq_keep (n : Nat) (q : Nat) (d : Dev) : (ringWq n q d).keep = d.keep := by
  unfold ringWq
  try dsimp only
  repeat' (first | (simp only [keep_mk, keep_ite, ite_self, eq_self, implies_true, Dev.modWq_keep, readPi_keep]; done) | with_reducible refine ite_of ?_ ?_ | split)
theorem doorbellWq_keep (n : Nat) (q : Nat) (d : Dev) : (doorbellWq n q d).keep = d.keep := by
  unfold doorbellWq
  try dsimp only
  repeat' (first | (simp only [keep_mk, keep_ite, ite_self, eq_self, implies_true, dbIgnored_keep, ringWq_keep]; done) | with_reducible refine ite_of ?_ ?_ | split)
theorem fetchOnce_keep (n : Nat) (q : Nat) (d : Dev) : (fetchOnce n q d).keep = d.keep := by
  unfold fetchOnce
  try dsimp only
  repeat' (first | (simp only [keep_mk, keep_ite, ite_self, eq_self, implies_true, Dev.modWq_keep, hostReadOff_keep, fold_keep]; done) | (with_reducible refine (fold_keep _ _ _ (fun _ _ => ?_)).trans ?_) | (simp only [keep_mk, keep_ite, ite_self, eq_self, implies_true, Dev.modWq_keep, hostReadOff_keep, fold_keep]; with_reducible (first | (with_reducible refine (fold_keep _ _ _ (fun _ _ => ?_)).trans ?_))) | with_reducible refine ite_of ?_ ?_ | split)
theorem fetchWq_keep (n : Nat) (q : Nat) (d : Dev) : (fetchWq n q d).keep = d.keep := by
  unfold fetchWq
  try dsimp only
  repeat' (first | (simp only [keep_mk, keep_ite, ite_self, eq_self, implies_true, fetchOnce_keep]; done) | with_reducible refine ite_of ?_ ?_ | split)
theorem settleWq_keep (n : Nat) (q : Nat) (d : Dev) : (settleWq n q d).keep = d.keep := by
  unfold settleWq
  try dsimp only
  repeat' (first | (simp only [keep_mk, keep_ite, ite_self, eq_self, implies_true, Dev.modWq_keep, cancelReads_keep, post_keep]; done) | with_reducible refine ite_of ?_ ?_ | split)
theorem stopWq_keep (n : Nat) (q : Nat) (e : QErr) (d : Dev) : (stopWq n q e d).keep = d.keep := by
  unfold stopWq
  try dsimp only
  repeat' (first | (simp only [keep_mk, keep_ite, ite_self, eq_self, implies_true, Dev.modWq_keep, cancelWhere_keep, settleWq_keep]; done) | with_reducible refine ite_of ?_ ?_ | split)
theorem takeEntry_keep (n : Nat) (q : Nat) (idx : Dword) (pushed : Bool) (dws : List Dword) (d : Dev) : (takeEntry n q idx pushed dws d).keep = d.keep := by
  unfold takeEntry
  try dsimp only
  repeat' (first | (simp only [keep_mk, keep_ite, ite_self, eq_self, implies_true, Dev.modWq_keep, stopWq_keep]; done) | with_reducible refine ite_of ?_ ?_ | split)
theorem takeEntries_keep (n : Nat) (q : Nat) (idx : Dword) (x0 : List (List Dword)) (d0 : Dev) : (takeEntries n q idx x0 d0).keep = d0.keep := by
  induction x0 generalizing n q idx d0
  all_goals
    unfold takeEntries
    try dsimp only
    repeat' (first | (simp only [*, keep_mk, keep_ite, ite_self, eq_self, implies_true, takeEntry_keep]; done) | with_reducible refine ite_of ?_ ?_ | split)
theorem modEnt_keep (n : Nat) (q : Nat) (i : Dword) (g : WEnt → WEnt) (d0 : Dev) : (modEnt n q i g d0).keep = d0.keep := by
  unfold modEnt
  try dsimp only
  repeat' (first | (simp only [keep_mk, keep_ite, ite_self, eq_self, implies_true, Dev.modWq_keep]; done) | with_reducible refine ite_of ?_ ?_ | split)
theorem finishWe_keep (n : Nat) (q : Nat) (i : Dword) (code : Nat) (r : Res) (d : Dev) : (finishWe n q i code r d).keep = d.keep := by
  unfold finishWe
  try dsimp only
  repeat' (first | (simp only [keep_mk, keep_ite, ite_self, eq_self, implies_true, Dev.modWq_keep, fetchWq_keep, postDue_keep, settleWq_keep]; done) | with_reducible refine ite_of ?_ ?_ | split)
theorem onEntry_keep (op : Nat) (n : Nat) (q : Nat) (i : Dword) (f : List Dword → Dev → Dev) (d : Dev) (hf : ∀ a0 a1, (f a0 a1).keep = a1.keep) : (onEntry op n q i f d).keep = d.keep := by
  unfold onEntry
  try dsimp only
  repeat' (first | (simp only [keep_mk, keep_ite, ite_self, eq_self, implies_true, hf]; done) | with_reducible refine ite_of ?_ ?_ | split)
theorem waitEnt_keep (n : Nat) (q : Nat) (i : Dword) (ph : Nat) (aux : Nat) (d0 : Dev) : (waitEnt n q i ph aux d0).keep = d0.keep := by
  unfold waitEnt
  try dsimp only
  repeat' (first | (simp only [keep_mk, keep_ite, ite_self, eq_self, implies_true, modEnt_keep]; done) | with_reducible refine ite_of ?_ ?_ | split)
theorem startOne_keep (n : Nat) (q : Nat) (d : Dev) : (startOne n q d).keep = d.keep := by
  unfold startOne
  try dsimp only
  repeat' (first | (simp only [keep_mk, keep_ite, ite_self, eq_self, implies_true, Dev.modWq_keep, newTag_keep]; done) | with_reducible refine ite_of ?_ ?_ | split)
theorem startRun_keep (n : Nat) (q : Nat) (x0 : Nat) (d0 : Dev) : (startRun n q x0 d0).keep = d0.keep := by
  induction x0 generalizing n q d0
  all_goals
    unfold startRun
    try dsimp only
    repeat' (first | (simp only [*, keep_mk, keep_ite, ite_self, eq_self, implies_true, startOne_keep]; done) | with_reducible refine ite_of ?_ ?_ | split)
theorem forfeitTo_keep (n : Nat) (ready : Nat → Bool) (x0 : List Nat) (d0 : Dev) : (forfeitTo n ready x0 d0).keep = d0.keep := by
  induction x0 generalizing n ready d0
  all_goals
    unfold forfeitTo
    try dsimp only
    repeat' (first | (simp only [*, keep_mk, keep_ite, ite_self, eq_self, implies_true, Dev.modWq_keep]; done) | with_reducible refine ite_of ?_ ?_ | split)
theorem wqTurn_keep (n : Nat) (d : Dev) : (wqTurn n d).keep = d.keep := by
  unfold wqTurn
  try dsimp only
  repeat' (first | (simp only [keep_mk, keep_ite, ite_self, eq_self, implies_true, Dev.modSlice_keep, Dev.modWq_keep, fetchWq_keep, forEach_keep, forfeitTo_keep, startRun_keep]; done) | (with_reducible refine (forEach_keep _ _ _ (fun _ _ => ?_)).trans ?_) | (simp only [keep_mk, keep_ite, ite_self, eq_self, implies_true, Dev.modSlice_keep, Dev.modWq_keep, fetchWq_keep, forEach_keep, forfeitTo_keep, startRun_keep]; with_reducible (first | (with_reducible refine (forEach_keep _ _ _ (fun _ _ => ?_)).trans ?_))) | with_reducible refine ite_of ?_ ?_ | split)
theorem piArrived_keep (n : Nat) (q : Nat) (pi : Dword) (d : Dev) : (piArrived n q pi d).keep = d.keep := by
  unfold piArrived
  try dsimp only
  repeat' (first | (simp only [keep_mk, keep_ite, ite_self, eq_self, implies_true, Dev.modWq_keep, fetchWq_keep, readPi_keep, stopWq_keep]; done) | with_reducible refine ite_of ?_ ?_ | split)
theorem entriesArrived_keep (n : Nat) (q : Nat) (off : Nat) (data : List Dword) (d : Dev) : (entriesArrived n q off data d).keep = d.keep := by
  unfold entriesArrived
  try dsimp only
  repeat' (first | (simp only [keep_mk, keep_ite, ite_self, eq_self, implies_true, Dev.modWq_keep, fetchWq_keep, settleWq_keep, takeEntries_keep]; done) | with_reducible refine ite_of ?_ ?_ | split)
theorem wqReadFailed_keep (n : Nat) (q : Nat) (isPi : Bool) (off : Nat) (d : Dev) : (wqReadFailed n q isPi off d).keep = d.keep := by
  unfold wqReadFailed
  try dsimp only
  repeat' (first | (simp only [keep_mk, keep_ite, ite_self, eq_self, implies_true, Dev.modWq_keep, stopWq_keep]; done) | with_reducible refine ite_of ?_ ?_ | split)
theorem pushWq_keep (n : Nat) (q : Nat) (k : Nat) (e : List Dword) (d : Dev) : (pushWq n q k e d).keep = d.keep := by
  unfold pushWq
  try dsimp only
  repeat' (first | (simp only [keep_mk, keep_ite, ite_self, eq_self, implies_true, Dev.modSlice_keep, Dev.modWq_keep, doorbellWq_keep, fetchWq_keep, takeEntry_keep]; done) | with_reducible refine ite_of ?_ ?_ | split)
theorem commitCqOn_keep (n : Nat) (q : Nat) (d : Dev) : (commitCqOn n q d).keep = d.keep := by
  unfold commitCqOn
  try dsimp only
  repeat' (first | (simp only [keep_mk, keep_ite, ite_self, eq_self, implies_true, Dev.modCq_keep, cqMessage_keep, drainCq_keep, releaseDue_keep]; done) | with_reducible refine ite_of ?_ ?_ | split)
theorem commitCqOff_keep (n : Nat) (q : Nat) (d : Dev) : (commitCqOff n q d).keep = d.keep := by
  unfold commitCqOff
  try dsimp only
  repeat' (first | (simp only [keep_mk, keep_ite, ite_self, eq_self, implies_true, Dev.modCq_keep]; done) | with_reducible refine ite_of ?_ ?_ | split)
theorem commitWq_keep (n : Nat) (q : Nat) (d : Dev) : (commitWq n q d).keep = d.keep := by
  unfold commitWq
  try dsimp only
  repeat' (first | (simp only [keep_mk, keep_ite, ite_self, eq_self, implies_true, Dev.modWq_keep, ringWq_keep, writeCi_keep]; done) | with_reducible refine ite_of ?_ ?_ | split)
theorem commitQueues_keep (n : Nat) (d : Dev) : (commitQueues n d).keep = d.keep := by
  unfold commitQueues
  try dsimp only
  repeat' (first | (simp only [keep_mk, keep_ite, ite_self, eq_self, implies_true, commitCqOff_keep, commitCqOn_keep, commitWq_keep, forEach_keep, settleWq_keep]; done) | (with_reducible refine (forEach_keep _ _ _ (fun _ _ => ?_)).trans ?_) | (simp only [keep_mk, keep_ite, ite_self, eq_self, implies_true, commitCqOff_keep, commitCqOn_keep, commitWq_keep, forEach_keep, settleWq_keep]; with_reducible (first | (with_reducible refine (forEach_keep _ _ _ (fun _ _ => ?_)).trans ?_))) | with_reducible refine ite_of ?_ ?_ | split)
theorem carve_keep (n : Nat) (hf : Nat) (prev : Option Nat) (k : Nat) (got : List Nat) (d : Dev) : (carve n hf prev k got d).2.keep = d.keep := by
  unfold carve
  try dsimp only
  repeat' (first | (simp only [keep_mk, keep_ite, ite_self, eq_self, implies_true, Dev.modEng_keep, Dev.modHalf_keep]; done) | with_reducible refine ite_of ?_ ?_ | split)
theorem releasePages_keep (n : Nat) (hf : Nat) (pages : List Nat) (d : Dev) : (releasePages n hf pages d).keep = d.keep := by
  unfold releasePages
  try dsimp only
  repeat' (first | (simp only [keep_mk, keep_ite, ite_self, eq_self, implies_true, Dev.modEng_keep, Dev.modHalf_keep]; done) | with_reducible refine ite_of ?_ ?_ | split)
theorem washSlot_keep (n : Nat) (hf : Nat) (d0 : Dev) : (washSlot n hf d0).keep = d0.keep := by
  unfold washSlot
  try dsimp only
  repeat' (first | (simp only [keep_mk, keep_ite, ite_self, eq_self, implies_true, Dev.modHalf_keep]; done) | with_reducible refine ite_of ?_ ?_ | split)
theorem releasePool_keep (n : Nat) (h : Nat) (e : Nat) (d : Dev) : (releasePool n h e d).keep = d.keep := by
  unfold releasePool
  try dsimp only
  repeat' (first | (simp only [keep_mk, keep_ite, ite_self, eq_self, implies_true, Dev.modEp_keep, releasePages_keep]; done) | with_reducible refine ite_of ?_ ?_ | split)
theorem writeHeader_keep (n : Nat) (h : Nat) (d : Dev) : (writeHeader n h d).keep = d.keep := by
  unfold writeHeader
  try dsimp only
  repeat' (first | (simp only [keep_mk, keep_ite, ite_self, eq_self, implies_true, hostWrite_keep]; done) | with_reducible refine ite_of ?_ ?_ | split)
theorem writeCtx_keep (n : Nat) (h : Nat) (e : Nat) (d : Dev) : (writeCtx n h e d).keep = d.keep := by
  unfold writeCtx
  try dsimp only
  repeat' (first | (simp only [keep_mk, keep_ite, ite_self, eq_self, implies_true, fold_keep, hostWrite_keep]; done) | (with_reducible refine (fold_keep _ _ _ (fun _ _ => ?_)).trans ?_) | (simp only [keep_mk, keep_ite, ite_self, eq_self, implies_true, fold_keep, hostWrite_keep]; with_reducible (first | (with_reducible refine (fold_keep _ _ _ (fun _ _ => ?_)).trans ?_))) | with_reducible refine ite_of ?_ ?_ | split)
theorem touch_keep (n : Nat) (h : Nat) (e : Nat) (fresh : Bool) (d : Dev) : (touch n h e fresh d).keep = d.keep := by
  unfold touch
  try dsimp only
  repeat' (first | (simp only [keep_mk, keep_ite, ite_self, eq_self, implies_true, Dev.modEng_keep, Dev.modEp_keep, hostRead_keep, writeCtx_keep, writeHeader_keep]; done) | with_reducible refine ite_of ?_ ?_ | split)
theorem useCtx_keep (n : Nat) (h : Nat) (e : Nat) (d : Dev) : (useCtx n h e d).keep = d.keep := by
  unfold useCtx
  try dsimp only
  repeat' (first | (simp only [keep_mk, keep_ite, ite_self, eq_self, implies_true, touch_keep]; done) | with_reducible refine ite_of ?_ ?_ | split)
theorem dropCtx_keep (n : Nat) (h : Nat) (e : Nat) (d : Dev) : (dropCtx n h e d).keep = d.keep := by
  unfold dropCtx
  try dsimp only
  repeat' (first | (simp only [keep_mk, keep_ite, ite_self, eq_self, implies_true, Dev.modEng_keep, washSlot_keep]; done) | with_reducible refine ite_of ?_ ?_ | split)
theorem genAdd_keep (hf : Nat) (u : Nat) (up : Bool) (d0 : Dev) : (genAdd hf u up d0).keep = d0.keep := by
  unfold genAdd
  try dsimp only
  repeat' (first | (simp only [keep_mk, keep_ite, ite_self, eq_self, implies_true, Dev.modHalf_keep]; done) | with_reducible refine ite_of ?_ ?_ | split)
theorem freeUnits_keep (x : Xfer) (d : Dev) : (freeUnits x d).keep = d.keep := by
  unfold freeUnits
  try dsimp only
  repeat' (first | (simp only [keep_mk, keep_ite, ite_self, eq_self, implies_true, genAdd_keep]; done) | with_reducible refine ite_of ?_ ?_ | split)
theorem giveUp_keep (n : Nat) (h : Nat) (e : Nat) (x : Xfer) (d : Dev) : (giveUp n h e x d).keep = d.keep := by
  unfold giveUp
  try dsimp only
  repeat' (first | (simp only [keep_mk, keep_ite, ite_self, eq_self, implies_true, cancelWhere_keep, freeUnits_keep]; done) | with_reducible refine ite_of ?_ ?_ | split)
theorem dropPre_keep (n : Nat) (h : Nat) (e : Nat) (d : Dev) : (dropPre n h e d).keep = d.keep := by
  unfold dropPre
  try dsimp only
  repeat' (first | (simp only [keep_mk, keep_ite, ite_self, eq_self, implies_true, Dev.modEp_keep, giveUp_keep, fold_keep]; done) | (with_reducible refine (fold_keep _ _ _ (fun _ _ => ?_)).trans ?_) | (simp only [keep_mk, keep_ite, ite_self, eq_self, implies_true, Dev.modEp_keep, giveUp_keep, fold_keep]; with_reducible (first | (with_reducible refine (fold_keep _ _ _ (fun _ _ => ?_)).trans ?_))) | with_reducible refine ite_of ?_ ?_ | split)
theorem dropParked_keep (n : Nat) (h : Nat) (e : Nat) (d : Dev) : (dropParked n h e d).keep = d.keep := by
  unfold dropParked
  try dsimp only
  repeat' (first | (simp only [keep_mk, keep_ite, ite_self, eq_self, implies_true, Dev.modEp_keep, giveUp_keep, fold_keep]; done) | (with_reducible refine (fold_keep _ _ _ (fun _ _ => ?_)).trans ?_) | (simp only [keep_mk, keep_ite, ite_self, eq_self, implies_true, Dev.modEp_keep, giveUp_keep, fold_keep]; with_reducible (first | (with_reducible refine (fold_keep _ _ _ (fun _ _ => ?_)).trans ?_))) | with_reducible refine ite_of ?_ ?_ | split)
theorem dropRing_keep (n : Nat) (h : Nat) (e : Nat) (st : Nat) (d : Dev) : (dropRing n h e st d).keep = d.keep := by
  unfold dropRing
  try dsimp only
  repeat' (first | (simp only [keep_mk, keep_ite, ite_self, eq_self, implies_true, Dev.modRing_keep, cancelReads_keep, dropPre_keep]; done) | with_reducible refine ite_of ?_ ?_ | split)
theorem dropAll_keep (n : Nat) (h : Nat) (e : Nat) (d : Dev) : (dropAll n h e d).keep = d.keep := by
  unfold dropAll
  try dsimp only
  repeat' (first | (simp only [keep_mk, keep_ite, ite_self, eq_self, implies_true, Dev.modRing_keep, dropRing_keep, forEach_keep]; done) | (with_reducible refine (forEach_keep _ _ _ (fun _ _ => ?_)).trans ?_) | (simp only [keep_mk, keep_ite, ite_self, eq_self, implies_true, Dev.modRing_keep, dropRing_keep, forEach_keep]; with_reducible (first | (with_reducible refine (forEach_keep _ _ _ (fun _ _ => ?_)).trans ?_))) | with_reducible refine ite_of ?_ ?_ | split)
theorem unloadStreams_keep (n : Nat) (h : Nat) (e : Nat) (d0 : Dev) : (unloadStreams n h e d0).keep = d0.keep := by
  unfold unloadStreams
  try dsimp only
  repeat' (first | (simp only [keep_mk, keep_ite, ite_self, eq_self, implies_true, Dev.modEp_keep]; done) | with_reducible refine ite_of ?_ ?_ | split)
theorem readRing_keep (n : Nat) (h : Nat) (e : Nat) (st : Nat) (d : Dev) : (readRing n h e st d).keep = d.keep := by
  unfold readRing
  try dsimp only
  repeat' (first | (simp only [keep_mk, keep_ite, ite_self, eq_self, implies_true, Dev.modRing_keep, hostRead_keep]; done) | with_reducible refine ite_of ?_ ?_ | split)
theorem pokeRing_keep (n : Nat) (h : Nat) (e : Nat) (st : Nat) (d : Dev) : (pokeRing n h e st d).keep = d.keep := by
  unfold pokeRing
  try dsimp only
  repeat' (first | (simp only [keep_mk, keep_ite, ite_self, eq_self, implies_true, Dev.modRing_keep, hostRead_keep, readRing_keep]; done) | with_reducible refine ite_of ?_ ?_ | split)
theorem putBytes_keep (n : Nat) (x : Xfer) (addr : Nat) (bytes : List Byte) (d : Dev) : (putBytes n x addr bytes d).keep = d.keep := by
  unfold putBytes
  try dsimp only
  repeat' (first | (simp only [keep_mk, keep_ite, ite_self, eq_self, implies_true, Dev.modEng_keep, issueWrite_keep]; done) | with_reducible refine ite_of ?_ ?_ | split)
theorem flushIn_keep (n : Nat) (h : Nat) (e : Nat) (early : Bool) (final : Bool) (d : Dev) : (flushIn n h e early final d).keep = d.keep := by
  unfold flushIn
  try dsimp only
  repeat' (first | (simp only [keep_mk, keep_ite, ite_self, eq_self, implies_true, Dev.modXfer_keep, putBytes_keep, fold_keep]; done) | (with_reducible refine (fold_keep _ _ _ (fun _ _ => ?_)).trans ?_) | (simp only [keep_mk, keep_ite, ite_self, eq_self, implies_true, Dev.modXfer_keep, putBytes_keep, fold_keep]; with_reducible (first | (with_reducible refine (fold_keep _ _ _ (fun _ _ => ?_)).trans ?_))) | with_reducible refine ite_of ?_ ?_ | split)
theorem Dev.modXferOf_keep (n : Nat) (h : Nat) (e : Nat) (uid : Nat) (g : Xfer → Xfer) (d0 : Dev) : (Dev.modXferOf n h e uid g d0).keep = d0.keep := by
  unfold Dev.modXferOf
  try dsimp only
  repeat' (first | (simp only [keep_mk, keep_ite, ite_self, eq_self, implies_true, Dev.modEp_keep]; done) | with_reducible refine ite_of ?_ ?_ | split)
theorem fillTo_keep (n : Nat) (h : Nat) (e : Nat) (x : Xfer) (limit : Nat) (d : Dev) : (fillTo n h e x limit d).keep = d.keep := by
  unfold fillTo
  try dsimp only
  repeat' (first | (simp only [keep_mk, keep_ite, ite_self, eq_self, implies_true, Dev.modXferOf_keep, issueRead_keep, fold_keep]; done) | (with_reducible refine (fold_keep _ _ _ (fun _ _ => ?_)).trans ?_) | (simp only [keep_mk, keep_ite, ite_self, eq_self, implies_true, Dev.modXferOf_keep, issueRead_keep, fold_keep]; with_reducible (first | (with_reducible refine (fold_keep _ _ _ (fun _ _ => ?_)).trans ?_))) | with_reducible refine ite_of ?_ ?_ | split)
theorem fillOut_keep (n : Nat) (h : Nat) (e : Nat) (d : Dev) : (fillOut n h e d).keep = d.keep := by
  unfold fillOut
  try dsimp only
  repeat' (first | (simp only [keep_mk, keep_ite, ite_self, eq_self, implies_true, fillTo_keep]; done) | with_reducible refine ite_of ?_ ?_ | split)
theorem fillPre_keep (n : Nat) (h : Nat) (e : Nat) (x0 : List Nat) (d0 : Dev) : (fillPre n h e x0 d0).keep = d0.keep := by
  induction x0 generalizing n h e d0
  all_goals
    unfold fillPre
    try dsimp only
    repeat' (first | (simp only [*, keep_mk, keep_ite, ite_self, eq_self, implies_true, fillTo_keep, elim_keep, elim_same]; done) | with_reducible refine ite_of ?_ ?_ | split)
theorem postRun_keep (n : Nat) (h : Nat) (e : Nat) (code : Nat) (reason : Nat) (mf : Nat) (count : Nat) (d : Dev) : (postRun n h e code reason mf count d).keep = d.keep := by
  unfold postRun
  try dsimp only
  repeat' (first | (simp only [keep_mk, keep_ite, ite_self, eq_self, implies_true, post_keep]; done) | with_reducible refine ite_of ?_ ?_ | split)
theorem endRun_keep (n : Nat) (h : Nat) (e : Nat) (d : Dev) : (endRun n h e d).keep = d.keep := by
  unfold endRun
  try dsimp only
  repeat' (first | (simp only [keep_mk, keep_ite, ite_self, eq_self, implies_true, Dev.modEp_keep, postRun_keep]; done) | with_reducible refine ite_of ?_ ?_ | split)
theorem haltEp_keep (n : Nat) (h : Nat) (e : Nat) (code : Nat) (reason : Nat) (errAddr : Nat) (malformed : Bool) (d : Dev) : (haltEp n h e code reason errAddr malformed d).keep = d.keep := by
  unfold haltEp
  try dsimp only
  repeat' (first | (simp only [keep_mk, keep_ite, ite_self, eq_self, implies_true, Dev.modEp_keep, dropAll_keep, dropParked_keep, endRun_keep, unloadStreams_keep, writeCtx_keep]; done) | with_reducible refine ite_of ?_ ?_ | split)
theorem trimIn_keep (n : Nat) (h : Nat) (e : Nat) (keep : Option Nat) (d : Dev) : (trimIn n h e keep d).keep = d.keep := by
  unfold trimIn
  try dsimp only
  repeat' (first | (simp only [keep_mk, keep_ite, ite_self, eq_self, implies_true, Dev.modXfer_keep]; done) | with_reducible refine ite_of ?_ ?_ | split)
theorem endXfer_keep (n : Nat) (h : Nat) (e : Nat) (z : XEnd) (d : Dev) : (endXfer n h e z d).keep = d.keep := by
  unfold endXfer
  try dsimp only
  repeat' (first | (simp only [keep_mk, keep_ite, ite_self, eq_self, implies_true, Dev.modEp_keep, Dev.modRing_keep, finishWe_keep, flushIn_keep, freeUnits_keep, giveUp_keep, modEnt_keep, postDue_keep, trimIn_keep]; done) | with_reducible refine ite_of ?_ ?_ | split)
theorem malformed_keep (n : Nat) (h : Nat) (e : Nat) (st : Nat) (addr : Nat) (reason : Nat) (cyc : Bool) (tag : Dword) (d : Dev) : (malformed n h e st addr reason cyc tag d).keep = d.keep := by
  unfold malformed
  try dsimp only
  repeat' (first | (simp only [keep_mk, keep_ite, ite_self, eq_self, implies_true, Dev.modRing_keep, endRun_keep, endXfer_keep, haltEp_keep, post_keep]; done) | with_reducible refine ite_of ?_ ?_ | split)
theorem xferReadFailed_keep (n : Nat) (h : Nat) (e : Nat) (addr : Nat) (cyc : Bool) (d : Dev) : (xferReadFailed n h e addr cyc d).keep = d.keep := by
  unfold xferReadFailed
  try dsimp only
  repeat' (first | (simp only [keep_mk, keep_ite, ite_self, eq_self, implies_true, Dev.modRing_keep, doIf_keep, endXfer_keep, haltEp_keep]; done) | (with_reducible refine (doIf_keep _ _ _ (fun _ => ?_)).trans ?_) | (simp only [keep_mk, keep_ite, ite_self, eq_self, implies_true, Dev.modRing_keep, doIf_keep, endXfer_keep, haltEp_keep]; with_reducible (first | (with_reducible refine (doIf_keep _ _ _ (fun _ => ?_)).trans ?_))) | with_reducible refine ite_of ?_ ?_ | split)
theorem enterStopped_keep (n : Nat) (h : Nat) (e : Nat) (d : Dev) : (enterStopped n h e d).keep = d.keep := by
  unfold enterStopped
  try dsimp only
  repeat' (first | (simp only [keep_mk, keep_ite, ite_self, eq_self, implies_true, Dev.modEp_keep, dropAll_keep, endRun_keep, unloadStreams_keep, writeCtx_keep]; done) | with_reducible refine ite_of ?_ ?_ | split)
theorem finishCut_keep (n : Nat) (h : Nat) (e : Nat) (d : Dev) : (finishCut n h e d).keep = d.keep := by
  unfold finishCut
  try dsimp only
  repeat' (first | (simp only [keep_mk, keep_ite, ite_self, eq_self, implies_true, Dev.modEp_keep, Dev.modRing_keep, endXfer_keep]; done) | with_reducible refine ite_of ?_ ?_ | split)
theorem endPast_keep (n : Nat) (h : Nat) (e : Nat) (z : XEnd) (d : Dev) : (endPast n h e z d).keep = d.keep := by
  unfold endPast
  try dsimp only
  repeat' (first | (simp only [keep_mk, keep_ite, ite_self, eq_self, implies_true, Dev.modXfer_keep, endXfer_keep, finishCut_keep, pokeRing_keep, trimIn_keep]; done) | with_reducible refine ite_of ?_ ?_ | split)
theorem stopXfer_keep (n : Nat) (h : Nat) (e : Nat) (d : Dev) : (stopXfer n h e d).keep = d.keep := by
  unfold stopXfer
  try dsimp only
  repeat' (first | (simp only [keep_mk, keep_ite, ite_self, eq_self, implies_true, Dev.modEp_keep, endPast_keep, endXfer_keep, giveUp_keep, pokeRing_keep]; done) | with_reducible refine ite_of ?_ ?_ | split)
theorem stopAllXfers_keep (n : Nat) (h : Nat) (e : Nat) (d : Dev) : (stopAllXfers n h e d).keep = d.keep := by
  unfold stopAllXfers
  try dsimp only
  repeat' (first | (simp only [keep_mk, keep_ite, ite_self, eq_self, implies_true, Dev.modEp_keep, stopXfer_keep, fold_keep]; done) | (with_reducible refine (fold_keep _ _ _ (fun _ _ => ?_)).trans ?_) | (simp only [keep_mk, keep_ite, ite_self, eq_self, implies_true, Dev.modEp_keep, stopXfer_keep, fold_keep]; with_reducible (first | (with_reducible refine (fold_keep _ _ _ (fun _ _ => ?_)).trans ?_))) | with_reducible refine ite_of ?_ ?_ | split)
theorem readTable_keep (n : Nat) (h : Nat) (e : Nat) (uid : Nat) (addr : Nat) (count : Nat) (d : Dev) : (readTable n h e uid addr count d).keep = d.keep := by
  unfold readTable
  try dsimp only
  repeat' (first | (simp only [keep_mk, keep_ite, ite_self, eq_self, implies_true, Dev.modXferOf_keep, hostReadOff_keep]; done) | with_reducible refine ite_of ?_ ?_ | split)
theorem takeWalker_keep (n : Nat) (h : Nat) (e : Nat) (uid : Nat) (d : Dev) : (takeWalker n h e uid d).keep = d.keep := by
  unfold takeWalker
  try dsimp only
  repeat' (first | (simp only [keep_mk, keep_ite, ite_self, eq_self, implies_true, Dev.modXferOf_keep, genAdd_keep]; done) | with_reducible refine ite_of ?_ ?_ | split)
theorem useData_keep (n : Nat) (h : Nat) (e : Nat) (t : TEnt) (d : Dev) : (useData n h e t d).keep = d.keep := by
  unfold useData
  try dsimp only
  repeat' (first | (simp only [keep_mk, keep_ite, ite_self, eq_self, implies_true, Dev.modXfer_keep, readTable_keep, takeWalker_keep]; done) | with_reducible refine ite_of ?_ ?_ | split)
theorem popHeld_keep (n : Nat) (h : Nat) (e : Nat) (st : Nat) (t : TEnt) (d : Dev) : (popHeld n h e st t d).keep = d.keep := by
  unfold popHeld
  try dsimp only
  repeat' (first | (simp only [keep_mk, keep_ite, ite_self, eq_self, implies_true, Dev.modRing_keep]; done) | with_reducible refine ite_of ?_ ?_ | split)
theorem feed_keep (n : Nat) (h : Nat) (e : Nat) (m : Nat) (x0 : Nat) (d0 : Dev) : (feed n h e m x0 d0).keep = d0.keep := by
  induction x0 generalizing n h e m d0
  all_goals
    unfold feed
    try dsimp only
    repeat' (first | (simp only [*, keep_mk, keep_ite, ite_self, eq_self, implies_true, Dev.modXfer_keep, malformed_keep, popHeld_keep, useData_keep, xferReadFailed_keep]; done) | with_reducible refine ite_of ?_ ?_ | split)
theorem beginXfer_keep (n : Nat) (h : Nat) (e : Nat) (st : Nat) (t : TEnt) (d : Dev) : (beginXfer n h e st t d).keep = d.keep := by
  unfold beginXfer
  try dsimp only
  repeat' (first | (simp only [keep_mk, keep_ite, ite_self, eq_self, implies_true, Dev.modEp_keep, Dev.modXfer_keep, endXfer_keep, genAdd_keep, haltEp_keep, malformed_keep, newTag_keep, popHeld_keep, useCtx_keep, useData_keep, xferReadFailed_keep]; done) | with_reducible refine ite_of ?_ ?_ | split)
theorem prepareOne_keep (n : Nat) (h : Nat) (e : Nat) (st : Nat) (t : TEnt × List (Nat × Nat)) (d : Dev) : (prepareOne n h e st t d).keep = d.keep := by
  unfold prepareOne
  try dsimp only
  repeat' (first | (simp only [keep_mk, keep_ite, ite_self, eq_self, implies_true, Dev.modEp_keep, genAdd_keep, newTag_keep, readTable_keep, takeWalker_keep, fold_keep]; done) | (with_reducible refine (fold_keep _ _ _ (fun _ _ => ?_)).trans ?_) | (simp only [keep_mk, keep_ite, ite_self, eq_self, implies_true, Dev.modEp_keep, genAdd_keep, newTag_keep, readTable_keep, takeWalker_keep, fold_keep]; with_reducible (first | (with_reducible refine (fold_keep _ _ _ (fun _ _ => ?_)).trans ?_))) | with_reducible refine ite_of ?_ ?_ | split)
theorem prepare_keep (n : Nat) (h : Nat) (e : Nat) (st : Nat) (now : Bool) (d : Dev) : (prepare n h e st now d).keep = d.keep := by
  unfold prepare
  try dsimp only
  repeat' (first | (simp only [keep_mk, keep_ite, ite_self, eq_self, implies_true, fillPre_keep, prepareOne_keep, fold_keep]; done) | (with_reducible refine (fold_keep _ _ _ (fun _ _ => ?_)).trans ?_) | (simp only [keep_mk, keep_ite, ite_self, eq_self, implies_true, fillPre_keep, prepareOne_keep, fold_keep]; with_reducible (first | (with_reducible refine (fold_keep _ _ _ (fun _ _ => ?_)).trans ?_))) | with_reducible refine ite_of ?_ ?_ | split)
theorem startNext_keep (n : Nat) (h : Nat) (e : Nat) (st : Nat) (x0 : Nat) (d0 : Dev) : (startNext n h e st x0 d0).keep = d0.keep := by
  induction x0 generalizing n h e st d0
  all_goals
    unfold startNext
    try dsimp only
    repeat' (first | (simp only [*, keep_mk, keep_ite, ite_self, eq_self, implies_true, Dev.modRing_keep, beginXfer_keep, enterStopped_keep, haltEp_keep, malformed_keep, newTag_keep, popHeld_keep, post_keep, postAfter_keep, elim_keep, elim_same]; done) | with_reducible refine ite_of ?_ ?_ | split)
theorem badInside_keep (n : Nat) (h : Nat) (e : Nat) (st : Nat) (d : Dev) : (badInside n h e st d).keep = d.keep := by
  unfold badInside
  try dsimp only
  repeat' (first | (simp only [keep_mk, keep_ite, ite_self, eq_self, implies_true, malformed_keep, xferReadFailed_keep]; done) | with_reducible refine ite_of ?_ ?_ | split)
theorem leaveStream_keep (n : Nat) (h : Nat) (e : Nat) (st : StrSt) (d : Dev) : (leaveStream n h e st d).keep = d.keep := by
  unfold leaveStream
  try dsimp only
  repeat' (first | (simp only [keep_mk, keep_ite, ite_self, eq_self, implies_true, Dev.modEp_keep, Dev.modRing_keep, cancelReads_keep, dropPre_keep]; done) | with_reducible refine ite_of ?_ ?_ | split)
theorem streamBoundary_keep (n : Nat) (h : Nat) (e : Nat) (d : Dev) : (streamBoundary n h e d).keep = d.keep := by
  unfold streamBoundary
  try dsimp only
  repeat' (first | (simp only [keep_mk, keep_ite, ite_self, eq_self, implies_true, leaveStream_keep]; done) | with_reducible refine ite_of ?_ ?_ | split)
theorem pump_keep (n : Nat) (h : Nat) (e : Nat) (st : Nat) (now : Bool) (d : Dev) : (pump n h e st now d).keep = d.keep := by
  unfold pump
  try dsimp only
  repeat' (first | (simp only [keep_mk, keep_ite, ite_self, eq_self, implies_true, badInside_keep, feed_keep, fillOut_keep, finishCut_keep, pokeRing_keep, prepare_keep, startNext_keep, streamBoundary_keep]; done) | with_reducible refine ite_of ?_ ?_ | split)
theorem transferEntriesArrived_keep (n : Nat) (h : Nat) (e : Nat) (st : Nat) (x0 : HRead) (data : List Dword) (d : Dev) : (transferEntriesArrived n h e st x0 data d).keep = d.keep := by
  unfold transferEntriesArrived
  try dsimp only
  repeat' (first | (simp only [keep_mk, keep_ite, ite_self, eq_self, implies_true, Dev.modRing_keep, endXfer_keep, finishCut_keep, pokeRing_keep, pump_keep]; done) | with_reducible refine ite_of ?_ ?_ | split)
theorem fragmentTableArrived_keep (n : Nat) (h : Nat) (e : Nat) (x0 : HRead) (data : List Dword) (d : Dev) : (fragmentTableArrived n h e x0 data d).keep = d.keep := by
  unfold fragmentTableArrived
  try dsimp only
  repeat' (first | (simp only [keep_mk, keep_ite, ite_self, eq_self, implies_true, Dev.modXferOf_keep, malformed_keep, pump_keep, readTable_keep, fold_keep]; done) | (with_reducible refine (fold_keep _ _ _ (fun _ _ => ?_)).trans ?_) | (simp only [keep_mk, keep_ite, ite_self, eq_self, implies_true, Dev.modXferOf_keep, malformed_keep, pump_keep, readTable_keep, fold_keep]; with_reducible (first | (with_reducible refine (fold_keep _ _ _ (fun _ _ => ?_)).trans ?_))) | with_reducible refine ite_of ?_ ?_ | split)
theorem sealEvent_keep (n : Nat) (h : Nat) (u2 : Nat) (d : Dev) : (sealEvent n h u2 d).keep = d.keep := by
  unfold sealEvent
  try dsimp only
  repeat' (first | (simp only [keep_mk, keep_ite, ite_self, eq_self, implies_true, Dev.modHalf_keep, raise_keep]; done) | with_reducible refine ite_of ?_ ?_ | split)
theorem endHalting_keep (n : Nat) (h : Nat) (e : Nat) (code : Nat) (keep : Option Nat) (d : Dev) : (endHalting n h e code keep d).keep = d.keep := by
  unfold endHalting
  try dsimp only
  repeat' (first | (simp only [keep_mk, keep_ite, ite_self, eq_self, implies_true, endPast_keep, endXfer_keep, haltEp_keep, pump_keep]; done) | with_reducible refine ite_of ?_ ?_ | split)
theorem sealDue_keep (n : Nat) (h : Nat) (e : Nat) (d : Dev) : (sealDue n h e d).keep = d.keep := by
  unfold sealDue
  try dsimp only
  repeat' (first | (simp only [keep_mk, keep_ite, ite_self, eq_self, implies_true, endHalting_keep]; done) | with_reducible refine ite_of ?_ ?_ | split)
theorem dataArrived_keep (n : Nat) (h : Nat) (e : Nat) (off : Nat) (bytes : List Byte) (sealBad : Nat) (x0 : HRead) (d : Dev) : (dataArrived n h e off bytes sealBad x0 d).keep = d.keep := by
  unfold dataArrived
  try dsimp only
  repeat' (first | (simp only [keep_mk, keep_ite, ite_self, eq_self, implies_true, Dev.modXferOf_keep, doIf_keep, endHalting_keep, hostReadOff_keep, sealDue_keep, sealEvent_keep]; done) | (with_reducible refine (doIf_keep _ _ _ (fun _ => ?_)).trans ?_) | (simp only [keep_mk, keep_ite, ite_self, eq_self, implies_true, Dev.modXferOf_keep, doIf_keep, endHalting_keep, hostReadOff_keep, sealDue_keep, sealEvent_keep]; with_reducible (first | (with_reducible refine (doIf_keep _ _ _ (fun _ => ?_)).trans ?_))) | with_reducible refine ite_of ?_ ?_ | split)
theorem forgetCommit_keep (n : Nat) (q : Nat) (i : Dword) (d0 : Dev) : (forgetCommit n q i d0).keep = d0.keep := by
  unfold forgetCommit
  try dsimp only
  repeat' (first | (simp only [keep_mk, keep_ite, ite_self, eq_self, implies_true, Dev.modEng_keep]; done) | with_reducible refine ite_of ?_ ?_ | split)
theorem dropCommit_keep (n : Nat) (q : Nat) (i : Dword) (d : Dev) : (dropCommit n q i d).keep = d.keep := by
  unfold dropCommit
  try dsimp only
  repeat' (first | (simp only [keep_mk, keep_ite, ite_self, eq_self, implies_true, Dev.modEng_keep, forgetCommit_keep, releasePages_keep]; done) | with_reducible refine ite_of ?_ ?_ | split)
theorem evaluate_keep (n : Nat) (q : Nat) (i : Dword) (d : Dev) : (evaluate n q i d).keep = d.keep := by
  unfold evaluate
  try dsimp only
  repeat' (first | (simp only [keep_mk, keep_ite, ite_self, eq_self, implies_true, Dev.modEng_keep, dropCommit_keep, finishWe_keep, fold_keep]; done) | (with_reducible refine (fold_keep _ _ _ (fun _ _ => ?_)).trans ?_) | (simp only [keep_mk, keep_ite, ite_self, eq_self, implies_true, Dev.modEng_keep, dropCommit_keep, finishWe_keep, fold_keep]; with_reducible (first | (with_reducible refine (fold_keep _ _ _ (fun _ _ => ?_)).trans ?_))) | with_reducible refine ite_of ?_ ?_ | split)
theorem queueCarve_keep (n : Nat) (c : CarveWait) (d : Dev) : (queueCarve n c d).keep = d.keep := by
  unfold queueCarve
  try dsimp only
  repeat' (first | (simp only [keep_mk, keep_ite, ite_self, eq_self, implies_true, Dev.modEng_keep]; done) | with_reducible refine ite_of ?_ ?_ | split)
theorem openWith_keep (n : Nat) (q : Nat) (i : Dword) (h : Nat) (bank : List Nat) (d : Dev) : (openWith n q i h bank d).keep = d.keep := by
  unfold openWith
  try dsimp only
  repeat' (first | (simp only [keep_mk, keep_ite, ite_self, eq_self, implies_true, Dev.modHandle_keep, dropCommit_keep, finishWe_keep, touch_keep, writeHeader_keep, elim_keep, elim_same]; done) | with_reducible refine ite_of ?_ ?_ | split)
theorem tryCarves_keep (n : Nat) (x0 : Nat) (d0 : Dev) : (tryCarves n x0 d0).keep = d0.keep := by
  induction x0 generalizing n d0
  all_goals
    unfold tryCarves
    try dsimp only
    repeat' (first | (simp only [*, keep_mk, keep_ite, ite_self, eq_self, implies_true, Dev.modEng_keep, Dev.modEp_keep, Dev.modHandle_keep, carve_keep, dropCommit_keep, evaluate_keep, finishWe_keep, openWith_keep, pump_keep, releasePages_keep, elim_keep, elim_same]; done) | with_reducible refine ite_of ?_ ?_ | split)
theorem carves_keep (n : Nat) (d : Dev) : (carves n d).keep = d.keep := by
  unfold carves
  try dsimp only
  repeat' (first | (simp only [keep_mk, keep_ite, ite_self, eq_self, implies_true, tryCarves_keep]; done) | with_reducible refine ite_of ?_ ?_ | split)


end Sys2Proof.Machine
end

