-- ==== Sys2Proof/Laws/KeepDev.lean ====
section
/-! SUPPORT. Which operations leave the dictionary, the host groups, the start, the flash states and the update alone (Dev.keep). -/
namespace Sys2Proof.Machine

set_option linter.unusedSimpArgs false
set_option linter.unreachableTactic false
set_option linter.unusedTactic false

theorem onHandle_keep (op : Nat) (n : Nat) (q : Nat) (i : Dword) (f : List Dword → Dev → Dev) (d0 : Dev) (hf : ∀ a0 a1, (f a0 a1).keep = a1.keep) : (onHandle op n q i f d0).keep = d0.keep := by
  unfold onHandle
  try dsimp only
  repeat' (first | (simp only [keep_mk, keep_ite, ite_self, eq_self, implies_true, hf, onEntry_keep, useCtx_keep]; done) | (with_reducible refine (onEntry_keep _ _ _ _ _ _ (fun _ _ => ?_)).trans ?_) | (simp only [keep_mk, keep_ite, ite_self, eq_self, implies_true, hf, onEntry_keep, useCtx_keep]; with_reducible (first | (with_reducible refine (onEntry_keep _ _ _ _ _ _ (fun _ _ => ?_)).trans ?_))) | with_reducible refine ite_of ?_ ?_ | split)
theorem dropPlan_keep (n : Nat) (p : Nat) (dead : Nat × Nat → Bool) (d : Dev) : (dropPlan n p dead d).keep = d.keep := by
  unfold dropPlan
  try dsimp only
  repeat' (first | (simp only [keep_mk, keep_ite, ite_self, eq_self, implies_true, Dev.modPort_keep, washSlot_keep, fold_keep]; done) | (with_reducible refine (fold_keep _ _ _ (fun _ _ => ?_)).trans ?_) | (simp only [keep_mk, keep_ite, ite_self, eq_self, implies_true, Dev.modPort_keep, washSlot_keep, fold_keep]; with_reducible (first | (with_reducible refine (fold_keep _ _ _ (fun _ _ => ?_)).trans ?_))) | with_reducible refine ite_of ?_ ?_ | split)
theorem leavePlan_keep (n : Nat) (h : Nat) (e : Nat) (d : Dev) : (leavePlan n h e d).keep = d.keep := by
  unfold leavePlan
  try dsimp only
  repeat' (first | (simp only [keep_mk, keep_ite, ite_self, eq_self, implies_true, Dev.modPort_keep]; done) | with_reducible refine ite_of ?_ ?_ | split)
theorem disableEp_keep (n : Nat) (h : Nat) (e : Nat) (d : Dev) : (disableEp n h e d).keep = d.keep := by
  unfold disableEp
  try dsimp only
  repeat' (first | (simp only [keep_mk, keep_ite, ite_self, eq_self, implies_true, Dev.modEp_keep, dropAll_keep, dropCtx_keep, giveUp_keep, releasePool_keep, writeCtx_keep, fold_keep]; done) | (with_reducible refine (fold_keep _ _ _ (fun _ _ => ?_)).trans ?_) | (simp only [keep_mk, keep_ite, ite_self, eq_self, implies_true, Dev.modEp_keep, dropAll_keep, dropCtx_keep, giveUp_keep, releasePool_keep, writeCtx_keep, fold_keep]; with_reducible (first | (with_reducible refine (fold_keep _ _ _ (fun _ _ => ?_)).trans ?_))) | with_reducible refine ite_of ?_ ?_ | split)
theorem cutOps_keep (n : Nat) (h : Nat) (code : Nat) (k : Nat) (ops : List Nat) (d : Dev) : (cutOps n h code k ops d).keep = d.keep := by
  unfold cutOps
  try dsimp only
  repeat' (first | (simp only [keep_mk, keep_ite, ite_self, eq_self, implies_true, dropCommit_keep, finishWe_keep, fold2_keep, fold_keep]; done) | (with_reducible refine (fold2_keep _ _ _ (fun _ _ => ?_)).trans ?_) | (with_reducible refine (fold_keep _ _ _ (fun _ _ => ?_)).trans ?_) | (simp only [keep_mk, keep_ite, ite_self, eq_self, implies_true, dropCommit_keep, finishWe_keep, fold2_keep, fold_keep]; with_reducible (first | (with_reducible refine (fold2_keep _ _ _ (fun _ _ => ?_)).trans ?_) | (with_reducible refine (fold_keep _ _ _ (fun _ _ => ?_)).trans ?_))) | with_reducible refine ite_of ?_ ?_ | split)
theorem closeHandle_keep (n : Nat) (q : Nat) (i : Dword) (h : Nat) (d : Dev) : (closeHandle n q i h d).keep = d.keep := by
  unfold closeHandle
  try dsimp only
  repeat' (first | (simp only [keep_mk, keep_ite, ite_self, eq_self, implies_true, Dev.modHandle_keep, carves_keep, cutOps_keep, disableEp_keep, dropCtx_keep, finishWe_keep, forEach_keep]; done) | (with_reducible refine (forEach_keep _ _ _ (fun _ _ => ?_)).trans ?_) | (simp only [keep_mk, keep_ite, ite_self, eq_self, implies_true, Dev.modHandle_keep, carves_keep, cutOps_keep, disableEp_keep, dropCtx_keep, finishWe_keep, forEach_keep]; with_reducible (first | (with_reducible refine (forEach_keep _ _ _ (fun _ _ => ?_)).trans ?_))) | with_reducible refine ite_of ?_ ?_ | split)
theorem stopResult_keep (n : Nat) (q : Nat) (i : Dword) (e : List Dword) (d : Dev) : (stopResult n q i e d).keep = d.keep := by
  unfold stopResult
  try dsimp only
  repeat' (first | (simp only [keep_mk, keep_ite, ite_self, eq_self, implies_true, finishWe_keep, hostRead_keep, waitEnt_keep]; done) | with_reducible refine ite_of ?_ ?_ | split)
theorem stoppedHook_keep (n : Nat) (q : Nat) (ent : WEnt) (d : Dev) : (stoppedHook n q ent d).keep = d.keep := by
  unfold stoppedHook
  try dsimp only
  repeat' (first | (simp only [keep_mk, keep_ite, ite_self, eq_self, implies_true, Dev.modEng_keep, closeHandle_keep, stopResult_keep, waitEnt_keep]; done) | with_reducible refine ite_of ?_ ?_ | split)
theorem doStop_keep (n : Nat) (h : Nat) (e : Nat) (d : Dev) : (doStop n h e d).keep = d.keep := by
  unfold doStop
  try dsimp only
  repeat' (first | (simp only [keep_mk, keep_ite, ite_self, eq_self, implies_true, Dev.modEp_keep, enterStopped_keep, modEnt_keep, stopAllXfers_keep, stoppedHook_keep, fold_keep]; done) | (with_reducible refine (fold_keep _ _ _ (fun _ _ => ?_)).trans ?_) | (simp only [keep_mk, keep_ite, ite_self, eq_self, implies_true, Dev.modEp_keep, enterStopped_keep, modEnt_keep, stopAllXfers_keep, stoppedHook_keep, fold_keep]; with_reducible (first | (with_reducible refine (fold_keep _ _ _ (fun _ _ => ?_)).trans ?_))) | with_reducible refine ite_of ?_ ?_ | split)
theorem goStop_keep (n : Nat) (h : Nat) (e : Nat) (d : Dev) : (goStop n h e d).keep = d.keep := by
  unfold goStop
  try dsimp only
  repeat' (first | (simp only [keep_mk, keep_ite, ite_self, eq_self, implies_true, doStop_keep]; done) | with_reducible refine ite_of ?_ ?_ | split)
theorem stopNow_keep (n : Nat) (h : Nat) (e : Nat) (d : Dev) : (stopNow n h e d).keep = d.keep := by
  unfold stopNow
  try dsimp only
  repeat' (first | (simp only [keep_mk, keep_ite, ite_self, eq_self, implies_true, doStop_keep]; done) | with_reducible refine ite_of ?_ ?_ | split)
theorem markStop_keep (n : Nat) (h : Nat) (e : Nat) (d0 : Dev) : (markStop n h e d0).keep = d0.keep := by
  unfold markStop
  try dsimp only
  repeat' (first | (simp only [keep_mk, keep_ite, ite_self, eq_self, implies_true, Dev.modEp_keep]; done) | with_reducible refine ite_of ?_ ?_ | split)
theorem beginStop_keep (n : Nat) (h : Nat) (e : Nat) (d : Dev) : (beginStop n h e d).keep = d.keep := by
  unfold beginStop
  try dsimp only
  repeat' (first | (simp only [keep_mk, keep_ite, ite_self, eq_self, implies_true, markStop_keep, stopNow_keep]; done) | with_reducible refine ite_of ?_ ?_ | split)
theorem stopFor_keep (n : Nat) (q : Nat) (i : Dword) (h : Nat) (es : List Nat) (d : Dev) : (stopFor n q i h es d).keep = d.keep := by
  unfold stopFor
  try dsimp only
  repeat' (first | (simp only [keep_mk, keep_ite, ite_self, eq_self, implies_true, forEach_keep, markStop_keep, stopNow_keep, stoppedHook_keep, waitEnt_keep]; done) | (with_reducible refine (forEach_keep _ _ _ (fun _ _ => ?_)).trans ?_) | (simp only [keep_mk, keep_ite, ite_self, eq_self, implies_true, forEach_keep, markStop_keep, stopNow_keep, stoppedHook_keep, waitEnt_keep]; with_reducible (first | (with_reducible refine (forEach_keep _ _ _ (fun _ _ => ?_)).trans ?_))) | with_reducible refine ite_of ?_ ?_ | split)
theorem carveLeads_keep (n : Nat) (hf : Nat) (x0 : List PlanRec) (x1 : List Nat) (d0 : Dev) : (carveLeads n hf x0 x1 d0).2.keep = d0.keep := by
  induction x0 generalizing n hf x1 d0
  all_goals
    unfold carveLeads
    try dsimp only
    repeat' (first | (simp only [*, keep_mk, keep_ite, ite_self, eq_self, implies_true, carve_keep]; done) | with_reducible refine ite_of ?_ ?_ | split)
theorem applyCommit_keep (n : Nat) (mf : Nat) (c : Commit) (d : Dev) : (applyCommit n mf c d).keep = d.keep := by
  unfold applyCommit
  try dsimp only
  repeat' (first | (simp only [keep_mk, keep_ite, ite_self, eq_self, implies_true, Dev.modEng_keep, Dev.modEp_keep, Dev.modPort_keep, carveLeads_keep, carves_keep, closeHandle_keep, disableEp_keep, dropPlan_keep, finishWe_keep, forEach_keep, forgetCommit_keep, touch_keep, fold2_keep, fold_keep]; done) | (with_reducible refine (forEach_keep _ _ _ (fun _ _ => ?_)).trans ?_) | (with_reducible refine (fold2_keep _ _ _ (fun _ _ => ?_)).trans ?_) | (with_reducible refine (fold_keep _ _ _ (fun _ _ => ?_)).trans ?_) | (simp only [keep_mk, keep_ite, ite_self, eq_self, implies_true, Dev.modEng_keep, Dev.modEp_keep, Dev.modPort_keep, carveLeads_keep, carves_keep, closeHandle_keep, disableEp_keep, dropPlan_keep, finishWe_keep, forEach_keep, forgetCommit_keep, touch_keep, fold2_keep, fold_keep]; with_reducible (first | (with_reducible refine (forEach_keep _ _ _ (fun _ _ => ?_)).trans ?_) | (with_reducible refine (fold2_keep _ _ _ (fun _ _ => ?_)).trans ?_) | (with_reducible refine (fold_keep _ _ _ (fun _ _ => ?_)).trans ?_))) | with_reducible refine ite_of ?_ ?_ | split)
theorem commitGone_keep (n : Nat) (p : Nat) (d : Dev) : (commitGone n p d).keep = d.keep := by
  unfold commitGone
  try dsimp only
  repeat' (first | (simp only [keep_mk, keep_ite, ite_self, eq_self, implies_true, Dev.modPort_keep, dropPlan_keep]; done) | with_reducible refine ite_of ?_ ?_ | split)
theorem retireOn_keep (n : Nat) (q : Nat) (i : Dword) (e : List Dword) (d : Dev) : (retireOn n q i e d).keep = d.keep := by
  unfold retireOn
  try dsimp only
  repeat' (first | (simp only [keep_mk, keep_ite, ite_self, eq_self, implies_true, finishWe_keep, stopFor_keep, waitEnt_keep]; done) | with_reducible refine ite_of ?_ ?_ | split)
theorem retireWaiters_keep (n : Nat) (d : Dev) : (retireWaiters n d).keep = d.keep := by
  unfold retireWaiters
  try dsimp only
  repeat' (first | (simp only [keep_mk, keep_ite, ite_self, eq_self, implies_true, retireOn_keep, fold2_keep, fold_keep]; done) | (with_reducible refine (fold2_keep _ _ _ (fun _ _ => ?_)).trans ?_) | (with_reducible refine (fold_keep _ _ _ (fun _ _ => ?_)).trans ?_) | (simp only [keep_mk, keep_ite, ite_self, eq_self, implies_true, retireOn_keep, fold2_keep, fold_keep]; with_reducible (first | (with_reducible refine (fold2_keep _ _ _ (fun _ _ => ?_)).trans ?_) | (with_reducible refine (fold_keep _ _ _ (fun _ _ => ?_)).trans ?_))) | with_reducible refine ite_of ?_ ?_ | split)
theorem applyCommits_keep (n : Nat) (d : Dev) : (applyCommits n d).keep = d.keep := by
  unfold applyCommits
  try dsimp only
  repeat' (first | (simp only [keep_mk, keep_ite, ite_self, eq_self, implies_true, applyCommit_keep, carves_keep, commitGone_keep, forEach_keep, retireWaiters_keep, fold_keep]; done) | (with_reducible refine (forEach_keep _ _ _ (fun _ _ => ?_)).trans ?_) | (with_reducible refine (fold_keep _ _ _ (fun _ _ => ?_)).trans ?_) | (simp only [keep_mk, keep_ite, ite_self, eq_self, implies_true, applyCommit_keep, carves_keep, commitGone_keep, forEach_keep, retireWaiters_keep, fold_keep]; with_reducible (first | (with_reducible refine (forEach_keep _ _ _ (fun _ _ => ?_)).trans ?_) | (with_reducible refine (fold_keep _ _ _ (fun _ _ => ?_)).trans ?_))) | with_reducible refine ite_of ?_ ?_ | split)
theorem openAct_keep (n : Nat) (q : Nat) (i : Dword) (e : List Dword) (d : Dev) : (openAct n q i e d).keep = d.keep := by
  unfold openAct
  try dsimp only
  repeat' (first | (simp only [keep_mk, keep_ite, ite_self, eq_self, implies_true, finishWe_keep, hostRead_keep, waitEnt_keep]; done) | with_reducible refine ite_of ?_ ?_ | split)
theorem openRead_keep (n : Nat) (q : Nat) (i : Dword) (e : List Dword) (data : List Dword) (d : Dev) : (openRead n q i e data d).keep = d.keep := by
  unfold openRead
  try dsimp only
  repeat' (first | (simp only [keep_mk, keep_ite, ite_self, eq_self, implies_true, Dev.modEng_keep, Dev.modHandle_keep, finishWe_keep, queueCarve_keep, waitEnt_keep]; done) | with_reducible refine ite_of ?_ ?_ | split)
theorem assignAct_keep (n : Nat) (q : Nat) (i : Dword) (e : List Dword) (d : Dev) : (assignAct n q i e d).keep = d.keep := by
  unfold assignAct
  try dsimp only
  repeat' (first | (simp only [keep_mk, keep_ite, ite_self, eq_self, implies_true, Dev.modEp_keep, finishWe_keep, genAdd_keep, newTag_keep, waitEnt_keep]; done) | with_reducible refine ite_of ?_ ?_ | split)
theorem assignEnd_keep (n : Nat) (q : Nat) (i : Dword) (d : Dev) : (assignEnd n q i d).keep = d.keep := by
  unfold assignEnd
  try dsimp only
  repeat' (first | (simp only [keep_mk, keep_ite, ite_self, eq_self, implies_true, Dev.modHandle_keep, finishWe_keep, writeHeader_keep]; done) | with_reducible refine ite_of ?_ ?_ | split)
theorem updateAct_keep (n : Nat) (q : Nat) (i : Dword) (e : List Dword) (d : Dev) : (updateAct n q i e d).keep = d.keep := by
  unfold updateAct
  try dsimp only
  repeat' (first | (simp only [keep_mk, keep_ite, ite_self, eq_self, implies_true, finishWe_keep, hostRead_keep, waitEnt_keep]; done) | with_reducible refine ite_of ?_ ?_ | split)
theorem updateRead_keep (n : Nat) (q : Nat) (i : Dword) (e : List Dword) (data : List Dword) (d : Dev) : (updateRead n q i e data d).keep = d.keep := by
  unfold updateRead
  try dsimp only
  repeat' (first | (simp only [keep_mk, keep_ite, ite_self, eq_self, implies_true, Dev.modHandle_keep, finishWe_keep]; done) | with_reducible refine ite_of ?_ ?_ | split)
theorem closeAct_keep (n : Nat) (q : Nat) (i : Dword) (e : List Dword) (d : Dev) : (closeAct n q i e d).keep = d.keep := by
  unfold closeAct
  try dsimp only
  repeat' (first | (simp only [keep_mk, keep_ite, ite_self, eq_self, implies_true, finishWe_keep, stopFor_keep]; done) | with_reducible refine ite_of ?_ ?_ | split)
theorem admitAct_keep (n : Nat) (q : Nat) (i : Dword) (e : List Dword) (d : Dev) : (admitAct n q i e d).keep = d.keep := by
  unfold admitAct
  try dsimp only
  repeat' (first | (simp only [keep_mk, keep_ite, ite_self, eq_self, implies_true, finishWe_keep, forEach_keep, hostRead_keep, waitEnt_keep]; done) | (with_reducible refine (forEach_keep _ _ _ (fun _ _ => ?_)).trans ?_) | (simp only [keep_mk, keep_ite, ite_self, eq_self, implies_true, finishWe_keep, forEach_keep, hostRead_keep, waitEnt_keep]; with_reducible (first | (with_reducible refine (forEach_keep _ _ _ (fun _ _ => ?_)).trans ?_))) | with_reducible refine ite_of ?_ ?_ | split)
theorem admitRead_keep (n : Nat) (q : Nat) (i : Dword) (e : List Dword) (data : List Dword) (d : Dev) : (admitRead n q i e data d).keep = d.keep := by
  unfold admitRead
  try dsimp only
  repeat' (first | (simp only [keep_mk, keep_ite, ite_self, eq_self, implies_true, Dev.modEng_keep, finishWe_keep, queueCarve_keep, waitEnt_keep]; done) | with_reducible refine ite_of ?_ ?_ | split)
theorem retireAct_keep (n : Nat) (q : Nat) (i : Dword) (e : List Dword) (d : Dev) : (retireAct n q i e d).keep = d.keep := by
  unfold retireAct
  try dsimp only
  repeat' (first | (simp only [keep_mk, keep_ite, ite_self, eq_self, implies_true, forEach_keep, retireOn_keep, useCtx_keep]; done) | (with_reducible refine (forEach_keep _ _ _ (fun _ _ => ?_)).trans ?_) | (simp only [keep_mk, keep_ite, ite_self, eq_self, implies_true, forEach_keep, retireOn_keep, useCtx_keep]; with_reducible (first | (with_reducible refine (forEach_keep _ _ _ (fun _ _ => ?_)).trans ?_))) | with_reducible refine ite_of ?_ ?_ | split)
theorem stopAct_keep (n : Nat) (q : Nat) (i : Dword) (e : List Dword) (d : Dev) : (stopAct n q i e d).keep = d.keep := by
  unfold stopAct
  try dsimp only
  repeat' (first | (simp only [keep_mk, keep_ite, ite_self, eq_self, implies_true, finishWe_keep, stopFor_keep, stopResult_keep, writeCtx_keep]; done) | with_reducible refine ite_of ?_ ?_ | split)
theorem clearHaltAct_keep (n : Nat) (q : Nat) (i : Dword) (e : List Dword) (d : Dev) : (clearHaltAct n q i e d).keep = d.keep := by
  unfold clearHaltAct
  try dsimp only
  repeat' (first | (simp only [keep_mk, keep_ite, ite_self, eq_self, implies_true, Dev.modEp_keep, finishWe_keep]; done) | with_reducible refine ite_of ?_ ?_ | split)
theorem moveAct_keep (n : Nat) (q : Nat) (i : Dword) (e : List Dword) (d : Dev) : (moveAct n q i e d).keep = d.keep := by
  unfold moveAct
  try dsimp only
  repeat' (first | (simp only [keep_mk, keep_ite, ite_self, eq_self, implies_true, Dev.modEp_keep, Dev.modRing_keep, finishWe_keep]; done) | with_reducible refine ite_of ?_ ?_ | split)
theorem carveAct_keep (n : Nat) (q : Nat) (i : Dword) (e : List Dword) (d : Dev) : (carveAct n q i e d).keep = d.keep := by
  unfold carveAct
  try dsimp only
  repeat' (first | (simp only [keep_mk, keep_ite, ite_self, eq_self, implies_true, carves_keep, queueCarve_keep, waitEnt_keep]; done) | with_reducible refine ite_of ?_ ?_ | split)
theorem releaseAct_keep (n : Nat) (q : Nat) (i : Dword) (e : List Dword) (d : Dev) : (releaseAct n q i e d).keep = d.keep := by
  unfold releaseAct
  try dsimp only
  repeat' (first | (simp only [keep_mk, keep_ite, ite_self, eq_self, implies_true, Dev.modEp_keep, carves_keep, finishWe_keep, releasePages_keep]; done) | with_reducible refine ite_of ?_ ?_ | split)
theorem resultWe_keep (n : Nat) (q : Nat) (i : Dword) (e : List Dword) (bytes : List Byte) (d : Dev) : (resultWe n q i e bytes d).keep = d.keep := by
  unfold resultWe
  try dsimp only
  repeat' (first | (simp only [keep_mk, keep_ite, ite_self, eq_self, implies_true, finishWe_keep, modEnt_keep, writeOn_keep, fold_keep, elim_keep, elim_same]; done) | (with_reducible refine (fold_keep _ _ _ (fun _ _ => ?_)).trans ?_) | (simp only [keep_mk, keep_ite, ite_self, eq_self, implies_true, finishWe_keep, modEnt_keep, writeOn_keep, fold_keep, elim_keep, elim_same]; with_reducible (first | (with_reducible refine (fold_keep _ _ _ (fun _ _ => ?_)).trans ?_))) | with_reducible refine ite_of ?_ ?_ | split)
theorem planAct_keep (n : Nat) (q : Nat) (i : Dword) (e : List Dword) (d : Dev) : (planAct n q i e d).keep = d.keep := by
  unfold planAct
  try dsimp only
  repeat' (first | (simp only [keep_mk, keep_ite, ite_self, eq_self, implies_true, finishWe_keep, resultWe_keep]; done) | with_reducible refine ite_of ?_ ?_ | split)
theorem structArrived_keep (n : Nat) (q : Nat) (i : Dword) (data : List Dword) (d : Dev) : (structArrived n q i data d).keep = d.keep := by
  unfold structArrived
  try dsimp only
  repeat' (first | (simp only [keep_mk, keep_ite, ite_self, eq_self, implies_true, admitRead_keep, carves_keep, confirmBy_keep, openRead_keep, releaseDue_keep, structReads_keep, updateRead_keep]; done) | with_reducible refine ite_of ?_ ?_ | split)
theorem reportSkips_keep (n : Nat) (h : Nat) (e : Nat) (reason : Nat) (d : Dev) : (reportSkips n h e reason d).keep = d.keep := by
  unfold reportSkips
  try dsimp only
  repeat' (first | (simp only [keep_mk, keep_ite, ite_self, eq_self, implies_true, Dev.modEp_keep, postRun_keep]; done) | with_reducible refine ite_of ?_ ?_ | split)
theorem resumeEp_keep (n : Nat) (h : Nat) (e : Nat) (d : Dev) : (resumeEp n h e d).keep = d.keep := by
  unfold resumeEp
  try dsimp only
  repeat' (first | (simp only [keep_mk, keep_ite, ite_self, eq_self, implies_true, pump_keep]; done) | with_reducible refine ite_of ?_ ?_ | split)
theorem spaceBack_keep (n : Nat) (q : Nat) (d : Dev) : (spaceBack n q d).keep = d.keep := by
  unfold spaceBack
  try dsimp only
  repeat' (first | (simp only [keep_mk, keep_ite, ite_self, eq_self, implies_true, drainCq_keep, releaseDue_keep, reportSkips_keep, resumeEp_keep, settleWq_keep, fold_keep]; done) | (with_reducible refine (fold_keep _ _ _ (fun _ _ => ?_)).trans ?_) | (simp only [keep_mk, keep_ite, ite_self, eq_self, implies_true, drainCq_keep, releaseDue_keep, reportSkips_keep, resumeEp_keep, settleWq_keep, fold_keep]; with_reducible (first | (with_reducible refine (fold_keep _ _ _ (fun _ _ => ?_)).trans ?_))) | with_reducible refine ite_of ?_ ?_ | split)
theorem freezeCheck_keep (n : Nat) (d : Dev) : (freezeCheck n d).keep = d.keep := by
  unfold freezeCheck
  try dsimp only
  repeat' (first | (simp only [keep_mk, keep_ite, ite_self, eq_self, implies_true, opEnd_keep, setSliceSt_keep]; done) | with_reducible refine ite_of ?_ ?_ | split)
theorem returned_keep (n : Nat) (x : HRead) (d : Dev) : (returned n x d).keep = d.keep := by
  unfold returned
  try dsimp only
  repeat' (first | (simp only [keep_mk, keep_ite, ite_self, eq_self, implies_true, fold_keep, confirmBy_keep, freezeCheck_keep, releaseDue_keep, settleWq_keep]; done) | (with_reducible refine (fold_keep _ _ _ (fun _ _ => ?_)).trans ?_) | (simp only [keep_mk, keep_ite, ite_self, eq_self, implies_true, fold_keep, confirmBy_keep, freezeCheck_keep, releaseDue_keep, settleWq_keep]; with_reducible (first | (with_reducible refine (fold_keep _ _ _ (fun _ _ => ?_)).trans ?_))) | with_reducible refine ite_of ?_ ?_ | split)
theorem onRead_keep (n : Nat) (r : ReadRef) (f : HRead → Dev → Dev) (d : Dev) (hf : ∀ a0 a1, (f a0 a1).keep = a1.keep) : (onRead n r f d).keep = d.keep := by
  unfold onRead
  try dsimp only
  repeat' (first | (simp only [keep_mk, keep_ite, ite_self, eq_self, implies_true, hf, returned_keep]; done) | with_reducible refine ite_of ?_ ?_ | split)
theorem resumeAll_keep (n : Nat) (d : Dev) : (resumeAll n d).keep = d.keep := by
  unfold resumeAll
  try dsimp only
  repeat' (first | (simp only [keep_mk, keep_ite, ite_self, eq_self, implies_true, fold_keep, resumeEp_keep]; done) | (with_reducible refine (fold_keep _ _ _ (fun _ _ => ?_)).trans ?_) | (simp only [keep_mk, keep_ite, ite_self, eq_self, implies_true, fold_keep, resumeEp_keep]; with_reducible (first | (with_reducible refine (fold_keep _ _ _ (fun _ _ => ?_)).trans ?_))) | with_reducible refine ite_of ?_ ?_ | split)
theorem pathBack_keep (n : Nat) (d : Dev) : (pathBack n d).keep = d.keep := by
  unfold pathBack
  try dsimp only
  repeat' (first | (simp only [keep_mk, keep_ite, ite_self, eq_self, implies_true, fold_keep, drainAll_keep, reissueHalf_keep, releaseVectors_keep, reportSkips_keep, resumeAll_keep]; done) | (with_reducible refine (fold_keep _ _ _ (fun _ _ => ?_)).trans ?_) | (simp only [keep_mk, keep_ite, ite_self, eq_self, implies_true, fold_keep, drainAll_keep, reissueHalf_keep, releaseVectors_keep, reportSkips_keep, resumeAll_keep]; with_reducible (first | (with_reducible refine (fold_keep _ _ _ (fun _ _ => ?_)).trans ?_))) | with_reducible refine ite_of ?_ ?_ | split)
theorem loseFor_keep (n : Nat) (lostW : HWrite → Bool) (lostR : HRead → Bool) (force : Bool) (d : Dev) : (loseFor n lostW lostR force d).keep = d.keep := by
  unfold loseFor
  try dsimp only
  repeat' (first | (simp only [keep_mk, keep_ite, ite_self, eq_self, implies_true, Dev.modSlice_keep, doIf_keep, markLost_keep, pathBack_keep, pathChanged_keep]; done) | (with_reducible refine (doIf_keep _ _ _ (fun _ => ?_)).trans ?_) | (simp only [keep_mk, keep_ite, ite_self, eq_self, implies_true, Dev.modSlice_keep, doIf_keep, markLost_keep, pathBack_keep, pathChanged_keep]; with_reducible (first | (with_reducible refine (doIf_keep _ _ _ (fun _ => ?_)).trans ?_))) | with_reducible refine ite_of ?_ ?_ | split)
theorem loseLink_keep (n : Nat) (f : Nat) (d : Dev) : (loseLink n f d).keep = d.keep := by
  unfold loseLink
  try dsimp only
  repeat' (first | (simp only [keep_mk, keep_ite, ite_self, eq_self, implies_true, Dev.modEng_keep, loseFor_keep]; done) | with_reducible refine ite_of ?_ ?_ | split)
theorem pgWake_keep (p : Nat) (d : Dev) : (pgWake p d).keep = d.keep := by
  unfold pgWake
  try dsimp only
  repeat' (first | (simp only [keep_mk, keep_ite, ite_self, eq_self, implies_true, Dev.modPg_keep]; done) | with_reducible refine ite_of ?_ ?_ | split)
theorem wakeBus_keep (p : Nat) (ss : Bool) (partner : Bool) (d : Dev) : (wakeBus p ss partner d).keep = d.keep := by
  unfold wakeBus
  try dsimp only
  repeat' (first | (simp only [keep_mk, keep_ite, ite_self, eq_self, implies_true, Dev.modBus_keep, emit_keep]; done) | with_reducible refine ite_of ?_ ?_ | split)
theorem ringEp_keep (n : Nat) (h : Nat) (e : Nat) (st : Nat) (d : Dev) : (ringEp n h e st d).keep = d.keep := by
  unfold ringEp
  try dsimp only
  repeat' (first | (simp only [keep_mk, keep_ite, ite_self, eq_self, implies_true, Dev.modEp_keep, Dev.modRing_keep, pgWake_keep, pokeRing_keep, useCtx_keep, wakeBus_keep]; done) | with_reducible refine ite_of ?_ ?_ | split)
theorem epRing_keep (n : Nat) (v : Qword) (d : Dev) : (epRing n v d).keep = d.keep := by
  unfold epRing
  try dsimp only
  repeat' (first | (simp only [keep_mk, keep_ite, ite_self, eq_self, implies_true, dbIgnored_keep, ringEp_keep]; done) | with_reducible refine ite_of ?_ ?_ | split)
theorem cqRing_keep (n : Nat) (v : Qword) (d : Dev) : (cqRing n v d).keep = d.keep := by
  unfold cqRing
  try dsimp only
  repeat' (first | (simp only [keep_mk, keep_ite, ite_self, eq_self, implies_true, Dev.modCq_keep, cqMessage_keep, dbIgnored_keep, spaceBack_keep]; done) | with_reducible refine ite_of ?_ ?_ | split)
theorem pushEp_keep (n : Nat) (e : List Dword) (d : Dev) : (pushEp n e d).keep = d.keep := by
  unfold pushEp
  try dsimp only
  repeat' (first | (simp only [keep_mk, keep_ite, ite_self, eq_self, implies_true, Dev.modEp_keep, Dev.modRing_keep, Dev.modSlice_keep, epRing_keep, pgWake_keep, pump_keep, useCtx_keep, wakeBus_keep]; done) | with_reducible refine ite_of ?_ ?_ | split)
theorem streamCtxArrived_keep (n : Nat) (h : Nat) (e : Nat) (st : Nat) (data : List Dword) (d : Dev) : (streamCtxArrived n h e st data d).keep = d.keep := by
  unfold streamCtxArrived
  try dsimp only
  repeat' (first | (simp only [keep_mk, keep_ite, ite_self, eq_self, implies_true, Dev.modRing_keep, finishWe_keep, malformed_keep, pokeRing_keep, fold_keep]; done) | (with_reducible refine (fold_keep _ _ _ (fun _ _ => ?_)).trans ?_) | (simp only [keep_mk, keep_ite, ite_self, eq_self, implies_true, Dev.modRing_keep, finishWe_keep, malformed_keep, pokeRing_keep, fold_keep]; with_reducible (first | (with_reducible refine (fold_keep _ _ _ (fun _ _ => ?_)).trans ?_))) | with_reducible refine ite_of ?_ ?_ | split)
theorem contextArrived_keep (n : Nat) (h : Nat) (e : Nat) (data : List Dword) (d : Dev) : (contextArrived n h e data d).keep = d.keep := by
  unfold contextArrived
  try dsimp only
  repeat' (first | (simp only [keep_mk, keep_ite, ite_self, eq_self, implies_true, Dev.modEp_keep, malformed_keep, pokeRing_keep]; done) | with_reducible refine ite_of ?_ ?_ | split)
theorem dataCompleted_keep (n : Nat) (h : Nat) (e : Nat) (st : Nat) (off : Nat) (bytes : List Byte) (bad : Nat) (d : Dev) : (dataCompleted n h e st off bytes bad d).keep = d.keep := by
  unfold dataCompleted
  try dsimp only
  repeat' (first | (simp only [keep_mk, keep_ite, ite_self, eq_self, implies_true, dataArrived_keep, goStop_keep, resumeEp_keep, returned_keep]; done) | with_reducible refine ite_of ?_ ?_ | split)
theorem readFailed_keep (n : Nat) (x0 : HRead) (d : Dev) : (readFailed n x0 d).keep = d.keep := by
  unfold readFailed
  try dsimp only
  repeat' (first | (simp only [keep_mk, keep_ite, ite_self, eq_self, implies_true, Dev.modCq_keep, Dev.modEng_keep, Dev.modEp_keep, Dev.modRing_keep, Dev.modXferOf_keep, cancelReads_keep, carves_keep, endHalting_keep, finishWe_keep, goStop_keep, haltEp_keep, post_keep, pump_keep, spaceBack_keep, wqReadFailed_keep, xferReadFailed_keep, fold_keep]; done) | (with_reducible refine (fold_keep _ _ _ (fun _ _ => ?_)).trans ?_) | (simp only [keep_mk, keep_ite, ite_self, eq_self, implies_true, Dev.modCq_keep, Dev.modEng_keep, Dev.modEp_keep, Dev.modRing_keep, Dev.modXferOf_keep, cancelReads_keep, carves_keep, endHalting_keep, finishWe_keep, goStop_keep, haltEp_keep, post_keep, pump_keep, spaceBack_keep, wqReadFailed_keep, xferReadFailed_keep, fold_keep]; with_reducible (first | (with_reducible refine (fold_keep _ _ _ (fun _ _ => ?_)).trans ?_))) | with_reducible refine ite_of ?_ ?_ | split)
theorem hostFailed_keep (n : Nat) (r : ReadRef) (d : Dev) : (hostFailed n r d).keep = d.keep := by
  unfold hostFailed
  try dsimp only
  repeat' (first | (simp only [keep_mk, keep_ite, ite_self, eq_self, implies_true, onRead_keep, readFailed_keep]; done) | (with_reducible refine (onRead_keep _ _ _ _ (fun _ _ => ?_)).trans ?_) | (simp only [keep_mk, keep_ite, ite_self, eq_self, implies_true, onRead_keep, readFailed_keep]; with_reducible (first | (with_reducible refine (onRead_keep _ _ _ _ (fun _ _ => ?_)).trans ?_))) | with_reducible refine ite_of ?_ ?_ | split)
theorem timedOut_keep (n : Nat) (r : ReadRef) (d : Dev) : (timedOut n r d).keep = d.keep := by
  unfold timedOut
  try dsimp only
  repeat' (first | (simp only [keep_mk, keep_ite, ite_self, eq_self, implies_true, Dev.modCq_keep, Dev.modEng_keep, loseLink_keep, raise_keep, readFailed_keep, releaseDue_keep]; done) | with_reducible refine ite_of ?_ ?_ | split)
theorem confirmIssue_keep (n : Nat) (f : Nat) (d : Dev) : (confirmIssue n f d).keep = d.keep := by
  unfold confirmIssue
  try dsimp only
  repeat' (first | (simp only [keep_mk, keep_ite, ite_self, eq_self, implies_true, issueRead_keep]; done) | with_reducible refine ite_of ?_ ?_ | split)
theorem confirmDone_keep (n : Nat) (f : Nat) (d : Dev) : (confirmDone n f d).keep = d.keep := by
  unfold confirmDone
  try dsimp only
  repeat' (first | (simp only [keep_mk, keep_ite, ite_self, eq_self, implies_true, Dev.modCq_keep, returned_keep, spaceBack_keep]; done) | with_reducible refine ite_of ?_ ?_ | split)
theorem flushIssue_keep (n : Nat) (q : Nat) (d : Dev) : (flushIssue n q d).keep = d.keep := by
  unfold flushIssue
  try dsimp only
  repeat' (first | (simp only [keep_mk, keep_ite, ite_self, eq_self, implies_true, Dev.modCq_keep, issueRead_keep]; done) | with_reducible refine ite_of ?_ ?_ | split)
theorem washDone_keep (h : Nat) (d : Dev) : (washDone h d).2.keep = d.keep := by
  unfold washDone
  try dsimp only
  repeat' (first | (simp only [keep_mk, keep_ite, ite_self, eq_self, implies_true, Dev.modHalf_keep, carves_keep]; done) | with_reducible refine ite_of ?_ ?_ | split)

end Sys2Proof.Machine
end

