-- ==== Sys2Proof/Laws/KeepBus.lean ====
section
/-! SUPPORT. Which operations leave the dictionary, the host groups, the start, the flash states and the update alone (Dev.keep). -/
namespace Sys2Proof.Machine

set_option linter.unusedSimpArgs false
set_option linter.unreachableTactic false
set_option linter.unusedTactic false

theorem cutXfers_keep (n : Nat) (h : Nat) (e : Nat) (code : Nat) (d : Dev) : (cutXfers n h e code d).keep = d.keep := by
  unfold cutXfers
  try dsimp only
  repeat' (first | (simp only [keep_mk, keep_ite, ite_self, eq_self, implies_true, Dev.modEp_keep, endRun_keep, endXfer_keep, giveUp_keep, fold_keep]; done) | (with_reducible refine (fold_keep _ _ _ (fun _ _ => ?_)).trans ?_) | (simp only [keep_mk, keep_ite, ite_self, eq_self, implies_true, Dev.modEp_keep, endRun_keep, endXfer_keep, giveUp_keep, fold_keep]; with_reducible (first | (with_reducible refine (fold_keep _ _ _ (fun _ _ => ?_)).trans ?_))) | with_reducible refine ite_of ?_ ?_ | split)
theorem cutEntries_keep (n : Nat) (h : Nat) (code : Nat) (d : Dev) : (cutEntries n h code d).keep = d.keep := by
  unfold cutEntries
  try dsimp only
  repeat' (first | (simp only [keep_mk, keep_ite, ite_self, eq_self, implies_true, cutOps_keep]; done) | with_reducible refine ite_of ?_ ?_ | split)
theorem closeWaiters_keep (n : Nat) (h : Nat) (d : Dev) : (closeWaiters n h d).keep = d.keep := by
  unfold closeWaiters
  try dsimp only
  repeat' (first | (simp only [keep_mk, keep_ite, ite_self, eq_self, implies_true, fold_keep, stoppedHook_keep]; done) | (with_reducible refine (fold_keep _ _ _ (fun _ _ => ?_)).trans ?_) | (simp only [keep_mk, keep_ite, ite_self, eq_self, implies_true, fold_keep, stoppedHook_keep]; with_reducible (first | (with_reducible refine (fold_keep _ _ _ (fun _ _ => ?_)).trans ?_))) | with_reducible refine ite_of ?_ ?_ | split)
theorem loseEp_keep (n : Nat) (h : Nat) (e : Nat) (d : Dev) : (loseEp n h e d).keep = d.keep := by
  unfold loseEp
  try dsimp only
  repeat' (first | (simp only [keep_mk, keep_ite, ite_self, eq_self, implies_true, disableEp_keep, leavePlan_keep]; done) | with_reducible refine ite_of ?_ ?_ | split)
theorem detachHandle_keep (n : Nat) (h : Nat) (code : Nat) (quiet : Bool) (d : Dev) : (detachHandle n h code quiet d).keep = d.keep := by
  unfold detachHandle
  try dsimp only
  repeat' (first | (simp only [keep_mk, keep_ite, ite_self, eq_self, implies_true, Dev.modHandle_keep, carves_keep, closeWaiters_keep, cutEntries_keep, cutXfers_keep, forEach_keep, loseEp_keep, writeHeader_keep]; done) | (with_reducible refine (forEach_keep _ _ _ (fun _ _ => ?_)).trans ?_) | (simp only [keep_mk, keep_ite, ite_self, eq_self, implies_true, Dev.modHandle_keep, carves_keep, closeWaiters_keep, cutEntries_keep, cutXfers_keep, forEach_keep, loseEp_keep, writeHeader_keep]; with_reducible (first | (with_reducible refine (forEach_keep _ _ _ (fun _ _ => ?_)).trans ?_))) | with_reducible refine ite_of ?_ ?_ | split)
theorem cutOpens_keep (n : Nat) (p : Nat) (bus : Option Bool) (code : Nat) (d : Dev) : (cutOpens n p bus code d).keep = d.keep := by
  unfold cutOpens
  try dsimp only
  repeat' (first | (simp only [keep_mk, keep_ite, ite_self, eq_self, implies_true, Dev.modHandle_keep, dropCommit_keep, finishWe_keep, fold_keep]; done) | (with_reducible refine (fold_keep _ _ _ (fun _ _ => ?_)).trans ?_) | (simp only [keep_mk, keep_ite, ite_self, eq_self, implies_true, Dev.modHandle_keep, dropCommit_keep, finishWe_keep, fold_keep]; with_reducible (first | (with_reducible refine (fold_keep _ _ _ (fun _ _ => ?_)).trans ?_))) | with_reducible refine ite_of ?_ ?_ | split)
theorem detachHandles_keep (p : Nat) (bus : Option Bool) (code : Nat) (d : Dev) : (detachHandles p bus code d).keep = d.keep := by
  unfold detachHandles
  try dsimp only
  repeat' (first | (simp only [keep_mk, keep_ite, ite_self, eq_self, implies_true, carves_keep, cutOpens_keep, detachHandle_keep, forEach_keep]; done) | (with_reducible refine (forEach_keep _ _ _ (fun _ _ => ?_)).trans ?_) | (simp only [keep_mk, keep_ite, ite_self, eq_self, implies_true, carves_keep, cutOpens_keep, detachHandle_keep, forEach_keep]; with_reducible (first | (with_reducible refine (forEach_keep _ _ _ (fun _ _ => ?_)).trans ?_))) | with_reducible refine ite_of ?_ ?_ | split)
theorem reinitEp1_keep (n : Nat) (h : Nat) (d : Dev) : (reinitEp1 n h d).keep = d.keep := by
  unfold reinitEp1
  try dsimp only
  repeat' (first | (simp only [keep_mk, keep_ite, ite_self, eq_self, implies_true, Dev.modEp_keep, dropAll_keep]; done) | with_reducible refine ite_of ?_ ?_ | split)
theorem resetHandle_keep (n : Nat) (h : Nat) (d : Dev) : (resetHandle n h d).keep = d.keep := by
  unfold resetHandle
  try dsimp only
  repeat' (first | (simp only [keep_mk, keep_ite, ite_self, eq_self, implies_true, Dev.modHandle_keep, carves_keep, closeWaiters_keep, cutEntries_keep, cutOps_keep, cutXfers_keep, detachHandle_keep, forEach_keep, loseEp_keep, reinitEp1_keep, writeHeader_keep]; done) | (with_reducible refine (forEach_keep _ _ _ (fun _ _ => ?_)).trans ?_) | (simp only [keep_mk, keep_ite, ite_self, eq_self, implies_true, Dev.modHandle_keep, carves_keep, closeWaiters_keep, cutEntries_keep, cutOps_keep, cutXfers_keep, detachHandle_keep, forEach_keep, loseEp_keep, reinitEp1_keep, writeHeader_keep]; with_reducible (first | (with_reducible refine (forEach_keep _ _ _ (fun _ _ => ?_)).trans ?_))) | with_reducible refine ite_of ?_ ?_ | split)
theorem finishPortOp_keep (p : Nat) (code : Nat) (r0 : Nat) (d : Dev) : (finishPortOp p code r0 d).keep = d.keep := by
  unfold finishPortOp
  try dsimp only
  repeat' (first | (simp only [keep_mk, keep_ite, ite_self, eq_self, implies_true, Dev.modBus_keep, finishWe_keep]; done) | with_reducible refine ite_of ?_ ?_ | split)
theorem cutPortOp_keep (p : Nat) (usb2 : Bool) (ss : Bool) (d : Dev) : (cutPortOp p usb2 ss d).keep = d.keep := by
  unfold cutPortOp
  try dsimp only
  repeat' (first | (simp only [keep_mk, keep_ite, ite_self, eq_self, implies_true, finishPortOp_keep]; done) | with_reducible refine ite_of ?_ ?_ | split)
theorem opBusDone_keep (p : Nat) (ss : Bool) (flags : Nat) (d : Dev) : (opBusDone p ss flags d).keep = d.keep := by
  unfold opBusDone
  try dsimp only
  repeat' (first | (simp only [keep_mk, keep_ite, ite_self, eq_self, implies_true, Dev.modBus_keep, finishPortOp_keep]; done) | with_reducible refine ite_of ?_ ?_ | split)
theorem resetBus_keep (p : Nat) (ss : Bool) (d : Dev) : (resetBus p ss d).keep = d.keep := by
  unfold resetBus
  try dsimp only
  repeat' (first | (simp only [keep_mk, keep_ite, ite_self, eq_self, implies_true, Dev.modBus_keep, carves_keep, cutOpens_keep, emit_keep, forEach_keep, portEvent_keep, resetHandle_keep]; done) | (with_reducible refine (forEach_keep _ _ _ (fun _ _ => ?_)).trans ?_) | (simp only [keep_mk, keep_ite, ite_self, eq_self, implies_true, Dev.modBus_keep, carves_keep, cutOpens_keep, emit_keep, forEach_keep, portEvent_keep, resetHandle_keep]; with_reducible (first | (with_reducible refine (forEach_keep _ _ _ (fun _ _ => ?_)).trans ?_))) | with_reducible refine ite_of ?_ ?_ | split)
theorem settlePort_keep (p : Nat) (d : Dev) : (settlePort p d).keep = d.keep := by
  unfold settlePort
  try dsimp only
  repeat' (first | (simp only [keep_mk, keep_ite, ite_self, eq_self, implies_true, Dev.modBus_keep, emit_keep, resetBus_keep]; done) | with_reducible refine ite_of ?_ ?_ | split)
theorem spend2_keep (p : Nat) (c : Nat) (d0 : Dev) : (spend2 p c d0).keep = d0.keep := by
  unfold spend2
  try dsimp only
  repeat' (first | (simp only [keep_mk, keep_ite, ite_self, eq_self, implies_true, Dev.modBus_keep]; done) | with_reducible refine ite_of ?_ ?_ | split)
theorem spendSs_keep (p : Nat) (isIn : Bool) (data : Nat) (back : Nat) (d0 : Dev) : (spendSs p isIn data back d0).keep = d0.keep := by
  unfold spendSs
  try dsimp only
  repeat' (first | (simp only [keep_mk, keep_ite, ite_self, eq_self, implies_true, Dev.modBus_keep]; done) | with_reducible refine ite_of ?_ ?_ | split)
theorem arrivedIn_keep (n : Nat) (h : Nat) (len : Nat) (pkts : Nat) (d : Dev) : (arrivedIn n h len pkts d).keep = d.keep := by
  unfold arrivedIn
  try dsimp only
  repeat' (first | (simp only [keep_mk, keep_ite, ite_self, eq_self, implies_true, spend2_keep, spendSs_keep]; done) | with_reducible refine ite_of ?_ ?_ | split)
theorem ctlFeed_keep (n : Nat) (h : Nat) (e : Nat) (d : Dev) : (ctlFeed n h e d).keep = d.keep := by
  unfold ctlFeed
  try dsimp only
  repeat' (first | (simp only [keep_mk, keep_ite, ite_self, eq_self, implies_true, Dev.modXfer_keep, malformed_keep, popHeld_keep, useData_keep, xferReadFailed_keep, fold_keep]; done) | (with_reducible refine (fold_keep _ _ _ (fun _ _ => ?_)).trans ?_) | (simp only [keep_mk, keep_ite, ite_self, eq_self, implies_true, Dev.modXfer_keep, malformed_keep, popHeld_keep, useData_keep, xferReadFailed_keep, fold_keep]; with_reducible (first | (with_reducible refine (fold_keep _ _ _ (fun _ _ => ?_)).trans ?_))) | with_reducible refine ite_of ?_ ?_ | split)
theorem goOn_keep (n : Nat) (h : Nat) (e : Nat) (d : Dev) : (goOn n h e d).keep = d.keep := by
  unfold goOn
  try dsimp only
  repeat' (first | (simp only [keep_mk, keep_ite, ite_self, eq_self, implies_true, ctlFeed_keep, fillOut_keep, resumeEp_keep]; done) | with_reducible refine ite_of ?_ ?_ | split)
theorem selectStream_keep (n : Nat) (h : Nat) (e : Nat) (d : Dev) : (selectStream n h e d).keep = d.keep := by
  unfold selectStream
  try dsimp only
  repeat' (first | (simp only [keep_mk, keep_ite, ite_self, eq_self, implies_true, Dev.modEp_keep, Dev.modRing_keep, pokeRing_keep]; done) | with_reducible refine ite_of ?_ ?_ | split)
theorem issueTxn_keep (n : Nat) (h : Nat) (e : Nat) (d : Dev) : (issueTxn n h e d).keep = d.keep := by
  unfold issueTxn
  try dsimp only
  repeat' (first | (simp only [keep_mk, keep_ite, ite_self, eq_self, implies_true, Dev.modEp_keep, Dev.modEpBus_keep, emit_keep, spend2_keep, spendSs_keep, fold2_keep, fold_keep]; done) | (with_reducible refine (fold2_keep _ _ _ (fun _ _ => ?_)).trans ?_) | (with_reducible refine (fold_keep _ _ _ (fun _ _ => ?_)).trans ?_) | (simp only [keep_mk, keep_ite, ite_self, eq_self, implies_true, Dev.modEp_keep, Dev.modEpBus_keep, emit_keep, spend2_keep, spendSs_keep, fold2_keep, fold_keep]; with_reducible (first | (with_reducible refine (fold2_keep _ _ _ (fun _ _ => ?_)).trans ?_) | (with_reducible refine (fold_keep _ _ _ (fun _ _ => ?_)).trans ?_))) | with_reducible refine ite_of ?_ ?_ | split)
theorem endTurn_keep (n : Nat) (h : Nat) (e : Nat) (d : Dev) : (endTurn n h e d).keep = d.keep := by
  unfold endTurn
  try dsimp only
  repeat' (first | (simp only [keep_mk, keep_ite, ite_self, eq_self, implies_true, Dev.modEp_keep, Dev.modEpBus_keep]; done) | with_reducible refine ite_of ?_ ?_ | split)
theorem startTurn_keep (n : Nat) (h : Nat) (e : Nat) (d : Dev) : (startTurn n h e d).keep = d.keep := by
  unfold startTurn
  try dsimp only
  repeat' (first | (simp only [keep_mk, keep_ite, ite_self, eq_self, implies_true, endTurn_keep, goOn_keep, issueTxn_keep, selectStream_keep, useCtx_keep]; done) | with_reducible refine ite_of ?_ ?_ | split)
theorem nextInTurn_keep (n : Nat) (h : Nat) (e : Nat) (d : Dev) : (nextInTurn n h e d).keep = d.keep := by
  unfold nextInTurn
  try dsimp only
  repeat' (first | (simp only [keep_mk, keep_ite, ite_self, eq_self, implies_true, Dev.modEp_keep, doStop_keep, endTurn_keep, goOn_keep, startTurn_keep]; done) | with_reducible refine ite_of ?_ ?_ | split)
theorem nextInBurst_keep (n : Nat) (h : Nat) (e : Nat) (d : Dev) : (nextInBurst n h e d).keep = d.keep := by
  unfold nextInBurst
  try dsimp only
  repeat' (first | (simp only [keep_mk, keep_ite, ite_self, eq_self, implies_true, Dev.modEpBus_keep, goOn_keep, nextInTurn_keep]; done) | with_reducible refine ite_of ?_ ?_ | split)
theorem turnOver_keep (n : Nat) (h : Nat) (e : Nat) (d : Dev) : (turnOver n h e d).keep = d.keep := by
  unfold turnOver
  try dsimp only
  repeat' (first | (simp only [keep_mk, keep_ite, ite_self, eq_self, implies_true, doStop_keep, endTurn_keep]; done) | with_reducible refine ite_of ?_ ?_ | split)
theorem joinRound_keep (n : Nat) (ok : List (Nat × Nat)) (d : Dev) : (joinRound n ok d).keep = d.keep := by
  unfold joinRound
  try dsimp only
  repeat' (first | (simp only [keep_mk, keep_ite, ite_self, eq_self, implies_true, Dev.modEp_keep, fold_keep]; done) | (with_reducible refine (fold_keep _ _ _ (fun _ _ => ?_)).trans ?_) | (simp only [keep_mk, keep_ite, ite_self, eq_self, implies_true, Dev.modEp_keep, fold_keep]; with_reducible (first | (with_reducible refine (fold_keep _ _ _ (fun _ _ => ?_)).trans ?_))) | with_reducible refine ite_of ?_ ?_ | split)
theorem newRound_keep (n : Nat) (es : List (Nat × Nat)) (ok : List (Nat × Nat)) (d : Dev) : (newRound n es ok d).keep = d.keep := by
  unfold newRound
  try dsimp only
  repeat' (first | (simp only [keep_mk, keep_ite, ite_self, eq_self, implies_true, Dev.modEpBus_keep, joinRound_keep, fold_keep]; done) | (with_reducible refine (fold_keep _ _ _ (fun _ _ => ?_)).trans ?_) | (simp only [keep_mk, keep_ite, ite_self, eq_self, implies_true, Dev.modEpBus_keep, joinRound_keep, fold_keep]; with_reducible (first | (with_reducible refine (fold_keep _ _ _ (fun _ _ => ?_)).trans ?_))) | with_reducible refine ite_of ?_ ?_ | split)
theorem npTurn_keep (p : Nat) (ss : Bool) (d : Dev) : (npTurn p ss d).keep = d.keep := by
  unfold npTurn
  try dsimp only
  repeat' (first | (simp only [keep_mk, keep_ite, ite_self, eq_self, implies_true, Dev.modBus_keep, Dev.modEp_keep, joinRound_keep, newRound_keep, startTurn_keep, wakeBus_keep]; done) | with_reducible refine ite_of ?_ ?_ | split)
theorem good_keep (n : Nat) (h : Nat) (e : Nat) (d0 : Dev) : (good n h e d0).keep = d0.keep := by
  unfold good
  try dsimp only
  repeat' (first | (simp only [keep_mk, keep_ite, ite_self, eq_self, implies_true, Dev.modEpBus_keep]; done) | with_reducible refine ite_of ?_ ?_ | split)
theorem countError_keep (n : Nat) (h : Nat) (e : Nat) (tt : Bool) (d : Dev) : (countError n h e tt d).keep = d.keep := by
  unfold countError
  try dsimp only
  repeat' (first | (simp only [keep_mk, keep_ite, ite_self, eq_self, implies_true, Dev.modCnt_keep, Dev.modEpBus_keep, endHalting_keep]; done) | with_reducible refine ite_of ?_ ?_ | split)
theorem countNak_keep (n : Nat) (h : Nat) (d : Dev) : (countNak n h d).keep = d.keep := by
  unfold countNak
  try dsimp only
  repeat' (first | (simp only [keep_mk, keep_ite, ite_self, eq_self, implies_true, Dev.modCnt_keep]; done) | with_reducible refine ite_of ?_ ?_ | split)
theorem nakked_keep (n : Nat) (h : Nat) (e : Nat) (count : Bool) (ping : Bool) (d : Dev) : (nakked n h e count ping d).keep = d.keep := by
  unfold nakked
  try dsimp only
  repeat' (first | (simp only [keep_mk, keep_ite, ite_self, eq_self, implies_true, Dev.modEpBus_keep, countNak_keep, doIf_keep, turnOver_keep]; done) | (with_reducible refine (doIf_keep _ _ _ (fun _ => ?_)).trans ?_) | (simp only [keep_mk, keep_ite, ite_self, eq_self, implies_true, Dev.modEpBus_keep, countNak_keep, doIf_keep, turnOver_keep]; with_reducible (first | (with_reducible refine (doIf_keep _ _ _ (fun _ => ?_)).trans ?_))) | with_reducible refine ite_of ?_ ?_ | split)
theorem npError_keep (n : Nat) (h : Nat) (e : Nat) (tt : Bool) (d : Dev) : (npError n h e tt d).keep = d.keep := by
  unfold npError
  try dsimp only
  repeat' (first | (simp only [keep_mk, keep_ite, ite_self, eq_self, implies_true, Dev.modEp_keep, countError_keep, startTurn_keep, turnOver_keep]; done) | with_reducible refine ite_of ?_ ?_ | split)
theorem npEnd_keep (n : Nat) (h : Nat) (e : Nat) (code : Nat) (d : Dev) : (npEnd n h e code d).keep = d.keep := by
  unfold npEnd
  try dsimp only
  repeat' (first | (simp only [keep_mk, keep_ite, ite_self, eq_self, implies_true, endXfer_keep, nextInTurn_keep]; done) | with_reducible refine ite_of ?_ ?_ | split)
theorem shortEnd_keep (n : Nat) (h : Nat) (e : Nat) (d : Dev) : (shortEnd n h e d).keep = d.keep := by
  unfold shortEnd
  try dsimp only
  repeat' (first | (simp only [keep_mk, keep_ite, ite_self, eq_self, implies_true, endPast_keep, nextInTurn_keep]; done) | with_reducible refine ite_of ?_ ?_ | split)
theorem nextStage_keep (n : Nat) (h : Nat) (e : Nat) (d : Dev) : (nextStage n h e d).keep = d.keep := by
  unfold nextStage
  try dsimp only
  repeat' (first | (simp only [keep_mk, keep_ite, ite_self, eq_self, implies_true, Dev.modEpBus_keep, Dev.modXfer_keep, nextInTurn_keep, npEnd_keep]; done) | with_reducible refine ite_of ?_ ?_ | split)
theorem takeIn_keep (n : Nat) (h : Nat) (e : Nat) (sealBad : Nat) (bytes : List Byte) (d : Dev) : (takeIn n h e sealBad bytes d).keep = d.keep := by
  unfold takeIn
  try dsimp only
  repeat' (first | (simp only [keep_mk, keep_ite, ite_self, eq_self, implies_true, Dev.modXfer_keep, doIf_keep, flushIn_keep, sealEvent_keep]; done) | (with_reducible refine (doIf_keep _ _ _ (fun _ => ?_)).trans ?_) | (simp only [keep_mk, keep_ite, ite_self, eq_self, implies_true, Dev.modXfer_keep, doIf_keep, flushIn_keep, sealEvent_keep]; with_reducible (first | (with_reducible refine (doIf_keep _ _ _ (fun _ => ?_)).trans ?_))) | with_reducible refine ite_of ?_ ?_ | split)
theorem inSealDead_keep (n : Nat) (h : Nat) (e : Nat) (d : Dev) : (inSealDead n h e d).keep = d.keep := by
  unfold inSealDead
  try dsimp only
  repeat' (first | (simp only [keep_mk, keep_ite, ite_self, eq_self, implies_true, endHalting_keep, sealEvent_keep]; done) | with_reducible refine ite_of ?_ ?_ | split)
theorem ackIn_keep (n : Nat) (h : Nat) (e : Nat) (d : Dev) : (ackIn n h e d).keep = d.keep := by
  unfold ackIn
  try dsimp only
  repeat' (first | (simp only [keep_mk, keep_ite, ite_self, eq_self, implies_true, emit_keep]; done) | with_reducible refine ite_of ?_ ?_ | split)
theorem npData_keep (n : Nat) (h : Nat) (e : Nat) (sealBad : Nat) (bytes : List Byte) (d : Dev) : (npData n h e sealBad bytes d).keep = d.keep := by
  unfold npData
  try dsimp only
  repeat' (first | (simp only [keep_mk, keep_ite, ite_self, eq_self, implies_true, Dev.modCnt_keep, Dev.modEpBus_keep, ackIn_keep, endHalting_keep, good_keep, inSealDead_keep, nextInBurst_keep, nextStage_keep, shortEnd_keep, takeIn_keep, turnOver_keep]; done) | with_reducible refine ite_of ?_ ?_ | split)
theorem npAck_keep (n : Nat) (h : Nat) (e : Nat) (nyet : Bool) (granted : Nat) (d : Dev) : (npAck n h e nyet granted d).keep = d.keep := by
  unfold npAck
  try dsimp only
  repeat' (first | (simp only [keep_mk, keep_ite, ite_self, eq_self, implies_true, Dev.modEpBus_keep, Dev.modXfer_keep, good_keep, nextInBurst_keep, nextInTurn_keep, nextStage_keep, npEnd_keep, npError_keep, sealDue_keep, turnOver_keep]; done) | with_reducible refine ite_of ?_ ?_ | split)
theorem npStall_keep (n : Nat) (h : Nat) (e : Nat) (d : Dev) : (npStall n h e d).keep = d.keep := by
  unfold npStall
  try dsimp only
  repeat' (first | (simp only [keep_mk, keep_ite, ite_self, eq_self, implies_true, Dev.modEpBus_keep, endHalting_keep, turnOver_keep]; done) | with_reducible refine ite_of ?_ ?_ | split)
theorem npResponse_keep (n : Nat) (h : Nat) (e : Nat) (r : NpResp) (sealBad : Nat) (d : Dev) : (npResponse n h e r sealBad d).keep = d.keep := by
  unfold npResponse
  try dsimp only
  repeat' (first | (simp only [keep_mk, keep_ite, ite_self, eq_self, implies_true, Dev.modEpBus_keep, ackIn_keep, arrivedIn_keep, countNak_keep, nakked_keep, npAck_keep, npData_keep, npError_keep, npStall_keep]; done) | with_reducible refine ite_of ?_ ?_ | split)
theorem fenceCheck_keep (n : Nat) (d : Dev) : (fenceCheck n d).keep = d.keep := by
  unfold fenceCheck
  try dsimp only
  repeat' (first | (simp only [keep_mk, keep_ite, ite_self, eq_self, implies_true, Dev.modBus_keep, Dev.modSlice_keep, fenceAnswers_keep, forEach_keep, raise_keep, setSliceSt_keep]; done) | (with_reducible refine (forEach_keep _ _ _ (fun _ _ => ?_)).trans ?_) | (simp only [keep_mk, keep_ite, ite_self, eq_self, implies_true, Dev.modBus_keep, Dev.modSlice_keep, fenceAnswers_keep, forEach_keep, raise_keep, setSliceSt_keep]; with_reducible (first | (with_reducible refine (forEach_keep _ _ _ (fun _ _ => ?_)).trans ?_))) | with_reducible refine ite_of ?_ ?_ | split)
theorem fencePortDone_keep (p : Nat) (d : Dev) : (fencePortDone p d).keep = d.keep := by
  unfold fencePortDone
  try dsimp only
  repeat' (first | (simp only [keep_mk, keep_ite, ite_self, eq_self, implies_true, Dev.modPort_keep, fenceCheck_keep]; done) | with_reducible refine ite_of ?_ ?_ | split)
theorem onPortEp_keep (p : Nat) (h : Nat) (e : Nat) (f : Nat → Dev → Dev) (d : Dev) (hf : ∀ a0 a1, (f a0 a1).keep = a1.keep) : (onPortEp p h e f d).keep = d.keep := by
  unfold onPortEp
  try dsimp only
  repeat' (first | (simp only [keep_mk, keep_ite, ite_self, eq_self, implies_true, hf, fencePortDone_keep]; done) | with_reducible refine ite_of ?_ ?_ | split)
theorem awaitPer_keep (p : Nat) (ss : Bool) (h : Nat) (e : Nat) (d0 : Dev) : (awaitPer p ss h e d0).keep = d0.keep := by
  unfold awaitPer
  try dsimp only
  repeat' (first | (simp only [keep_mk, keep_ite, ite_self, eq_self, implies_true, Dev.modBus_keep]; done) | with_reducible refine ite_of ?_ ?_ | split)
theorem perRest_keep (n : Nat) (h : Nat) (e : Nat) (late : Bool) (d : Dev) : (perRest n h e late d).keep = d.keep := by
  unfold perRest
  try dsimp only
  repeat' (first | (simp only [keep_mk, keep_ite, ite_self, eq_self, implies_true, Dev.modEp_keep, Dev.modXfer_keep]; done) | with_reducible refine ite_of ?_ ?_ | split)
theorem perEnd_keep (n : Nat) (h : Nat) (e : Nat) (code : Nat) (reason : Nat) (d : Dev) : (perEnd n h e code reason d).keep = d.keep := by
  unfold perEnd
  try dsimp only
  repeat' (first | (simp only [keep_mk, keep_ite, ite_self, eq_self, implies_true, Dev.modEp_keep, endPast_keep, resumeEp_keep]; done) | with_reducible refine ite_of ?_ ?_ | split)
theorem perMiss_keep (n : Nat) (h : Nat) (e : Nat) (reason : Nat) (d : Dev) : (perMiss n h e reason d).keep = d.keep := by
  unfold perMiss
  try dsimp only
  repeat' (first | (simp only [keep_mk, keep_ite, ite_self, eq_self, implies_true, perEnd_keep, perRest_keep]; done) | with_reducible refine ite_of ?_ ?_ | split)
theorem perIssue_keep (n : Nat) (h : Nat) (e : Nat) (d : Dev) : (perIssue n h e d).keep = d.keep := by
  unfold perIssue
  try dsimp only
  repeat' (first | (simp only [keep_mk, keep_ite, ite_self, eq_self, implies_true, Dev.modXfer_keep, awaitPer_keep, emit_keep, perMiss_keep, spend2_keep, spendSs_keep, fold2_keep, fold_keep]; done) | (with_reducible refine (fold2_keep _ _ _ (fun _ _ => ?_)).trans ?_) | (with_reducible refine (fold_keep _ _ _ (fun _ _ => ?_)).trans ?_) | (simp only [keep_mk, keep_ite, ite_self, eq_self, implies_true, Dev.modXfer_keep, awaitPer_keep, emit_keep, perMiss_keep, spend2_keep, spendSs_keep, fold2_keep, fold_keep]; with_reducible (first | (with_reducible refine (fold2_keep _ _ _ (fun _ _ => ?_)).trans ?_) | (with_reducible refine (fold_keep _ _ _ (fun _ _ => ?_)).trans ?_))) | with_reducible refine ite_of ?_ ?_ | split)
theorem skipOpp_keep (n : Nat) (h : Nat) (e : Nat) (reason : Nat) (mf : Nat) (d0 : Dev) : (skipOpp n h e reason mf d0).keep = d0.keep := by
  unfold skipOpp
  try dsimp only
  repeat' (first | (simp only [keep_mk, keep_ite, ite_self, eq_self, implies_true, Dev.modEp_keep]; done) | with_reducible refine ite_of ?_ ?_ | split)
theorem zeroPacket_keep (n : Nat) (r : PlanRec) (d : Dev) : (zeroPacket n r d).keep = d.keep := by
  unfold zeroPacket
  try dsimp only
  repeat' (first | (simp only [keep_mk, keep_ite, ite_self, eq_self, implies_true, emit_keep, spend2_keep, spendSs_keep]; done) | with_reducible refine ite_of ?_ ?_ | split)
theorem runToken_keep (n : Nat) (r : PlanRec) (d : Dev) : (runToken n r d).keep = d.keep := by
  unfold runToken
  try dsimp only
  repeat' (first | (simp only [keep_mk, keep_ite, ite_self, eq_self, implies_true, awaitPer_keep, emit_keep, spend2_keep, spendSs_keep]; done) | with_reducible refine ite_of ?_ ?_ | split)
theorem runOpp_keep (n : Nat) (t : Nat) (r : PlanRec) (d : Dev) : (runOpp n t r d).keep = d.keep := by
  unfold runOpp
  try dsimp only
  repeat' (first | (simp only [keep_mk, keep_ite, ite_self, eq_self, implies_true, Dev.modEp_keep, runToken_keep, zeroPacket_keep]; done) | with_reducible refine ite_of ?_ ?_ | split)
theorem beginService_keep (n : Nat) (t : Nat) (r : PlanRec) (d : Dev) : (beginService n t r d).keep = d.keep := by
  unfold beginService
  try dsimp only
  repeat' (first | (simp only [keep_mk, keep_ite, ite_self, eq_self, implies_true, Dev.modEp_keep, Dev.modXfer_keep, endRun_keep, perIssue_keep, perMiss_keep, runOpp_keep, skipOpp_keep, useCtx_keep, zeroPacket_keep]; done) | with_reducible refine ite_of ?_ ?_ | split)
theorem perMoved_keep (n : Nat) (h : Nat) (e : Nat) (d0 : Dev) : (perMoved n h e d0).keep = d0.keep := by
  unfold perMoved
  try dsimp only
  repeat' (first | (simp only [keep_mk, keep_ite, ite_self, eq_self, implies_true, Dev.modXfer_keep]; done) | with_reducible refine ite_of ?_ ?_ | split)
theorem perMore_keep (n : Nat) (h : Nat) (e : Nat) (d : Dev) : (perMore n h e d).keep = d.keep := by
  unfold perMore
  try dsimp only
  repeat' (first | (simp only [keep_mk, keep_ite, ite_self, eq_self, implies_true, perEnd_keep, perIssue_keep, perRest_keep]; done) | with_reducible refine ite_of ?_ ?_ | split)
theorem perData_keep (n : Nat) (h : Nat) (e : Nat) (bytes : List Byte) (pid : DPid) (sealBad : Nat) (more : Bool) (d : Dev) : (perData n h e bytes pid sealBad more d).keep = d.keep := by
  unfold perData
  try dsimp only
  repeat' (first | (simp only [keep_mk, keep_ite, ite_self, eq_self, implies_true, Dev.modCnt_keep, Dev.modEpBus_keep, Dev.modXfer_keep, ackIn_keep, endHalting_keep, good_keep, inSealDead_keep, perEnd_keep, perIssue_keep, perMore_keep, perMoved_keep, takeIn_keep]; done) | with_reducible refine ite_of ?_ ?_ | split)
theorem perSent_keep (n : Nat) (h : Nat) (e : Nat) (d : Dev) : (perSent n h e d).keep = d.keep := by
  unfold perSent
  try dsimp only
  repeat' (first | (simp only [keep_mk, keep_ite, ite_self, eq_self, implies_true, Dev.modEpBus_keep, Dev.modXfer_keep, good_keep, perEnd_keep, perMore_keep, perMoved_keep]; done) | with_reducible refine ite_of ?_ ?_ | split)
theorem perError_keep (n : Nat) (h : Nat) (e : Nat) (tt : Bool) (d : Dev) : (perError n h e tt d).keep = d.keep := by
  unfold perError
  try dsimp only
  repeat' (first | (simp only [keep_mk, keep_ite, ite_self, eq_self, implies_true, countError_keep, perEnd_keep, perRest_keep]; done) | with_reducible refine ite_of ?_ ?_ | split)
theorem perNak_keep (n : Nat) (h : Nat) (e : Nat) (d : Dev) : (perNak n h e d).keep = d.keep := by
  unfold perNak
  try dsimp only
  repeat' (first | (simp only [keep_mk, keep_ite, ite_self, eq_self, implies_true, Dev.modEpBus_keep, countNak_keep, perError_keep, perRest_keep]; done) | with_reducible refine ite_of ?_ ?_ | split)
theorem perLead_keep (n : Nat) (t : Nat) (r : PlanRec) (d : Dev) : (perLead n t r d).keep = d.keep := by
  unfold perLead
  try dsimp only
  repeat' (first | (simp only [keep_mk, keep_ite, ite_self, eq_self, implies_true, pokeRing_keep, pump_keep, wakeBus_keep]; done) | with_reducible refine ite_of ?_ ?_ | split)
theorem csItem_keep (n : Nat) (r : PlanRec) (d : Dev) : (csItem n r d).keep = d.keep := by
  unfold csItem
  try dsimp only
  repeat' (first | (simp only [keep_mk, keep_ite, ite_self, eq_self, implies_true, Dev.modEp_keep, Dev.modEpBus_keep, awaitPer_keep, emit_keep, perMiss_keep, spend2_keep]; done) | with_reducible refine ite_of ?_ ?_ | split)
theorem ssItem_keep (n : Nat) (r : PlanRec) (d : Dev) : (ssItem n r d).keep = d.keep := by
  unfold ssItem
  try dsimp only
  repeat' (first | (simp only [keep_mk, keep_ite, ite_self, eq_self, implies_true, Dev.modEpBus_keep, Dev.modXfer_keep, emit_keep, perEnd_keep, perMiss_keep, perMoved_keep, spend2_keep]; done) | with_reducible refine ite_of ?_ ?_ | split)
theorem perItem_keep (n : Nat) (i : PerItem) (d : Dev) : (perItem n i d).keep = d.keep := by
  unfold perItem
  try dsimp only
  repeat' (first | (simp only [keep_mk, keep_ite, ite_self, eq_self, implies_true, beginService_keep, csItem_keep, ssItem_keep]; done) | with_reducible refine ite_of ?_ ?_ | split)
theorem runAgenda_keep (n : Nat) (p : Nat) (ss : Bool) (x0 : List PerItem) (d0 : Dev) : (runAgenda n p ss x0 d0).2.keep = d0.keep := by
  induction x0 generalizing n p ss d0
  all_goals
    unfold runAgenda
    try dsimp only
    repeat' (first | (simp only [*, keep_mk, keep_ite, ite_self, eq_self, implies_true, perItem_keep]; done) | with_reducible refine ite_of ?_ ?_ | split)
theorem nextPer_keep (p : Nat) (ss : Bool) (d : Dev) : (nextPer p ss d).keep = d.keep := by
  unfold nextPer
  try dsimp only
  repeat' (first | (simp only [keep_mk, keep_ite, ite_self, eq_self, implies_true, Dev.modBus_keep, runAgenda_keep]; done) | with_reducible refine ite_of ?_ ?_ | split)
theorem answered_keep (p : Nat) (h : Nat) (e : Nat) (d0 : Dev) : (answered p h e d0).keep = d0.keep := by
  unfold answered
  try dsimp only
  repeat' (first | (simp only [keep_mk, keep_ite, ite_self, eq_self, implies_true, Dev.modBus_keep]; done) | with_reducible refine ite_of ?_ ?_ | split)
theorem onPortPer_keep (p : Nat) (h : Nat) (e : Nat) (f : Nat → Dev → Dev) (d : Dev) (hf : ∀ a0 a1, (f a0 a1).keep = a1.keep) : (onPortPer p h e f d).keep = d.keep := by
  unfold onPortPer
  try dsimp only
  repeat' (first | (simp only [keep_mk, keep_ite, ite_self, eq_self, implies_true, hf, answered_keep, nextPer_keep, onPortEp_keep, settlePort_keep]; done) | (with_reducible refine (onPortEp_keep _ _ _ _ _ (fun _ _ => ?_)).trans ?_) | (simp only [keep_mk, keep_ite, ite_self, eq_self, implies_true, hf, answered_keep, nextPer_keep, onPortEp_keep, settlePort_keep]; with_reducible (first | (with_reducible refine (onPortEp_keep _ _ _ _ _ (fun _ _ => ?_)).trans ?_))) | with_reducible refine ite_of ?_ ?_ | split)
theorem runAnswer_keep (n : Nat) (h : Nat) (e : Nat) (len : Nat) (more : Bool) (d : Dev) : (runAnswer n h e len more d).keep = d.keep := by
  unfold runAnswer
  try dsimp only
  repeat' (first | (simp only [keep_mk, keep_ite, ite_self, eq_self, implies_true, Dev.modEp_keep, Dev.modEpBus_keep, arrivedIn_keep, awaitPer_keep, emit_keep, spend2_keep, spendSs_keep]; done) | with_reducible refine ite_of ?_ ?_ | split)
theorem perResponse_keep (n : Nat) (h : Nat) (e : Nat) (r : PerResp) (sealBad : Nat) (d : Dev) : (perResponse n h e r sealBad d).keep = d.keep := by
  unfold perResponse
  try dsimp only
  repeat' (first | (simp only [keep_mk, keep_ite, ite_self, eq_self, implies_true, Dev.modEpBus_keep, ackIn_keep, arrivedIn_keep, endHalting_keep, perData_keep, perError_keep, perNak_keep, perRest_keep, perSent_keep, runAnswer_keep, sealEvent_keep]; done) | with_reducible refine ite_of ?_ ?_ | split)
theorem npSplit_keep (n : Nat) (h : Nat) (e : Nat) (r : SplitResp) (d : Dev) : (npSplit n h e r d).keep = d.keep := by
  unfold npSplit
  try dsimp only
  repeat' (first | (simp only [keep_mk, keep_ite, ite_self, eq_self, implies_true, Dev.modEpBus_keep, nakked_keep, npError_keep, npResponse_keep, npStall_keep, turnOver_keep]; done) | with_reducible refine ite_of ?_ ?_ | split)
theorem splitOut_keep (n : Nat) (h : Nat) (e : Nat) (d : Dev) : (splitOut n h e d).keep = d.keep := by
  unfold splitOut
  try dsimp only
  repeat' (first | (simp only [keep_mk, keep_ite, ite_self, eq_self, implies_true, perEnd_keep, perError_keep]; done) | with_reducible refine ite_of ?_ ?_ | split)
theorem perSplit_keep (n : Nat) (h : Nat) (e : Nat) (r : SplitResp) (d : Dev) : (perSplit n h e r d).keep = d.keep := by
  unfold perSplit
  try dsimp only
  repeat' (first | (simp only [keep_mk, keep_ite, ite_self, eq_self, implies_true, Dev.modEpBus_keep, Dev.modXfer_keep, ackIn_keep, arrivedIn_keep, countNak_keep, endHalting_keep, perData_keep, perError_keep, perNak_keep, perRest_keep, perSent_keep, runAnswer_keep, splitOut_keep]; done) | with_reducible refine ite_of ?_ ?_ | split)
theorem splitAnswer_keep (n : Nat) (h : Nat) (e : Nat) (r : SplitResp) (d : Dev) : (splitAnswer n h e r d).keep = d.keep := by
  unfold splitAnswer
  try dsimp only
  repeat' (first | (simp only [keep_mk, keep_ite, ite_self, eq_self, implies_true, npSplit_keep, perSplit_keep]; done) | with_reducible refine ite_of ?_ ?_ | split)
theorem noResponse_keep (n : Nat) (h : Nat) (e : Nat) (d : Dev) : (noResponse n h e d).keep = d.keep := by
  unfold noResponse
  try dsimp only
  repeat' (first | (simp only [keep_mk, keep_ite, ite_self, eq_self, implies_true, npError_keep, perResponse_keep, splitAnswer_keep]; done) | with_reducible refine ite_of ?_ ?_ | split)
theorem nrdy_keep (n : Nat) (h : Nat) (e : Nat) (d : Dev) : (nrdy n h e d).keep = d.keep := by
  unfold nrdy
  try dsimp only
  repeat' (first | (simp only [keep_mk, keep_ite, ite_self, eq_self, implies_true, Dev.modEpBus_keep, leaveStream_keep, perResponse_keep, perRest_keep, turnOver_keep]; done) | with_reducible refine ite_of ?_ ?_ | split)
theorem strayErdy_keep (p : Nat) (d0 : Dev) : (strayErdy p d0).keep = d0.keep := by
  unfold strayErdy
  try dsimp only
  repeat' (first | (simp only [keep_mk, keep_ite, ite_self, eq_self, implies_true, Dev.modCnt_keep]; done) | with_reducible refine ite_of ?_ ?_ | split)
theorem erdy_keep (p : Nat) (h : Nat) (e : Nat) (st : Nat) (d : Dev) : (erdy p h e st d).keep = d.keep := by
  unfold erdy
  try dsimp only
  repeat' (first | (simp only [keep_mk, keep_ite, ite_self, eq_self, implies_true, Dev.modEp_keep, Dev.modEpBus_keep, Dev.modRing_keep, strayErdy_keep]; done) | with_reducible refine ite_of ?_ ?_ | split)
theorem startOfFrame_keep (p : Nat) (t : Nat) (d : Dev) : (startOfFrame p t d).keep = d.keep := by
  unfold startOfFrame
  try dsimp only
  repeat' (first | (simp only [keep_mk, keep_ite, ite_self, eq_self, implies_true, Dev.modBus_keep, emit_keep]; done) | with_reducible refine ite_of ?_ ?_ | split)
theorem portMicro_keep (p : Nat) (d : Dev) : (portMicro p d).keep = d.keep := by
  unfold portMicro
  try dsimp only
  repeat' (first | (simp only [keep_mk, keep_ite, ite_self, eq_self, implies_true, Dev.modBus_keep, nextPer_keep, perLead_keep, settlePort_keep, startOfFrame_keep, fold_keep]; done) | (with_reducible refine (fold_keep _ _ _ (fun _ _ => ?_)).trans ?_) | (simp only [keep_mk, keep_ite, ite_self, eq_self, implies_true, Dev.modBus_keep, nextPer_keep, perLead_keep, settlePort_keep, startOfFrame_keep, fold_keep]; with_reducible (first | (with_reducible refine (fold_keep _ _ _ (fun _ _ => ?_)).trans ?_))) | with_reducible refine ite_of ?_ ?_ | split)
theorem pullup_keep (p : Nat) (low : Bool) (d : Dev) : (pullup p low d).keep = d.keep := by
  unfold pullup
  try dsimp only
  repeat' (first | (simp only [keep_mk, keep_ite, ite_self, eq_self, implies_true, Dev.modBus_keep, pgWake_keep]; done) | with_reducible refine ite_of ?_ ?_ | split)
theorem debounced_keep (p : Nat) (d : Dev) : (debounced p d).keep = d.keep := by
  unfold debounced
  try dsimp only
  repeat' (first | (simp only [keep_mk, keep_ite, ite_self, eq_self, implies_true, Dev.modBus_keep, portEvent_keep]; done) | with_reducible refine ite_of ?_ ?_ | split)
theorem disconnect2_keep (p : Nat) (d : Dev) : (disconnect2 p d).keep = d.keep := by
  unfold disconnect2
  try dsimp only
  repeat' (first | (simp only [keep_mk, keep_ite, ite_self, eq_self, implies_true, Dev.modBus_keep, cutPortOp_keep, detachHandles_keep, portEvent_keep]; done) | with_reducible refine ite_of ?_ ?_ | split)
theorem resetDriven_keep (p : Nat) (chirped : Bool) (d : Dev) : (resetDriven p chirped d).keep = d.keep := by
  unfold resetDriven
  try dsimp only
  repeat' (first | (simp only [keep_mk, keep_ite, ite_self, eq_self, implies_true, Dev.modBus_keep, portEvent_keep]; done) | with_reducible refine ite_of ?_ ?_ | split)
theorem resumed2_keep (p : Nat) (d : Dev) : (resumed2 p d).keep = d.keep := by
  unfold resumed2
  try dsimp only
  repeat' (first | (simp only [keep_mk, keep_ite, ite_self, eq_self, implies_true, Dev.modBus_keep, opBusDone_keep, portEvent_keep]; done) | with_reducible refine ite_of ?_ ?_ | split)
theorem recovered_keep (p : Nat) (ss : Bool) (d : Dev) : (recovered p ss d).keep = d.keep := by
  unfold recovered
  try dsimp only
  repeat' (first | (simp only [keep_mk, keep_ite, ite_self, eq_self, implies_true, Dev.modBus_keep, opBusDone_keep, portEvent_keep, resumed2_keep, settlePort_keep]; done) | with_reducible refine ite_of ?_ ?_ | split)
theorem driven_keep (p : Nat) (d : Dev) : (driven p d).keep = d.keep := by
  unfold driven
  try dsimp only
  repeat' (first | (simp only [keep_mk, keep_ite, ite_self, eq_self, implies_true, Dev.modBus_keep, emit_keep, opBusDone_keep, portEvent_keep]; done) | with_reducible refine ite_of ?_ ?_ | split)
theorem suspended_keep (p : Nat) (d : Dev) : (suspended p d).keep = d.keep := by
  unfold suspended
  try dsimp only
  repeat' (first | (simp only [keep_mk, keep_ite, ite_self, eq_self, implies_true, Dev.modBus_keep, opBusDone_keep, portEvent_keep]; done) | with_reducible refine ite_of ?_ ?_ | split)
theorem partnerK_keep (p : Nat) (within : Bool) (d : Dev) : (partnerK p within d).keep = d.keep := by
  unfold partnerK
  try dsimp only
  repeat' (first | (simp only [keep_mk, keep_ite, ite_self, eq_self, implies_true, Dev.modBus_keep, emit_keep, pgWake_keep, suspended_keep, wakeBus_keep]; done) | with_reducible refine ite_of ?_ ?_ | split)
theorem lpmDone_keep (p : Nat) (a : LpmAns) (d : Dev) : (lpmDone p a d).keep = d.keep := by
  unfold lpmDone
  try dsimp only
  repeat' (first | (simp only [keep_mk, keep_ite, ite_self, eq_self, implies_true, Dev.modBus_keep, finishPortOp_keep, portEvent_keep]; done) | with_reducible refine ite_of ?_ ?_ | split)
theorem portBabbled_keep (p : Nat) (h : Nat) (e : Nat) (d : Dev) : (portBabbled p h e d).keep = d.keep := by
  unfold portBabbled
  try dsimp only
  repeat' (first | (simp only [keep_mk, keep_ite, ite_self, eq_self, implies_true, Dev.modBus_keep, Dev.modCnt_keep, answered_keep, endHalting_keep, perEnd_keep, portEvent_keep, settlePort_keep, turnOver_keep]; done) | with_reducible refine ite_of ?_ ?_ | split)
theorem terminations_keep (p : Nat) (d : Dev) : (terminations p d).keep = d.keep := by
  unfold terminations
  try dsimp only
  repeat' (first | (simp only [keep_mk, keep_ite, ite_self, eq_self, implies_true, Dev.modBus_keep, pgWake_keep]; done) | with_reducible refine ite_of ?_ ?_ | split)
theorem probe_keep (p : Nat) (d : Dev) : (probe p d).keep = d.keep := by
  unfold probe
  try dsimp only
  repeat' (first | (simp only [keep_mk, keep_ite, ite_self, eq_self, implies_true, Dev.modBus_keep, emit_keep, portEvent_keep]; done) | with_reducible refine ite_of ?_ ?_ | split)
theorem trained_keep (p : Nat) (gen2 : Bool) (d : Dev) : (trained p gen2 d).keep = d.keep := by
  unfold trained
  try dsimp only
  repeat' (first | (simp only [keep_mk, keep_ite, ite_self, eq_self, implies_true, Dev.modBus_keep, portEvent_keep]; done) | with_reducible refine ite_of ?_ ?_ | split)
theorem pollTimeout_keep (p : Nat) (d : Dev) : (pollTimeout p d).keep = d.keep := by
  unfold pollTimeout
  try dsimp only
  repeat' (first | (simp only [keep_mk, keep_ite, ite_self, eq_self, implies_true, Dev.modBus_keep, portEvent_keep]; done) | with_reducible refine ite_of ?_ ?_ | split)
theorem inactive_keep (p : Nat) (u2 : Bool) (d : Dev) : (inactive p u2 d).keep = d.keep := by
  unfold inactive
  try dsimp only
  repeat' (first | (simp only [keep_mk, keep_ite, ite_self, eq_self, implies_true, Dev.modBus_keep, emit_keep]; done) | with_reducible refine ite_of ?_ ?_ | split)
theorem partnerLgoU_keep (p : Nat) (u2 : Bool) (d : Dev) : (partnerLgoU p u2 d).keep = d.keep := by
  unfold partnerLgoU
  try dsimp only
  repeat' (first | (simp only [keep_mk, keep_ite, ite_self, eq_self, implies_true, Dev.modBus_keep, emit_keep]; done) | with_reducible refine ite_of ?_ ?_ | split)
theorem lau_keep (p : Nat) (d : Dev) : (lau p d).keep = d.keep := by
  unfold lau
  try dsimp only
  repeat' (first | (simp only [keep_mk, keep_ite, ite_self, eq_self, implies_true, Dev.modBus_keep, opBusDone_keep, portEvent_keep]; done) | with_reducible refine ite_of ?_ ?_ | split)
theorem u3Timeout_keep (p : Nat) (d : Dev) : (u3Timeout p d).keep = d.keep := by
  unfold u3Timeout
  try dsimp only
  repeat' (first | (simp only [keep_mk, keep_ite, ite_self, eq_self, implies_true, Dev.modBus_keep, opBusDone_keep]; done) | with_reducible refine ite_of ?_ ?_ | split)
theorem u3Exit_keep (p : Nat) (partner : Bool) (d : Dev) : (u3Exit p partner d).keep = d.keep := by
  unfold u3Exit
  try dsimp only
  repeat' (first | (simp only [keep_mk, keep_ite, ite_self, eq_self, implies_true, Dev.modBus_keep, doIf_keep, pgWake_keep]; done) | (with_reducible refine (doIf_keep _ _ _ (fun _ => ?_)).trans ?_) | (simp only [keep_mk, keep_ite, ite_self, eq_self, implies_true, Dev.modBus_keep, doIf_keep, pgWake_keep]; with_reducible (first | (with_reducible refine (doIf_keep _ _ _ (fun _ => ?_)).trans ?_))) | with_reducible refine ite_of ?_ ?_ | split)
theorem ssInactive_keep (p : Nat) (d : Dev) : (ssInactive p d).keep = d.keep := by
  unfold ssInactive
  try dsimp only
  repeat' (first | (simp only [keep_mk, keep_ite, ite_self, eq_self, implies_true, Dev.modBus_keep, cutPortOp_keep, detachHandles_keep, inactive_keep, portEvent_keep]; done) | with_reducible refine ite_of ?_ ?_ | split)
theorem ssRecFailed_keep (p : Nat) (d : Dev) : (ssRecFailed p d).keep = d.keep := by
  unfold ssRecFailed
  try dsimp only
  repeat' (first | (simp only [keep_mk, keep_ite, ite_self, eq_self, implies_true, Dev.modBus_keep, emit_keep, opBusDone_keep, ssInactive_keep]; done) | with_reducible refine ite_of ?_ ?_ | split)
theorem terminationsLost_keep (p : Nat) (d : Dev) : (terminationsLost p d).keep = d.keep := by
  unfold terminationsLost
  try dsimp only
  repeat' (first | (simp only [keep_mk, keep_ite, ite_self, eq_self, implies_true, Dev.modBus_keep, cutPortOp_keep, detachHandles_keep, portEvent_keep]; done) | with_reducible refine ite_of ?_ ?_ | split)
theorem ssResetDone_keep (p : Nat) (gen2 : Bool) (d : Dev) : (ssResetDone p gen2 d).keep = d.keep := by
  unfold ssResetDone
  try dsimp only
  repeat' (first | (simp only [keep_mk, keep_ite, ite_self, eq_self, implies_true, Dev.modBus_keep, portEvent_keep]; done) | with_reducible refine ite_of ?_ ?_ | split)
theorem detachBuses_keep (p : Nat) (cause : Nat) (code : Nat) (extra : Nat) (d : Dev) : (detachBuses p cause code extra d).keep = d.keep := by
  unfold detachBuses
  try dsimp only
  repeat' (first | (simp only [keep_mk, keep_ite, ite_self, eq_self, implies_true, Dev.modBus_keep, detachHandles_keep, finishPortOp_keep, portEvent_keep]; done) | with_reducible refine ite_of ?_ ?_ | split)
theorem openBuses_keep (p : Nat) (d : Dev) : (openBuses p d).keep = d.keep := by
  unfold openBuses
  try dsimp only
  repeat' (first | (simp only [keep_mk, keep_ite, ite_self, eq_self, implies_true, Dev.modBus_keep, doIf_keep, pgWake_keep]; done) | (with_reducible refine (doIf_keep _ _ _ (fun _ => ?_)).trans ?_) | (simp only [keep_mk, keep_ite, ite_self, eq_self, implies_true, Dev.modBus_keep, doIf_keep, pgWake_keep]; with_reducible (first | (with_reducible refine (doIf_keep _ _ _ (fun _ => ?_)).trans ?_))) | with_reducible refine ite_of ?_ ?_ | split)
theorem onPort_keep (op : Nat) (n : Nat) (q : Nat) (i : Dword) (f : Nat → List Dword → Dev → Dev) (d0 : Dev) (hf : ∀ a0 a1 a2, (f a0 a1 a2).keep = a2.keep) : (onPort op n q i f d0).keep = d0.keep := by
  unfold onPort
  try dsimp only
  repeat' (first | (simp only [keep_mk, keep_ite, ite_self, eq_self, implies_true, hf, finishWe_keep, onEntry_keep, pgWake_keep]; done) | (with_reducible refine (onEntry_keep _ _ _ _ _ _ (fun _ _ => ?_)).trans ?_) | (simp only [keep_mk, keep_ite, ite_self, eq_self, implies_true, hf, finishWe_keep, onEntry_keep, pgWake_keep]; with_reducible (first | (with_reducible refine (onEntry_keep _ _ _ _ _ _ (fun _ _ => ?_)).trans ?_))) | with_reducible refine ite_of ?_ ?_ | split)
theorem resetAct_keep (n : Nat) (q : Nat) (i : Dword) (p : Nat) (e : List Dword) (d : Dev) : (resetAct n q i p e d).keep = d.keep := by
  unfold resetAct
  try dsimp only
  repeat' (first | (simp only [keep_mk, keep_ite, ite_self, eq_self, implies_true, Dev.modBus_keep, finishWe_keep, inactive_keep, settlePort_keep, suspended_keep, waitEnt_keep]; done) | with_reducible refine ite_of ?_ ?_ | split)
theorem suspendAct_keep (n : Nat) (q : Nat) (i : Dword) (p : Nat) (e : List Dword) (d : Dev) : (suspendAct n q i p e d).keep = d.keep := by
  unfold suspendAct
  try dsimp only
  repeat' (first | (simp only [keep_mk, keep_ite, ite_self, eq_self, implies_true, Dev.modBus_keep, entered_keep, finishWe_keep, settlePort_keep, waitEnt_keep, wakeBus_keep]; done) | (with_reducible refine (entered_keep _ _ _ _ (fun _ => ?_)).trans ?_) | (simp only [keep_mk, keep_ite, ite_self, eq_self, implies_true, Dev.modBus_keep, entered_keep, finishWe_keep, settlePort_keep, waitEnt_keep, wakeBus_keep]; with_reducible (first | (with_reducible refine (entered_keep _ _ _ _ (fun _ => ?_)).trans ?_))) | with_reducible refine ite_of ?_ ?_ | split)
theorem resumeAct_keep (n : Nat) (q : Nat) (i : Dword) (p : Nat) (_e : List Dword) (d : Dev) : (resumeAct n q i p _e d).keep = d.keep := by
  unfold resumeAct
  try dsimp only
  repeat' (first | (simp only [keep_mk, keep_ite, ite_self, eq_self, implies_true, Dev.modBus_keep, doIf_keep, emit_keep, finishWe_keep, suspended_keep, waitEnt_keep, wakeBus_keep]; done) | (with_reducible refine (doIf_keep _ _ _ (fun _ => ?_)).trans ?_) | (simp only [keep_mk, keep_ite, ite_self, eq_self, implies_true, Dev.modBus_keep, doIf_keep, emit_keep, finishWe_keep, suspended_keep, waitEnt_keep, wakeBus_keep]; with_reducible (first | (with_reducible refine (doIf_keep _ _ _ (fun _ => ?_)).trans ?_))) | with_reducible refine ite_of ?_ ?_ | split)

end Sys2Proof.Machine
end

