-- ==== Sys2Proof/Laws/KeepSlices.lean ====
section
/-! SUPPORT. Which operations leave the dictionary, the host groups, the start, the flash states and the update alone (Dev.keep). -/
namespace Sys2Proof.Machine

set_option linter.unusedSimpArgs false
set_option linter.unreachableTactic false
set_option linter.unusedTactic false

theorem opStart_keep (n : Nat) (p : Path) (op : Nat) (tag : Dword) (d0 : Dev) : (opStart n p op tag d0).keep = d0.keep := by
  unfold opStart
  try dsimp only
  repeat' (first | (simp only [keep_mk, keep_ite, ite_self, eq_self, implies_true, Dev.modSlice_keep]; done) | with_reducible refine ite_of ?_ ?_ | split)
theorem opNow_keep (n : Nat) (code : Nat) (r0 : Nat) (r1 : Nat) (r2 : Nat) (d0 : Dev) : (opNow n code r0 r1 r2 d0).keep = d0.keep := by
  unfold opNow
  try dsimp only
  repeat' (first | (simp only [keep_mk, keep_ite, ite_self, eq_self, implies_true, opEnd_keep]; done) | with_reducible refine ite_of ?_ ?_ | split)
theorem opRefuse_keep (p : Path) (op : Nat) (b : OpBlock) (code : Nat) (reason : Nat) (r1 : Nat) (r2 : Nat) (d : Dev) : (opRefuse p op b code reason r1 r2 d).keep = d.keep := by
  unfold opRefuse
  try dsimp only
  repeat' (first | (simp only [keep_mk, keep_ite, ite_self, eq_self, implies_true, Dev.modSlice_keep, opDone_keep]; done) | with_reducible refine ite_of ?_ ?_ | split)
theorem createOp_keep (p : Path) (b : OpBlock) (d : Dev) : (createOp p b d).keep = d.keep := by
  unfold createOp
  try dsimp only
  repeat' (first | (simp only [keep_mk, keep_ite, ite_self, eq_self, implies_true, Dev.modEng_keep, Dev.modSlice_keep, opDone_keep, setSliceSt_keep]; done) | with_reducible refine ite_of ?_ ?_ | split)
theorem stopAll_keep (n : Nat) (d : Dev) : (stopAll n d).keep = d.keep := by
  unfold stopAll
  try dsimp only
  repeat' (first | (simp only [keep_mk, keep_ite, ite_self, eq_self, implies_true, fold_keep, beginStop_keep]; done) | (with_reducible refine (fold_keep _ _ _ (fun _ _ => ?_)).trans ?_) | (simp only [keep_mk, keep_ite, ite_self, eq_self, implies_true, fold_keep, beginStop_keep]; with_reducible (first | (with_reducible refine (fold_keep _ _ _ (fun _ _ => ?_)).trans ?_))) | with_reducible refine ite_of ?_ ?_ | split)
theorem quiesceOp_keep (p : Path) (b : OpBlock) (d : Dev) : (quiesceOp p b d).keep = d.keep := by
  unfold quiesceOp
  try dsimp only
  repeat' (first | (simp only [keep_mk, keep_ite, ite_self, eq_self, implies_true, Dev.modSlice_keep, opDone_keep, opStart_keep, setSliceSt_keep, stopAll_keep]; done) | with_reducible refine ite_of ?_ ?_ | split)
theorem stopQueues_keep (n : Nat) (d0 : Dev) : (stopQueues n d0).keep = d0.keep := by
  unfold stopQueues
  try dsimp only
  repeat' (first | (simp only [keep_mk, keep_ite, ite_self, eq_self, implies_true, Dev.modSlice_keep]; done) | with_reducible refine ite_of ?_ ?_ | split)
theorem holdRest_keep (n : Nat) (d : Dev) : (holdRest n d).keep = d.keep := by
  unfold holdRest
  try dsimp only
  repeat' (first | (simp only [keep_mk, keep_ite, ite_self, eq_self, implies_true, Dev.modEng_keep, postNow_keep, fold_keep]; done) | (with_reducible refine (fold_keep _ _ _ (fun _ _ => ?_)).trans ?_) | (simp only [keep_mk, keep_ite, ite_self, eq_self, implies_true, Dev.modEng_keep, postNow_keep, fold_keep]; with_reducible (first | (with_reducible refine (fold_keep _ _ _ (fun _ _ => ?_)).trans ?_))) | with_reducible refine ite_of ?_ ?_ | split)
theorem quiesceEnd_keep (n : Nat) (d : Dev) : (quiesceEnd n d).keep = d.keep := by
  unfold quiesceEnd
  try dsimp only
  repeat' (first | (simp only [keep_mk, keep_ite, ite_self, eq_self, implies_true, Dev.modSlice_keep, drainAll_keep, holdRest_keep, opEnd_keep, setSliceSt_keep, stopAll_keep, stopQueues_keep, writeCi_keep, fold_keep]; done) | (with_reducible refine (fold_keep _ _ _ (fun _ _ => ?_)).trans ?_) | (simp only [keep_mk, keep_ite, ite_self, eq_self, implies_true, Dev.modSlice_keep, drainAll_keep, holdRest_keep, opEnd_keep, setSliceSt_keep, stopAll_keep, stopQueues_keep, writeCi_keep, fold_keep]; with_reducible (first | (with_reducible refine (fold_keep _ _ _ (fun _ _ => ?_)).trans ?_))) | with_reducible refine ite_of ?_ ?_ | split)
theorem quiesceTimeout_keep (n : Nat) (engines : Bool) (d : Dev) : (quiesceTimeout n engines d).keep = d.keep := by
  unfold quiesceTimeout
  try dsimp only
  repeat' (first | (simp only [keep_mk, keep_ite, ite_self, eq_self, implies_true, Dev.modSlice_keep, raise_keep, setSliceSt_keep]; done) | with_reducible refine ite_of ?_ ?_ | split)
theorem dropXfers_keep (n : Nat) (d : Dev) : (dropXfers n d).keep = d.keep := by
  unfold dropXfers
  try dsimp only
  repeat' (first | (simp only [keep_mk, keep_ite, ite_self, eq_self, implies_true, freeUnits_keep, releasePages_keep, fold_keep]; done) | (with_reducible refine (fold_keep _ _ _ (fun _ _ => ?_)).trans ?_) | (simp only [keep_mk, keep_ite, ite_self, eq_self, implies_true, freeUnits_keep, releasePages_keep, fold_keep]; with_reducible (first | (with_reducible refine (fold_keep _ _ _ (fun _ _ => ?_)).trans ?_))) | with_reducible refine ite_of ?_ ?_ | split)
theorem fenceSlice_keep (n : Nat) (d : Dev) : (fenceSlice n d).keep = d.keep := by
  unfold fenceSlice
  try dsimp only
  repeat' (first | (simp only [keep_mk, keep_ite, ite_self, eq_self, implies_true, Dev.modEng_keep, Dev.modPort_keep, Dev.modSlice_keep, carves_keep, dropXfers_keep, forEach_keep, opEnd_keep, setSliceSt_keep]; done) | (with_reducible refine (forEach_keep _ _ _ (fun _ _ => ?_)).trans ?_) | (simp only [keep_mk, keep_ite, ite_self, eq_self, implies_true, Dev.modEng_keep, Dev.modPort_keep, Dev.modSlice_keep, carves_keep, dropXfers_keep, forEach_keep, opEnd_keep, setSliceSt_keep]; with_reducible (first | (with_reducible refine (forEach_keep _ _ _ (fun _ _ => ?_)).trans ?_))) | with_reducible refine ite_of ?_ ?_ | split)
theorem fence_keep (ns : List Nat) (who : Option FenceWho) (d : Dev) : (fence ns who d).keep = d.keep := by
  unfold fence
  try dsimp only
  repeat' (first | (simp only [keep_mk, keep_ite, ite_self, eq_self, implies_true, fenceAnswer_keep, fenceCheck_keep, fenceSlice_keep, forEach_keep]; done) | (with_reducible refine (forEach_keep _ _ _ (fun _ _ => ?_)).trans ?_) | (simp only [keep_mk, keep_ite, ite_self, eq_self, implies_true, fenceAnswer_keep, fenceCheck_keep, fenceSlice_keep, forEach_keep]; with_reducible (first | (with_reducible refine (forEach_keep _ _ _ (fun _ _ => ?_)).trans ?_))) | with_reducible refine ite_of ?_ ?_ | split)
theorem fenceOp_keep (p : Path) (b : OpBlock) (d : Dev) : (fenceOp p b d).keep = d.keep := by
  unfold fenceOp
  try dsimp only
  repeat' (first | (simp only [keep_mk, keep_ite, ite_self, eq_self, implies_true, Dev.modSlice_keep, fence_keep, forEach_keep]; done) | (with_reducible refine (forEach_keep _ _ _ (fun _ _ => ?_)).trans ?_) | (simp only [keep_mk, keep_ite, ite_self, eq_self, implies_true, Dev.modSlice_keep, fence_keep, forEach_keep]; with_reducible (first | (with_reducible refine (forEach_keep _ _ _ (fun _ _ => ?_)).trans ?_))) | with_reducible refine ite_of ?_ ?_ | split)
theorem fenceReset_keep (p : Nat) (d : Dev) : (fenceReset p d).keep = d.keep := by
  unfold fenceReset
  try dsimp only
  repeat' (first | (simp only [keep_mk, keep_ite, ite_self, eq_self, implies_true, Dev.modBus_keep, doIf_keep, emit_keep, fencePortDone_keep, portEvent_keep]; done) | (with_reducible refine (doIf_keep _ _ _ (fun _ => ?_)).trans ?_) | (simp only [keep_mk, keep_ite, ite_self, eq_self, implies_true, Dev.modBus_keep, doIf_keep, emit_keep, fencePortDone_keep, portEvent_keep]; with_reducible (first | (with_reducible refine (doIf_keep _ _ _ (fun _ => ?_)).trans ?_))) | with_reducible refine ite_of ?_ ?_ | split)
theorem fenceReq_keep (f : Nat) (v : Dword) (d : Dev) : (fenceReq f v d).keep = d.keep := by
  unfold fenceReq
  try dsimp only
  repeat' (first | (simp only [keep_mk, keep_ite, ite_self, eq_self, implies_true, fence_keep]; done) | with_reducible refine ite_of ?_ ?_ | split)
theorem freezeOp_keep (p : Path) (b : OpBlock) (d : Dev) : (freezeOp p b d).keep = d.keep := by
  unfold freezeOp
  try dsimp only
  repeat' (first | (simp only [keep_mk, keep_ite, ite_self, eq_self, implies_true, fold_keep, freezeCheck_keep, opStart_keep, writeCi_keep, writeCtx_keep, writeHeader_keep]; done) | (with_reducible refine (fold_keep _ _ _ (fun _ _ => ?_)).trans ?_) | (simp only [keep_mk, keep_ite, ite_self, eq_self, implies_true, fold_keep, freezeCheck_keep, opStart_keep, writeCi_keep, writeCtx_keep, writeHeader_keep]; with_reducible (first | (with_reducible refine (fold_keep _ _ _ (fun _ _ => ?_)).trans ?_))) | with_reducible refine ite_of ?_ ?_ | split)
theorem startQueues_keep (n : Nat) (d0 : Dev) : (startQueues n d0).keep = d0.keep := by
  unfold startQueues
  try dsimp only
  repeat' (first | (simp only [keep_mk, keep_ite, ite_self, eq_self, implies_true, Dev.modSlice_keep]; done) | with_reducible refine ite_of ?_ ?_ | split)
theorem thawPorts_keep (n : Nat) (d : Dev) : (thawPorts n d).keep = d.keep := by
  unfold thawPorts
  try dsimp only
  repeat' (first | (simp only [keep_mk, keep_ite, ite_self, eq_self, implies_true, fold_keep, Dev.modEng_keep, Dev.modSlice_keep, portEvent_keep]; done) | (with_reducible refine (fold_keep _ _ _ (fun _ _ => ?_)).trans ?_) | (simp only [keep_mk, keep_ite, ite_self, eq_self, implies_true, fold_keep, Dev.modEng_keep, Dev.modSlice_keep, portEvent_keep]; with_reducible (first | (with_reducible refine (fold_keep _ _ _ (fun _ _ => ?_)).trans ?_))) | with_reducible refine ite_of ?_ ?_ | split)
theorem thawOp_keep (p : Path) (b : OpBlock) (d : Dev) : (thawOp p b d).keep = d.keep := by
  unfold thawOp
  try dsimp only
  repeat' (first | (simp only [keep_mk, keep_ite, ite_self, eq_self, implies_true, fold_keep, Dev.modSlice_keep, drainAll_keep, eventsLast_keep, forEach_keep, opDone_keep, readPi_keep, reissueHalf_keep, releaseVectors_keep, setSliceSt_keep, settleWq_keep, sliceEvent_keep, spaceBack_keep, startQueues_keep, thawPorts_keep, writeHeader_keep]; done) | (with_reducible refine (fold_keep _ _ _ (fun _ _ => ?_)).trans ?_) | (with_reducible refine (forEach_keep _ _ _ (fun _ _ => ?_)).trans ?_) | (simp only [keep_mk, keep_ite, ite_self, eq_self, implies_true, fold_keep, Dev.modSlice_keep, drainAll_keep, eventsLast_keep, forEach_keep, opDone_keep, readPi_keep, reissueHalf_keep, releaseVectors_keep, setSliceSt_keep, settleWq_keep, sliceEvent_keep, spaceBack_keep, startQueues_keep, thawPorts_keep, writeHeader_keep]; with_reducible (first | (with_reducible refine (fold_keep _ _ _ (fun _ _ => ?_)).trans ?_) | (with_reducible refine (forEach_keep _ _ _ (fun _ _ => ?_)).trans ?_))) | with_reducible refine ite_of ?_ ?_ | split)
theorem importOp_keep (p : Path) (b : OpBlock) (image : List Dword) (d : Dev) : (importOp p b image d).keep = d.keep := by
  unfold importOp
  try dsimp only
  repeat' (first | (simp only [keep_mk, keep_ite, ite_self, eq_self, implies_true, Dev.modEng_keep, Dev.modSlice_keep, opDone_keep, opRefuse_keep, setSliceSt_keep]; done) | with_reducible refine ite_of ?_ ?_ | split)
theorem clearSlice_keep (n : Nat) (d : Dev) : (clearSlice n d).keep = d.keep := by
  unfold clearSlice
  try dsimp only
  repeat' (first | (simp only [keep_mk, keep_ite, ite_self, eq_self, implies_true, Dev.modEng_keep, Dev.modPort_keep, Dev.modSlice_keep, dropXfers_keep, forEach_keep, releasePages_keep, washSlot_keep, fold_keep]; done) | (with_reducible refine (forEach_keep _ _ _ (fun _ _ => ?_)).trans ?_) | (with_reducible refine (fold_keep _ _ _ (fun _ _ => ?_)).trans ?_) | (simp only [keep_mk, keep_ite, ite_self, eq_self, implies_true, Dev.modEng_keep, Dev.modPort_keep, Dev.modSlice_keep, dropXfers_keep, forEach_keep, releasePages_keep, washSlot_keep, fold_keep]; with_reducible (first | (with_reducible refine (forEach_keep _ _ _ (fun _ _ => ?_)).trans ?_) | (with_reducible refine (fold_keep _ _ _ (fun _ _ => ?_)).trans ?_))) | with_reducible refine ite_of ?_ ?_ | split)
theorem resetOp_keep (p : Path) (b : OpBlock) (d : Dev) : (resetOp p b d).keep = d.keep := by
  unfold resetOp
  try dsimp only
  repeat' (first | (simp only [keep_mk, keep_ite, ite_self, eq_self, implies_true, clearSlice_keep, opStart_keep, setSliceSt_keep]; done) | with_reducible refine ite_of ?_ ?_ | split)
theorem removeOp_keep (p : Path) (b : OpBlock) (d : Dev) : (removeOp p b d).keep = d.keep := by
  unfold removeOp
  try dsimp only
  repeat' (first | (simp only [keep_mk, keep_ite, ite_self, eq_self, implies_true, clearSlice_keep, opStart_keep, setSliceSt_keep]; done) | with_reducible refine ite_of ?_ ?_ | split)
theorem assignOp_keep (p : Path) (b : OpBlock) (d : Dev) : (assignOp p b d).keep = d.keep := by
  unfold assignOp
  try dsimp only
  repeat' (first | (simp only [keep_mk, keep_ite, ite_self, eq_self, implies_true, Dev.modEng_keep, Dev.modPort_keep, commitGone_keep, detachHandle_keep, forEach_keep, opDone_keep, opRefuse_keep, openBuses_keep]; done) | (with_reducible refine (forEach_keep _ _ _ (fun _ _ => ?_)).trans ?_) | (simp only [keep_mk, keep_ite, ite_self, eq_self, implies_true, Dev.modEng_keep, Dev.modPort_keep, commitGone_keep, detachHandle_keep, forEach_keep, opDone_keep, opRefuse_keep, openBuses_keep]; with_reducible (first | (with_reducible refine (forEach_keep _ _ _ (fun _ _ => ?_)).trans ?_))) | with_reducible refine ite_of ?_ ?_ | split)
theorem blockRefuse_keep (p : Path) (op : Nat) (b : OpBlock) (reason : Nat) (d : Dev) : (blockRefuse p op b reason d).keep = d.keep := by
  unfold blockRefuse
  try dsimp only
  repeat' (first | (simp only [keep_mk, keep_ite, ite_self, eq_self, implies_true, refuse_keep]; done) | with_reducible refine ite_of ?_ ?_ | split)
theorem renewSlice_keep (n : Nat) (d : Dev) : (renewSlice n d).keep = d.keep := by
  unfold renewSlice
  try dsimp only
  repeat' (first | (simp only [keep_mk, keep_ite, ite_self, eq_self, implies_true, fold_keep, Dev.modPal_keep]; done) | (with_reducible refine (fold_keep _ _ _ (fun _ _ => ?_)).trans ?_) | (simp only [keep_mk, keep_ite, ite_self, eq_self, implies_true, fold_keep, Dev.modPal_keep]; with_reducible (first | (with_reducible refine (fold_keep _ _ _ (fun _ _ => ?_)).trans ?_))) | with_reducible refine ite_of ?_ ?_ | split)
theorem renewReserve_keep (d : Dev) : (renewReserve d).keep = d.keep := by
  unfold renewReserve
  try dsimp only
  repeat' (first | (simp only [keep_mk, keep_ite, ite_self, eq_self, implies_true, Dev.modHalf_keep, forEach_keep]; done) | (with_reducible refine (forEach_keep _ _ _ (fun _ _ => ?_)).trans ?_) | (simp only [keep_mk, keep_ite, ite_self, eq_self, implies_true, Dev.modHalf_keep, forEach_keep]; with_reducible (first | (with_reducible refine (forEach_keep _ _ _ (fun _ _ => ?_)).trans ?_))) | with_reducible refine ite_of ?_ ?_ | split)
theorem palPeriod_keep (d : Dev) : (palPeriod d).keep = d.keep := by
  unfold palPeriod
  try dsimp only
  repeat' (first | (simp only [keep_mk, keep_ite, ite_self, eq_self, implies_true, forEach_keep, renewReserve_keep, renewSlice_keep]; done) | (with_reducible refine (forEach_keep _ _ _ (fun _ _ => ?_)).trans ?_) | (simp only [keep_mk, keep_ite, ite_self, eq_self, implies_true, forEach_keep, renewReserve_keep, renewSlice_keep]; with_reducible (first | (with_reducible refine (forEach_keep _ _ _ (fun _ _ => ?_)).trans ?_))) | with_reducible refine ite_of ?_ ?_ | split)
theorem grant_keep (a : Arbiter) (r : ArbReq) (d : Dev) : (grant a r d).keep = d.keep := by
  unfold grant
  try dsimp only
  repeat' (first | (simp only [keep_mk, keep_ite, ite_self, eq_self, implies_true, fold_keep, Dev.modHalf_keep, Dev.modPal_keep]; done) | (with_reducible refine (fold_keep _ _ _ (fun _ _ => ?_)).trans ?_) | (simp only [keep_mk, keep_ite, ite_self, eq_self, implies_true, fold_keep, Dev.modHalf_keep, Dev.modPal_keep]; with_reducible (first | (with_reducible refine (fold_keep _ _ _ (fun _ _ => ?_)).trans ?_))) | with_reducible refine ite_of ?_ ?_ | split)
theorem lend_keep (a : Arbiter) (r : ArbReq) (d : Dev) : (lend a r d).keep = d.keep := by
  unfold lend
  try dsimp only
  repeat' (first | (simp only [keep_mk, keep_ite, ite_self, eq_self, implies_true, fold_keep, Dev.modHalf_keep, Dev.modPal_keep]; done) | (with_reducible refine (fold_keep _ _ _ (fun _ _ => ?_)).trans ?_) | (simp only [keep_mk, keep_ite, ite_self, eq_self, implies_true, fold_keep, Dev.modHalf_keep, Dev.modPal_keep]; with_reducible (first | (with_reducible refine (fold_keep _ _ _ (fun _ _ => ?_)).trans ?_))) | with_reducible refine ite_of ?_ ?_ | split)
theorem askCredit_keep (a : Arbiter) (rs : List ArbReq) (d : Dev) : (askCredit a rs d).keep = d.keep := by
  unfold askCredit
  try dsimp only
  repeat' (first | (simp only [keep_mk, keep_ite, ite_self, eq_self, implies_true, doIf_keep, emit_keep, fold_keep]; done) | (with_reducible refine (doIf_keep _ _ _ (fun _ => ?_)).trans ?_) | (with_reducible refine (fold_keep _ _ _ (fun _ _ => ?_)).trans ?_) | (simp only [keep_mk, keep_ite, ite_self, eq_self, implies_true, doIf_keep, emit_keep, fold_keep]; with_reducible (first | (with_reducible refine (doIf_keep _ _ _ (fun _ => ?_)).trans ?_) | (with_reducible refine (fold_keep _ _ _ (fun _ _ => ?_)).trans ?_))) | with_reducible refine ite_of ?_ ?_ | split)
theorem arbTurn_keep (a : Arbiter) (rs0 : List ArbReq) (d0 : Dev) : (arbTurn a rs0 d0).keep = d0.keep := by
  unfold arbTurn
  try dsimp only
  repeat' (first | (simp only [keep_mk, keep_ite, ite_self, eq_self, implies_true, askCredit_keep, grant_keep, lend_keep]; done) | with_reducible refine ite_of ?_ ?_ | split)
theorem mirrored_keep (n : Nat) (d : Dev) : (mirrored n d).keep = d.keep := by
  unfold mirrored
  try dsimp only
  repeat' (first | (simp only [keep_mk, keep_ite, ite_self, eq_self, implies_true]; done) | with_reducible refine ite_of ?_ ?_ | split)
theorem tellMirror_keep (n : Nat) (d : Dev) : (tellMirror n d).keep = d.keep := by
  unfold tellMirror
  try dsimp only
  repeat' (first | (simp only [keep_mk, keep_ite, ite_self, eq_self, implies_true, emit_keep, mirrored_keep]; done) | with_reducible refine ite_of ?_ ?_ | split)
theorem repath_keep (g : Dev → Dev) (d : Dev) (hg : ∀ a0, (g a0).keep = a0.keep) : (repath g d).keep = d.keep := by
  unfold repath
  try dsimp only
  repeat' (first | (simp only [keep_mk, keep_ite, ite_self, eq_self, implies_true, hg, doIf_keep, pathBack_keep, pathChanged_keep, tellMirror_keep, fold_keep]; done) | (with_reducible refine (doIf_keep _ _ _ (fun _ => ?_)).trans ?_) | (with_reducible refine (fold_keep _ _ _ (fun _ _ => ?_)).trans ?_) | (simp only [keep_mk, keep_ite, ite_self, eq_self, implies_true, hg, doIf_keep, pathBack_keep, pathChanged_keep, tellMirror_keep, fold_keep]; with_reducible (first | (with_reducible refine (doIf_keep _ _ _ (fun _ => ?_)).trans ?_) | (with_reducible refine (fold_keep _ _ _ (fun _ _ => ?_)).trans ?_))) | with_reducible refine ite_of ?_ ?_ | split)
theorem unmaskVec_keep (f : Nat) (n : Nat) (v : Nat) (d : Dev) : (unmaskVec f n v d).keep = d.keep := by
  unfold unmaskVec
  try dsimp only
  repeat' (first | (simp only [keep_mk, keep_ite, ite_self, eq_self, implies_true, Dev.modSlice_keep, releaseVectors_keep]; done) | with_reducible refine ite_of ?_ ?_ | split)
theorem releaseOwn_keep (f : Nat) (d : Dev) : (releaseOwn f d).keep = d.keep := by
  unfold releaseOwn
  try dsimp only
  repeat' (first | (simp only [keep_mk, keep_ite, ite_self, eq_self, implies_true, fold_keep, Dev.modFunc_keep, fnMessage_keep]; done) | (with_reducible refine (fold_keep _ _ _ (fun _ _ => ?_)).trans ?_) | (simp only [keep_mk, keep_ite, ite_self, eq_self, implies_true, fold_keep, Dev.modFunc_keep, fnMessage_keep]; with_reducible (first | (with_reducible refine (fold_keep _ _ _ (fun _ _ => ?_)).trans ?_))) | with_reducible refine ite_of ?_ ?_ | split)
theorem setMsix_keep (f : Nat) (en : Bool) (mask : Bool) (d : Dev) : (setMsix f en mask d).keep = d.keep := by
  unfold setMsix
  try dsimp only
  repeat' (first | (simp only [keep_mk, keep_ite, ite_self, eq_self, implies_true, Dev.modFunc_keep, forEach_keep, releaseOwn_keep, releaseVectors_keep]; done) | (with_reducible refine (forEach_keep _ _ _ (fun _ _ => ?_)).trans ?_) | (simp only [keep_mk, keep_ite, ite_self, eq_self, implies_true, Dev.modFunc_keep, forEach_keep, releaseOwn_keep, releaseVectors_keep]; with_reducible (first | (with_reducible refine (forEach_keep _ _ _ (fun _ _ => ?_)).trans ?_))) | with_reducible refine ite_of ?_ ?_ | split)
theorem linkUp_keep (f : Nat) (d : Dev) : (linkUp f d).keep = d.keep := by
  unfold linkUp
  try dsimp only
  repeat' (first | (simp only [keep_mk, keep_ite, ite_self, eq_self, implies_true, Dev.modEng_keep, Dev.modFunc_keep, forEach_keep, repath_keep]; done) | (with_reducible refine (forEach_keep _ _ _ (fun _ _ => ?_)).trans ?_) | (with_reducible refine (repath_keep _ _ (fun _ => ?_)).trans ?_) | (simp only [keep_mk, keep_ite, ite_self, eq_self, implies_true, Dev.modEng_keep, Dev.modFunc_keep, forEach_keep, repath_keep]; with_reducible (first | (with_reducible refine (forEach_keep _ _ _ (fun _ _ => ?_)).trans ?_) | (with_reducible refine (repath_keep _ _ (fun _ => ?_)).trans ?_))) | with_reducible refine ite_of ?_ ?_ | split)
theorem badAccess_keep (f : Nat) (bar : Nat) (off : Nat) (size : Nat) (write : Bool) (d : Dev) : (badAccess f bar off size write d).keep = d.keep := by
  unfold badAccess
  try dsimp only
  repeat' (first | (simp only [keep_mk, keep_ite, ite_self, eq_self, implies_true, dbIgnored_keep, emit_keep, raise_keep]; done) | with_reducible refine ite_of ?_ ?_ | split)
theorem sinopiaLost_keep (d : Dev) : (sinopiaLost d).keep = d.keep := by
  unfold sinopiaLost
  try dsimp only
  repeat' (first | (simp only [keep_mk, keep_ite, ite_self, eq_self, implies_true, forEach_keep, loseFor_keep, raise_keep]; done) | (with_reducible refine (forEach_keep _ _ _ (fun _ _ => ?_)).trans ?_) | (simp only [keep_mk, keep_ite, ite_self, eq_self, implies_true, forEach_keep, loseFor_keep, raise_keep]; with_reducible (first | (with_reducible refine (forEach_keep _ _ _ (fun _ _ => ?_)).trans ?_))) | with_reducible refine ite_of ?_ ?_ | split)
theorem retrain_keep (d : Dev) : (retrain d).keep = d.keep := by
  unfold retrain
  try dsimp only
  repeat' (first | (simp only [keep_mk, keep_ite, ite_self, eq_self, implies_true, emit_keep]; done) | with_reducible refine ite_of ?_ ?_ | split)
theorem sinopiaUp_keep (d : Dev) : (sinopiaUp d).keep = d.keep := by
  unfold sinopiaUp
  try dsimp only
  repeat' (first | (simp only [keep_mk, keep_ite, ite_self, eq_self, implies_true, emit_keep, forEach_keep, raise_keep, repath_keep, tellMirror_keep]; done) | (with_reducible refine (forEach_keep _ _ _ (fun _ _ => ?_)).trans ?_) | (with_reducible refine (repath_keep _ _ (fun _ => ?_)).trans ?_) | (simp only [keep_mk, keep_ite, ite_self, eq_self, implies_true, emit_keep, forEach_keep, raise_keep, repath_keep, tellMirror_keep]; with_reducible (first | (with_reducible refine (forEach_keep _ _ _ (fun _ _ => ?_)).trans ?_) | (with_reducible refine (repath_keep _ _ (fun _ => ?_)).trans ?_))) | with_reducible refine ite_of ?_ ?_ | split)
theorem sync_keep (ns : BitVec 16) (d : Dev) : (sync ns d).keep = d.keep := by
  unfold sync
  try dsimp only
  repeat' (first | (simp only [keep_mk, keep_ite, ite_self, eq_self, implies_true, Dev.modHalf_keep, forEach_keep, raise_keep]; done) | (with_reducible refine (forEach_keep _ _ _ (fun _ _ => ?_)).trans ?_) | (simp only [keep_mk, keep_ite, ite_self, eq_self, implies_true, Dev.modHalf_keep, forEach_keep, raise_keep]; with_reducible (first | (with_reducible refine (forEach_keep _ _ _ (fun _ _ => ?_)).trans ?_))) | with_reducible refine ite_of ?_ ?_ | split)
theorem dataMsg_keep (dst : Nat) (m : DataMsg) (d : Dev) : (dataMsg dst m d).keep = d.keep := by
  unfold dataMsg
  try dsimp only
  repeat' (first | (simp only [keep_mk, keep_ite, ite_self, eq_self, implies_true, sendWrite_keep, takeIn_keep]; done) | with_reducible refine ite_of ?_ ?_ | split)
theorem laneRetire_keep (src : Nat) (d : Dev) : (laneRetire src d).keep = d.keep := by
  unfold laneRetire
  try dsimp only
  repeat' (first | (simp only [keep_mk, keep_ite, ite_self, eq_self, implies_true, raise_keep, sinopiaLost_keep]; done) | with_reducible refine ite_of ?_ ?_ | split)

end Sys2Proof.Machine
end

