-- ==== Sys2Proof/Laws/KeepPower.lean ====
section
/-! SUPPORT. Which operations leave the dictionary, the host groups, the start, the flash states and the update alone (Dev.keep). -/
namespace Sys2Proof.Machine

set_option linter.unusedSimpArgs false
set_option linter.unreachableTactic false
set_option linter.unusedTactic false

theorem pslSend_keep (g : Nat) (f : Dword) (d : Dev) : (pslSend g f d).keep = d.keep := by
  unfold pslSend
  try dsimp only
  repeat' (first | (simp only [keep_mk, keep_ite, ite_self, eq_self, implies_true, Dev.modPg_keep, emit_keep]; done) | with_reducible refine ite_of ?_ ?_ | split)
theorem pslNext_keep (g : Nat) (d : Dev) : (pslNext g d).keep = d.keep := by
  unfold pslNext
  try dsimp only
  repeat' (first | (simp only [keep_mk, keep_ite, ite_self, eq_self, implies_true, Dev.modPg_keep, emit_keep]; done) | with_reducible refine ite_of ?_ ?_ | split)
theorem stageCmd_keep (p : Nat) (cmd : Nat) (arg : Nat) (d : Dev) : (stageCmd p cmd arg d).keep = d.keep := by
  unfold stageCmd
  try dsimp only
  repeat' (first | (simp only [keep_mk, keep_ite, ite_self, eq_self, implies_true, pslSend_keep]; done) | with_reducible refine ite_of ?_ ?_ | split)
theorem stageOff_keep (p : Nat) (d : Dev) : (stageOff p d).keep = d.keep := by
  unfold stageOff
  try dsimp only
  repeat' (first | (simp only [keep_mk, keep_ite, ite_self, eq_self, implies_true, Dev.modStage_keep, Dev.modTc_keep, stageCmd_keep]; done) | with_reducible refine ite_of ?_ ?_ | split)
theorem stageVconn_keep (p : Nat) (cc : Nat) (d : Dev) : (stageVconn p cc d).keep = d.keep := by
  unfold stageVconn
  try dsimp only
  repeat' (first | (simp only [keep_mk, keep_ite, ite_self, eq_self, implies_true, Dev.modStage_keep, stageCmd_keep]; done) | with_reducible refine ite_of ?_ ?_ | split)
theorem stageVoltage_keep (p : Nat) (mv : Nat) (d : Dev) : (stageVoltage p mv d).keep = d.keep := by
  unfold stageVoltage
  try dsimp only
  repeat' (first | (simp only [keep_mk, keep_ite, ite_self, eq_self, implies_true, Dev.modStage_keep, stageCmd_keep]; done) | with_reducible refine ite_of ?_ ?_ | split)
theorem stageLimit_keep (p : Nat) (ma : Nat) (d : Dev) : (stageLimit p ma d).keep = d.keep := by
  unfold stageLimit
  try dsimp only
  repeat' (first | (simp only [keep_mk, keep_ite, ite_self, eq_self, implies_true, Dev.modStage_keep, stageCmd_keep]; done) | with_reducible refine ite_of ?_ ?_ | split)
theorem stageSource_keep (p : Nat) (mv : Nat) (ma : Nat) (d : Dev) : (stageSource p mv ma d).keep = d.keep := by
  unfold stageSource
  try dsimp only
  repeat' (first | (simp only [keep_mk, keep_ite, ite_self, eq_self, implies_true, Dev.modStage_keep, stageCmd_keep, stageLimit_keep, stageVoltage_keep]; done) | with_reducible refine ite_of ?_ ?_ | split)
theorem stageSink_keep (p : Nat) (d : Dev) : (stageSink p d).keep = d.keep := by
  unfold stageSink
  try dsimp only
  repeat' (first | (simp only [keep_mk, keep_ite, ite_self, eq_self, implies_true, Dev.modStage_keep, stageCmd_keep]; done) | with_reducible refine ite_of ?_ ?_ | split)
theorem finishPd_keep (p : Nat) (code : Nat) (detail : Nat) (d : Dev) : (finishPd p code detail d).keep = d.keep := by
  unfold finishPd
  try dsimp only
  repeat' (first | (simp only [keep_mk, keep_ite, ite_self, eq_self, implies_true, Dev.modSeq_keep, finishWe_keep]; done) | with_reducible refine ite_of ?_ ?_ | split)
theorem voidContract_keep (p : Nat) (d0 : Dev) : (voidContract p d0).keep = d0.keep := by
  unfold voidContract
  try dsimp only
  repeat' (first | (simp only [keep_mk, keep_ite, ite_self, eq_self, implies_true, Dev.modPd_keep]; done) | with_reducible refine ite_of ?_ ?_ | split)
theorem tcGo_keep (p : Nat) (st : TcSt) (d0 : Dev) : (tcGo p st d0).keep = d0.keep := by
  unfold tcGo
  try dsimp only
  repeat' (first | (simp only [keep_mk, keep_ite, ite_self, eq_self, implies_true, Dev.modTc_keep, debounced_keep]; done) | with_reducible refine ite_of ?_ ?_ | split)
theorem reachSafe0V_keep (p : Nat) (d : Dev) : (reachSafe0V p d).keep = d.keep := by
  unfold reachSafe0V
  try dsimp only
  repeat' (first | (simp only [keep_mk, keep_ite, ite_self, eq_self, implies_true, Dev.modTc_keep, tcGo_keep]; done) | with_reducible refine ite_of ?_ ?_ | split)
theorem endAttach_keep (p : Nat) (cause : Nat) (code : Nat) (dest : TcSt) (d : Dev) : (endAttach p cause code dest d).keep = d.keep := by
  unfold endAttach
  try dsimp only
  repeat' (first | (simp only [keep_mk, keep_ite, ite_self, eq_self, implies_true, Dev.modPort_keep, debounced_keep, detachBuses_keep, finishPd_keep, reachSafe0V_keep, stageOff_keep, stageVconn_keep]; done) | with_reducible refine ite_of ?_ ?_ | split)
theorem tcDetach_keep (p : Nat) (d : Dev) : (tcDetach p d).keep = d.keep := by
  unfold tcDetach
  try dsimp only
  repeat' (first | (simp only [keep_mk, keep_ite, ite_self, eq_self, implies_true, Dev.modPd_keep, endAttach_keep, raise_keep]; done) | with_reducible refine ite_of ?_ ?_ | split)
theorem errorRecovery_keep (p : Nat) (d : Dev) : (errorRecovery p d).keep = d.keep := by
  unfold errorRecovery
  try dsimp only
  repeat' (first | (simp only [keep_mk, keep_ite, ite_self, eq_self, implies_true, endAttach_keep]; done) | with_reducible refine ite_of ?_ ?_ | split)
theorem enterSrc_keep (p : Nat) (d : Dev) : (enterSrc p d).keep = d.keep := by
  unfold enterSrc
  try dsimp only
  repeat' (first | (simp only [keep_mk, keep_ite, ite_self, eq_self, implies_true, Dev.modPd_keep, Dev.modPort_keep, stageSource_keep, stageVconn_keep, tcGo_keep]; done) | with_reducible refine ite_of ?_ ?_ | split)
theorem enterSnk_keep (p : Nat) (d : Dev) : (enterSnk p d).keep = d.keep := by
  unfold enterSnk
  try dsimp only
  repeat' (first | (simp only [keep_mk, keep_ite, ite_self, eq_self, implies_true, Dev.modPort_keep, portEvent_keep, stageSink_keep, tcGo_keep]; done) | with_reducible refine ite_of ?_ ?_ | split)
theorem enterAccessory_keep (p : Nat) (st : TcSt) (d : Dev) : (enterAccessory p st d).keep = d.keep := by
  unfold enterAccessory
  try dsimp only
  repeat' (first | (simp only [keep_mk, keep_ite, ite_self, eq_self, implies_true, Dev.modTc_keep, portEvent_keep, stageSource_keep, tcGo_keep]; done) | with_reducible refine ite_of ?_ ?_ | split)
theorem tcHeld_keep (p : Nat) (d : Dev) : (tcHeld p d).keep = d.keep := by
  unfold tcHeld
  try dsimp only
  repeat' (first | (simp only [keep_mk, keep_ite, ite_self, eq_self, implies_true, enterAccessory_keep, enterSnk_keep, enterSrc_keep, tcGo_keep]; done) | with_reducible refine ite_of ?_ ?_ | split)
theorem tcNow_keep (p : Nat) (d : Dev) : (tcNow p d).keep = d.keep := by
  unfold tcNow
  try dsimp only
  repeat' (first | (simp only [keep_mk, keep_ite, ite_self, eq_self, implies_true, tcGo_keep]; done) | with_reducible refine ite_of ?_ ?_ | split)
theorem tryArm_keep (p : Nat) (d : Dev) : (tryArm p d).keep = d.keep := by
  unfold tryArm
  try dsimp only
  repeat' (first | (simp only [keep_mk, keep_ite, ite_self, eq_self, implies_true, finishPortOp_keep, tcGo_keep, tcNow_keep]; done) | with_reducible refine ite_of ?_ ?_ | split)
theorem tcDisable_keep (p : Nat) (cause : Nat) (code : Nat) (d : Dev) : (tcDisable p cause code d).keep = d.keep := by
  unfold tcDisable
  try dsimp only
  repeat' (first | (simp only [keep_mk, keep_ite, ite_self, eq_self, implies_true, endAttach_keep]; done) | with_reducible refine ite_of ?_ ?_ | split)
theorem allocate_keep (d : Dev) : (allocate d).keep = d.keep := by
  unfold allocate
  extract_lets
  refine (fold1_keep _ _ _ (fun t p => ?_)).trans ?_
  · dsimp only
    split
    · rfl
    · exact Dev.modStage_keep ..
  · refine (forEach_keep _ _ _ (fun _ _ => Dev.modPort_keep ..)).trans ?_
    refine Eq.trans (b := Dev.keep _) rfl (ite_of ((raise_keep _ _).trans ?_) ?_)
    all_goals exact forEach_keep _ _ _ (fun _ _ => Dev.modStage_keep ..)
theorem reallocate_keep (d : Dev) : (reallocate d).keep = d.keep := by
  unfold reallocate
  try dsimp only
  repeat' (first | (simp only [keep_mk, keep_ite, ite_self, eq_self, implies_true, allocate_keep]; done) | with_reducible refine ite_of ?_ ?_ | split)
theorem pdTx_keep (p : Nat) (so : Sop) (m : PdMsg) (d : Dev) : (pdTx p so m d).keep = d.keep := by
  unfold pdTx
  try dsimp only
  repeat' (first | (simp only [keep_mk, keep_ite, ite_self, eq_self, implies_true, Dev.modPd_keep, Dev.modSeq_keep, emit_keep]; done) | with_reducible refine ite_of ?_ ?_ | split)
theorem pdNext_keep (p : Nat) (d : Dev) : (pdNext p d).keep = d.keep := by
  unfold pdNext
  try dsimp only
  repeat' (first | (simp only [keep_mk, keep_ite, ite_self, eq_self, implies_true, Dev.modSeq_keep, pdTx_keep]; done) | with_reducible refine ite_of ?_ ?_ | split)
theorem pdSend_keep (p : Nat) (m : PdMsg) (d : Dev) : (pdSend p m d).keep = d.keep := by
  unfold pdSend
  try dsimp only
  repeat' (first | (simp only [keep_mk, keep_ite, ite_self, eq_self, implies_true, Dev.modPd_keep, Dev.modSeq_keep, answer_keep, pdTx_keep]; done) | with_reducible refine ite_of ?_ ?_ | split)
theorem pdBegin_keep (p : Nat) (m : PdMsg) (d : Dev) : (pdBegin p m d).keep = d.keep := by
  unfold pdBegin
  try dsimp only
  repeat' (first | (simp only [keep_mk, keep_ite, ite_self, eq_self, implies_true, Dev.modPd_keep, Dev.modSeq_keep, pdSend_keep]; done) | with_reducible refine ite_of ?_ ?_ | split)
theorem hardReset_keep (p : Nat) (sent : Bool) (d : Dev) : (hardReset p sent d).keep = d.keep := by
  unfold hardReset
  try dsimp only
  repeat' (first | (simp only [keep_mk, keep_ite, ite_self, eq_self, implies_true, Dev.modPort_keep, doIf_keep, emit_keep, errorRecovery_keep, finishPd_keep, portEvent_keep, raise_keep, voidContract_keep]; done) | (with_reducible refine (doIf_keep _ _ _ (fun _ => ?_)).trans ?_) | (simp only [keep_mk, keep_ite, ite_self, eq_self, implies_true, Dev.modPort_keep, doIf_keep, emit_keep, errorRecovery_keep, finishPd_keep, portEvent_keep, raise_keep, voidContract_keep]; with_reducible (first | (with_reducible refine (doIf_keep _ _ _ (fun _ => ?_)).trans ?_))) | with_reducible refine ite_of ?_ ?_ | split)
theorem hardResetDone_keep (p : Nat) (d : Dev) : (hardResetDone p d).keep = d.keep := by
  unfold hardResetDone
  try dsimp only
  repeat' (first | (simp only [keep_mk, keep_ite, ite_self, eq_self, implies_true, Dev.modPort_keep, finishPd_keep]; done) | with_reducible refine ite_of ?_ ?_ | split)
theorem contractSet_keep (p : Nat) (d : Dev) : (contractSet p d).keep = d.keep := by
  unfold contractSet
  try dsimp only
  repeat' (first | (simp only [keep_mk, keep_ite, ite_self, eq_self, implies_true, Dev.modPort_keep, portEvent_keep, stageLimit_keep]; done) | with_reducible refine ite_of ?_ ?_ | split)
theorem acceptSent_keep (p : Nat) (d : Dev) : (acceptSent p d).keep = d.keep := by
  unfold acceptSent
  try dsimp only
  repeat' (first | (simp only [keep_mk, keep_ite, ite_self, eq_self, implies_true, Dev.modSeq_keep, pdTx_keep]; done) | with_reducible refine ite_of ?_ ?_ | split)
theorem swapStart_keep (p : Nat) (d0 : Dev) : (swapStart p d0).keep = d0.keep := by
  unfold swapStart
  try dsimp only
  repeat' (first | (simp only [keep_mk, keep_ite, ite_self, eq_self, implies_true, Dev.modPort_keep, voidContract_keep]; done) | with_reducible refine ite_of ?_ ?_ | split)
theorem swapDone_keep (p : Nat) (toSink : Bool) (d : Dev) : (swapDone p toSink d).keep = d.keep := by
  unfold swapDone
  try dsimp only
  repeat' (first | (simp only [keep_mk, keep_ite, ite_self, eq_self, implies_true, Dev.modPort_keep, finishPd_keep, portEvent_keep, stageSink_keep]; done) | with_reducible refine ite_of ?_ ?_ | split)
theorem swapAtZero_keep (p : Nat) (d : Dev) : (swapAtZero p d).keep = d.keep := by
  unfold swapAtZero
  try dsimp only
  repeat' (first | (simp only [keep_mk, keep_ite, ite_self, eq_self, implies_true, Dev.modSeq_keep, pdTx_keep]; done) | with_reducible refine ite_of ?_ ?_ | split)
theorem pdSent_keep (p : Nat) (so : Sop) (m : PdMsg) (d : Dev) : (pdSent p so m d).keep = d.keep := by
  unfold pdSent
  try dsimp only
  repeat' (first | (simp only [keep_mk, keep_ite, ite_self, eq_self, implies_true, Dev.modPd_keep, Dev.modSeq_keep, accept_keep, acceptSent_keep, contractSet_keep, finishPd_keep, pdTx_keep, stageVconn_keep, swapDone_keep, swapStart_keep]; done) | with_reducible refine ite_of ?_ ?_ | split)
theorem askIdentity_keep (p : Nat) (d : Dev) : (askIdentity p d).keep = d.keep := by
  unfold askIdentity
  try dsimp only
  repeat' (first | (simp only [keep_mk, keep_ite, ite_self, eq_self, implies_true, Dev.modPd_keep, pdTx_keep]; done) | with_reducible refine ite_of ?_ ?_ | split)
theorem firstCaps_keep (p : Nat) (d : Dev) : (firstCaps p d).keep = d.keep := by
  unfold firstCaps
  try dsimp only
  repeat' (first | (simp only [keep_mk, keep_ite, ite_self, eq_self, implies_true, askIdentity_keep, pdSend_keep]; done) | with_reducible refine ite_of ?_ ?_ | split)
theorem reqBegin_keep (p : Nat) (r : PdReq) (d : Dev) : (reqBegin p r d).keep = d.keep := by
  unfold reqBegin
  try dsimp only
  repeat' (first | (simp only [keep_mk, keep_ite, ite_self, eq_self, implies_true, Dev.modPd_keep, Dev.modSeq_keep, finishPd_keep, hardReset_keep, pdBegin_keep]; done) | with_reducible refine ite_of ?_ ?_ | split)
theorem pdIdle_keep (p : Nat) (d : Dev) : (pdIdle p d).keep = d.keep := by
  unfold pdIdle
  try dsimp only
  repeat' (first | (simp only [keep_mk, keep_ite, ite_self, eq_self, implies_true, Dev.modPd_keep, Dev.modPort_keep, firstCaps_keep, pdBegin_keep, reqBegin_keep]; done) | with_reducible refine ite_of ?_ ?_ | split)
theorem capsAgain_keep (p : Nat) (d : Dev) : (capsAgain p d).keep = d.keep := by
  unfold capsAgain
  try dsimp only
  repeat' (first | (simp only [keep_mk, keep_ite, ite_self, eq_self, implies_true, Dev.modPd_keep, pdSend_keep]; done) | with_reducible refine ite_of ?_ ?_ | split)
theorem cableIs_keep (p : Nat) (fiveA : Bool) (fiftyV : Bool) (epr : Bool) (active : Bool) (d : Dev) : (cableIs p fiveA fiftyV epr active d).keep = d.keep := by
  unfold cableIs
  try dsimp only
  repeat' (first | (simp only [keep_mk, keep_ite, ite_self, eq_self, implies_true, Dev.modPd_keep, doIf_keep, firstCaps_keep, pdTx_keep]; done) | (with_reducible refine (doIf_keep _ _ _ (fun _ => ?_)).trans ?_) | (simp only [keep_mk, keep_ite, ite_self, eq_self, implies_true, Dev.modPd_keep, doIf_keep, firstCaps_keep, pdTx_keep]; with_reducible (first | (with_reducible refine (doIf_keep _ _ _ (fun _ => ?_)).trans ?_))) | with_reducible refine ite_of ?_ ?_ | split)
theorem superseded_keep (p : Nat) (d : Dev) : (superseded p d).keep = d.keep := by
  unfold superseded
  try dsimp only
  repeat' (first | (simp only [keep_mk, keep_ite, ite_self, eq_self, implies_true, Dev.modSeq_keep, finishPd_keep]; done) | with_reducible refine ite_of ?_ ?_ | split)
theorem prSwapIn_keep (p : Nat) (d : Dev) : (prSwapIn p d).keep = d.keep := by
  unfold prSwapIn
  try dsimp only
  repeat' (first | (simp only [keep_mk, keep_ite, ite_self, eq_self, implies_true, Dev.modSeq_keep, accept_keep, pdTx_keep, superseded_keep]; done) | with_reducible refine ite_of ?_ ?_ | split)
theorem vconnSwapIn_keep (p : Nat) (d : Dev) : (vconnSwapIn p d).keep = d.keep := by
  unfold vconnSwapIn
  try dsimp only
  repeat' (first | (simp only [keep_mk, keep_ite, ite_self, eq_self, implies_true, Dev.modSeq_keep, accept_keep, pdTx_keep]; done) | with_reducible refine ite_of ?_ ?_ | split)
theorem requestIn_keep (p : Nat) (r : Rdo) (d : Dev) : (requestIn p r d).keep = d.keep := by
  unfold requestIn
  try dsimp only
  repeat' (first | (simp only [keep_mk, keep_ite, ite_self, eq_self, implies_true, Dev.modSeq_keep, accept_keep, pdTx_keep]; done) | with_reducible refine ite_of ?_ ?_ | split)
theorem capsIn_keep (p : Nat) (l : List Pdo) (d : Dev) : (capsIn p l d).keep = d.keep := by
  unfold capsIn
  try dsimp only
  repeat' (first | (simp only [keep_mk, keep_ite, ite_self, eq_self, implies_true, Dev.modPd_keep, Dev.modSeq_keep, pdSend_keep, pdTx_keep]; done) | with_reducible refine ite_of ?_ ?_ | split)
theorem acceptIn_keep (p : Nat) (d : Dev) : (acceptIn p d).keep = d.keep := by
  unfold acceptIn
  try dsimp only
  repeat' (first | (simp only [keep_mk, keep_ite, ite_self, eq_self, implies_true, Dev.modSeq_keep, answer_keep, swapStart_keep]; done) | with_reducible refine ite_of ?_ ?_ | split)
theorem psRdyIn_keep (p : Nat) (d : Dev) : (psRdyIn p d).keep = d.keep := by
  unfold psRdyIn
  try dsimp only
  repeat' (first | (simp only [keep_mk, keep_ite, ite_self, eq_self, implies_true, Dev.modPd_keep, Dev.modPort_keep, Dev.modSeq_keep, contractSet_keep, finishPd_keep, stageCmd_keep, stageSource_keep, stageVconn_keep, swapDone_keep]; done) | with_reducible refine ite_of ?_ ?_ | split)
theorem refusedIn_keep (p : Nat) (detail : Nat) (d : Dev) : (refusedIn p detail d).keep = d.keep := by
  unfold refusedIn
  try dsimp only
  repeat' (first | (simp only [keep_mk, keep_ite, ite_self, eq_self, implies_true, Dev.modSeq_keep, answer_keep, finishPd_keep, hardReset_keep]; done) | with_reducible refine ite_of ?_ ?_ | split)
theorem eprEnterIn_keep (p : Nat) (d : Dev) : (eprEnterIn p d).keep = d.keep := by
  unfold eprEnterIn
  try dsimp only
  repeat' (first | (simp only [keep_mk, keep_ite, ite_self, eq_self, implies_true, Dev.modPd_keep, pdSend_keep, pdTx_keep]; done) | with_reducible refine ite_of ?_ ?_ | split)
theorem extAnswer_keep (p : Nat) (m : PdMsg) (d : Dev) : (extAnswer p m d).keep = d.keep := by
  unfold extAnswer
  try dsimp only
  repeat' (first | (simp only [keep_mk, keep_ite, ite_self, eq_self, implies_true, pdTx_keep]; done) | with_reducible refine ite_of ?_ ?_ | split)
theorem policyIn_keep (p : Nat) (m : PdMsg) (d : Dev) : (policyIn p m d).keep = d.keep := by
  unfold policyIn
  try dsimp only
  repeat' (first | (simp only [keep_mk, keep_ite, ite_self, eq_self, implies_true, Dev.modPd_keep, Dev.modSeq_keep, accept_keep, acceptIn_keep, capsIn_keep, eprEnterIn_keep, extAnswer_keep, pdBegin_keep, pdSend_keep, pdTx_keep, prSwapIn_keep, psRdyIn_keep, putRecord_keep, raise_keep, refusedIn_keep, requestIn_keep, vconnSwapIn_keep]; done) | with_reducible refine ite_of ?_ ?_ | split)
theorem ppeAnswer_keep (p : Nat) (m : PdMsg) (d : Dev) : (ppeAnswer p m d).keep = d.keep := by
  unfold ppeAnswer
  try dsimp only
  repeat' (first | (simp only [keep_mk, keep_ite, ite_self, eq_self, implies_true, accept_keep, pdTx_keep]; done) | with_reducible refine ite_of ?_ ?_ | split)
theorem softResetIn_keep (p : Nat) (so : Sop) (d : Dev) : (softResetIn p so d).keep = d.keep := by
  unfold softResetIn
  try dsimp only
  repeat' (first | (simp only [keep_mk, keep_ite, ite_self, eq_self, implies_true, Dev.modPd_keep, Dev.modSeq_keep, accept_keep, finishPd_keep, pdTx_keep]; done) | with_reducible refine ite_of ?_ ?_ | split)
theorem policyBack_keep (p : Nat) (d : Dev) : (policyBack p d).keep = d.keep := by
  unfold policyBack
  try dsimp only
  repeat' (first | (simp only [keep_mk, keep_ite, ite_self, eq_self, implies_true, fold_keep, Dev.modSeq_keep, policyIn_keep]; done) | (with_reducible refine (fold_keep _ _ _ (fun _ _ => ?_)).trans ?_) | (simp only [keep_mk, keep_ite, ite_self, eq_self, implies_true, fold_keep, Dev.modSeq_keep, policyIn_keep]; with_reducible (first | (with_reducible refine (fold_keep _ _ _ (fun _ _ => ?_)).trans ?_))) | with_reducible refine ite_of ?_ ?_ | split)
theorem settlePd_keep (d : Dev) : (settlePd d).keep = d.keep := by
  unfold settlePd
  try dsimp only
  repeat' (first | (simp only [keep_mk, keep_ite, ite_self, eq_self, implies_true, forEach_keep, pdIdle_keep, policyBack_keep, reallocate_keep]; done) | (with_reducible refine (forEach_keep _ _ _ (fun _ _ => ?_)).trans ?_) | (simp only [keep_mk, keep_ite, ite_self, eq_self, implies_true, forEach_keep, pdIdle_keep, policyBack_keep, reallocate_keep]; with_reducible (first | (with_reducible refine (forEach_keep _ _ _ (fun _ _ => ?_)).trans ?_))) | with_reducible refine ite_of ?_ ?_ | split)
theorem cancelWait_keep (p : Nat) (m : PdMsg) (d : Dev) : (cancelWait p m d).keep = d.keep := by
  unfold cancelWait
  try dsimp only
  repeat' (first | (simp only [keep_mk, keep_ite, ite_self, eq_self, implies_true, Dev.modSeq_keep]; done) | with_reducible refine ite_of ?_ ?_ | split)
theorem bistIn_keep (p : Nat) (carrier : Bool) (d : Dev) : (bistIn p carrier d).keep = d.keep := by
  unfold bistIn
  try dsimp only
  repeat' (first | (simp only [keep_mk, keep_ite, ite_self, eq_self, implies_true, emit_keep]; done) | with_reducible refine ite_of ?_ ?_ | split)
theorem messageIn_keep (p : Nat) (so : Sop) (rev3 : Bool) (id : Nat) (m : PdMsg) (d : Dev) : (messageIn p so rev3 id m d).keep = d.keep := by
  unfold messageIn
  try dsimp only
  repeat' (first | (simp only [keep_mk, keep_ite, ite_self, eq_self, implies_true, Dev.modEasel_keep, Dev.modPd_keep, Dev.modSeq_keep, bistIn_keep, cableIs_keep, cancelWait_keep, doIf_keep, emit_keep, pdTx_keep, policyIn_keep, softResetIn_keep]; done) | (with_reducible refine (doIf_keep _ _ _ (fun _ => ?_)).trans ?_) | (simp only [keep_mk, keep_ite, ite_self, eq_self, implies_true, Dev.modEasel_keep, Dev.modPd_keep, Dev.modSeq_keep, bistIn_keep, cableIs_keep, cancelWait_keep, doIf_keep, emit_keep, pdTx_keep, policyIn_keep, softResetIn_keep]; with_reducible (first | (with_reducible refine (doIf_keep _ _ _ (fun _ => ?_)).trans ?_))) | with_reducible refine ite_of ?_ ?_ | split)
theorem ccChanged_keep (p : Nat) (a : CcTerm) (b : CcTerm) (d : Dev) : (ccChanged p a b d).keep = d.keep := by
  unfold ccChanged
  try dsimp only
  repeat' (first | (simp only [keep_mk, keep_ite, ite_self, eq_self, implies_true, Dev.modSeq_keep, Dev.modTc_keep, debounced_keep, pdSend_keep, tcNow_keep]; done) | with_reducible refine ite_of ?_ ?_ | split)
theorem toggle_keep (p : Nat) (d : Dev) : (toggle p d).keep = d.keep := by
  unfold toggle
  try dsimp only
  repeat' (first | (simp only [keep_mk, keep_ite, ite_self, eq_self, implies_true, tcGo_keep, tcNow_keep]; done) | with_reducible refine ite_of ?_ ?_ | split)
theorem openHeld_keep (p : Nat) (d : Dev) : (openHeld p d).keep = d.keep := by
  unfold openHeld
  try dsimp only
  repeat' (first | (simp only [keep_mk, keep_ite, ite_self, eq_self, implies_true, endAttach_keep, tcDetach_keep, tcGo_keep]; done) | with_reducible refine ite_of ?_ ?_ | split)
theorem tryHeld_keep (p : Nat) (d : Dev) : (tryHeld p d).keep = d.keep := by
  unfold tryHeld
  try dsimp only
  repeat' (first | (simp only [keep_mk, keep_ite, ite_self, eq_self, implies_true, Dev.modTc_keep, debounced_keep, enterSrc_keep, tcGo_keep, tcHeld_keep]; done) | with_reducible refine ite_of ?_ ?_ | split)
theorem drpTry_keep (p : Nat) (d : Dev) : (drpTry p d).keep = d.keep := by
  unfold drpTry
  try dsimp only
  repeat' (first | (simp only [keep_mk, keep_ite, ite_self, eq_self, implies_true, Dev.modTc_keep, tcGo_keep]; done) | with_reducible refine ite_of ?_ ?_ | split)
theorem safe5V_keep (p : Nat) (d : Dev) : (safe5V p d).keep = d.keep := by
  unfold safe5V
  try dsimp only
  repeat' (first | (simp only [keep_mk, keep_ite, ite_self, eq_self, implies_true, Dev.modTc_keep, askIdentity_keep, openBuses_keep]; done) | with_reducible refine ite_of ?_ ?_ | split)
theorem vbusLow_keep (p : Nat) (d : Dev) : (vbusLow p d).keep = d.keep := by
  unfold vbusLow
  try dsimp only
  repeat' (first | (simp only [keep_mk, keep_ite, ite_self, eq_self, implies_true, Dev.modTc_keep, reachSafe0V_keep, stageCmd_keep, tryArm_keep]; done) | with_reducible refine ite_of ?_ ?_ | split)
theorem vbusDetach_keep (p : Nat) (top : Bool) (d : Dev) : (vbusDetach p top d).keep = d.keep := by
  unfold vbusDetach
  try dsimp only
  repeat' (first | (simp only [keep_mk, keep_ite, ite_self, eq_self, implies_true, Dev.modTc_keep, tcDetach_keep]; done) | with_reducible refine ite_of ?_ ?_ | split)
theorem vbusStep_keep (p : Nat) (d : Dev) : (vbusStep p d).keep = d.keep := by
  unfold vbusStep
  try dsimp only
  repeat' (first | (simp only [keep_mk, keep_ite, ite_self, eq_self, implies_true, Dev.modSeq_keep, pdSend_keep, pdTx_keep, safe5V_keep, swapAtZero_keep]; done) | with_reducible refine ite_of ?_ ?_ | split)
theorem vsns_keep (p : Nat) (code : BitVec 12) (d : Dev) : (vsns p code d).keep = d.keep := by
  unfold vsns
  try dsimp only
  repeat' (first | (simp only [keep_mk, keep_ite, ite_self, eq_self, implies_true, Dev.modTc_keep, tcHeld_keep, vbusDetach_keep, vbusLow_keep, vbusStep_keep]; done) | with_reducible refine ite_of ?_ ?_ | split)
theorem goodCrcIn_keep (p : Nat) (so : Sop) (id : Nat) (d : Dev) : (goodCrcIn p so id d).keep = d.keep := by
  unfold goodCrcIn
  try dsimp only
  repeat' (first | (simp only [keep_mk, keep_ite, ite_self, eq_self, implies_true, pdNext_keep, pdSent_keep]; done) | with_reducible refine ite_of ?_ ?_ | split)
theorem noGoodCrc_keep (p : Nat) (so : Sop) (d : Dev) : (noGoodCrc p so d).keep = d.keep := by
  unfold noGoodCrc
  try dsimp only
  repeat' (first | (simp only [keep_mk, keep_ite, ite_self, eq_self, implies_true, Dev.modPd_keep, Dev.modSeq_keep, emit_keep, pdNext_keep]; done) | with_reducible refine ite_of ?_ ?_ | split)
theorem noAnswerIn_keep (p : Nat) (d : Dev) : (noAnswerIn p d).keep = d.keep := by
  unfold noAnswerIn
  try dsimp only
  repeat' (first | (simp only [keep_mk, keep_ite, ite_self, eq_self, implies_true, Dev.modSeq_keep, answer_keep, finishPd_keep, hardReset_keep]; done) | with_reducible refine ite_of ?_ ?_ | split)
theorem srcTransition_keep (p : Nat) (d : Dev) : (srcTransition p d).keep = d.keep := by
  unfold srcTransition
  try dsimp only
  repeat' (first | (simp only [keep_mk, keep_ite, ite_self, eq_self, implies_true, Dev.modSeq_keep, stageOff_keep, stageVoltage_keep, swapAtZero_keep]; done) | with_reducible refine ite_of ?_ ?_ | split)
theorem swapTimeout_keep (p : Nat) (at_ : SwapSt) (d : Dev) : (swapTimeout p at_ d).keep = d.keep := by
  unfold swapTimeout
  try dsimp only
  repeat' (first | (simp only [keep_mk, keep_ite, ite_self, eq_self, implies_true, errorRecovery_keep]; done) | with_reducible refine ite_of ?_ ?_ | split)
theorem identityTimeout_keep (p : Nat) (d : Dev) : (identityTimeout p d).keep = d.keep := by
  unfold identityTimeout
  try dsimp only
  repeat' (first | (simp only [keep_mk, keep_ite, ite_self, eq_self, implies_true, Dev.modPd_keep, askIdentity_keep, firstCaps_keep]; done) | with_reducible refine ite_of ?_ ?_ | split)
theorem ppeReset_keep (p : Nat) (d : Dev) : (ppeReset p d).keep = d.keep := by
  unfold ppeReset
  try dsimp only
  repeat' (first | (simp only [keep_mk, keep_ite, ite_self, eq_self, implies_true, Dev.modPort_keep, detachBuses_keep, finishPd_keep, outageStart_keep, raise_keep]; done) | with_reducible refine ite_of ?_ ?_ | split)
theorem ppeRestarted_keep (p : Nat) (ok : Bool) (d : Dev) : (ppeRestarted p ok d).keep = d.keep := by
  unfold ppeRestarted
  try dsimp only
  repeat' (first | (simp only [keep_mk, keep_ite, ite_self, eq_self, implies_true, Dev.modPort_keep, Dev.modTc_keep, doIf_keep, openBuses_keep, outageEnd_keep, pdBegin_keep, raise_keep, tcDetach_keep, tcDisable_keep, tryArm_keep]; done) | (with_reducible refine (doIf_keep _ _ _ (fun _ => ?_)).trans ?_) | (simp only [keep_mk, keep_ite, ite_self, eq_self, implies_true, Dev.modPort_keep, Dev.modTc_keep, doIf_keep, openBuses_keep, outageEnd_keep, pdBegin_keep, raise_keep, tcDetach_keep, tcDisable_keep, tryArm_keep]; with_reducible (first | (with_reducible refine (doIf_keep _ _ _ (fun _ => ?_)).trans ?_))) | with_reducible refine ite_of ?_ ?_ | split)
theorem cycleAct_keep (n : Nat) (q : Nat) (i : Dword) (p : Nat) (e : List Dword) (d : Dev) : (cycleAct n q i p e d).keep = d.keep := by
  unfold cycleAct
  try dsimp only
  repeat' (first | (simp only [keep_mk, keep_ite, ite_self, eq_self, implies_true, Dev.modPort_keep, finishWe_keep, tcDisable_keep, waitEnt_keep]; done) | with_reducible refine ite_of ?_ ?_ | split)
theorem pdAct_keep (n : Nat) (q : Nat) (i : Dword) (e : List Dword) (d : Dev) : (pdAct n q i e d).keep = d.keep := by
  unfold pdAct
  try dsimp only
  repeat' (first | (simp only [keep_mk, keep_ite, ite_self, eq_self, implies_true, Dev.modPd_keep, Dev.modSeq_keep, finishWe_keep, waitEnt_keep]; done) | with_reducible refine ite_of ?_ ?_ | split)
theorem roleReq_keep (p : Nat) (v : Nat) (d : Dev) : (roleReq p v d).keep = d.keep := by
  unfold roleReq
  try dsimp only
  repeat' (first | (simp only [keep_mk, keep_ite, ite_self, eq_self, implies_true, Dev.modSeq_keep]; done) | with_reducible refine ite_of ?_ ?_ | split)
theorem pollGroup_keep (g : Nat) (d : Dev) : (pollGroup g d).keep = d.keep := by
  unfold pollGroup
  try dsimp only
  repeat' (first | (simp only [keep_mk, keep_ite, ite_self, eq_self, implies_true, Dev.modPg_keep, forEach_keep, pslSend_keep]; done) | (with_reducible refine (forEach_keep _ _ _ (fun _ _ => ?_)).trans ?_) | (simp only [keep_mk, keep_ite, ite_self, eq_self, implies_true, Dev.modPg_keep, forEach_keep, pslSend_keep]; with_reducible (first | (with_reducible refine (forEach_keep _ _ _ (fun _ _ => ?_)).trans ?_))) | with_reducible refine ite_of ?_ ?_ | split)
theorem stageFault_keep (p : Nat) (flags : Nat) (lost : Bool) (d : Dev) : (stageFault p flags lost d).keep = d.keep := by
  unfold stageFault
  try dsimp only
  repeat' (first | (simp only [keep_mk, keep_ite, ite_self, eq_self, implies_true, Dev.modStage_keep, Dev.modTc_keep, raise_keep, stageCmd_keep, stageOff_keep, tcDisable_keep]; done) | with_reducible refine ite_of ?_ ?_ | split)
theorem pslAnswer_keep (g : Nat) (k : Nat) (fr : Option Dword) (d : Dev) : (pslAnswer g k fr d).keep = d.keep := by
  unfold pslAnswer
  try dsimp only
  repeat' (first | (simp only [keep_mk, keep_ite, ite_self, eq_self, implies_true, Dev.modPg_keep, Dev.modPort_keep, Dev.modStage_keep, emit_keep, pslNext_keep, stageFault_keep]; done) | with_reducible refine ite_of ?_ ?_ | split)
theorem faultClear_keep (g : Nat) (mask : Nat) (d : Dev) : (faultClear g mask d).keep = d.keep := by
  unfold faultClear
  try dsimp only
  repeat' (first | (simp only [keep_mk, keep_ite, ite_self, eq_self, implies_true, Dev.modTc_keep, forEach_keep, tryArm_keep]; done) | (with_reducible refine (forEach_keep _ _ _ (fun _ _ => ?_)).trans ?_) | (simp only [keep_mk, keep_ite, ite_self, eq_self, implies_true, Dev.modTc_keep, forEach_keep, tryArm_keep]; with_reducible (first | (with_reducible refine (forEach_keep _ _ _ (fun _ _ => ?_)).trans ?_))) | with_reducible refine ite_of ?_ ?_ | split)
theorem disablePorts_keep (g : Nat) (cause : Nat) (code : Nat) (d : Dev) : (disablePorts g cause code d).keep = d.keep := by
  unfold disablePorts
  try dsimp only
  repeat' (first | (simp only [keep_mk, keep_ite, ite_self, eq_self, implies_true, Dev.modPort_keep, forEach_keep, tcDisable_keep]; done) | (with_reducible refine (forEach_keep _ _ _ (fun _ _ => ?_)).trans ?_) | (simp only [keep_mk, keep_ite, ite_self, eq_self, implies_true, Dev.modPort_keep, forEach_keep, tcDisable_keep]; with_reducible (first | (with_reducible refine (forEach_keep _ _ _ (fun _ _ => ?_)).trans ?_))) | with_reducible refine ite_of ?_ ?_ | split)
theorem driveStop_keep (g : Nat) (d : Dev) : (driveStop g d).keep = d.keep := by
  unfold driveStop
  try dsimp only
  repeat' (first | (simp only [keep_mk, keep_ite, ite_self, eq_self, implies_true, Dev.modPg_keep, disablePorts_keep, emit_keep, forEach_keep, tryArm_keep]; done) | (with_reducible refine (forEach_keep _ _ _ (fun _ _ => ?_)).trans ?_) | (simp only [keep_mk, keep_ite, ite_self, eq_self, implies_true, Dev.modPg_keep, disablePorts_keep, emit_keep, forEach_keep, tryArm_keep]; with_reducible (first | (with_reducible refine (forEach_keep _ _ _ (fun _ _ => ?_)).trans ?_))) | with_reducible refine ite_of ?_ ?_ | split)
theorem forceSafe_keep (low : Bool) (d : Dev) : (forceSafe low d).keep = d.keep := by
  unfold forceSafe
  try dsimp only
  repeat' (first | (simp only [keep_mk, keep_ite, ite_self, eq_self, implies_true, driveStop_keep, forEach_keep, raise_keep]; done) | (with_reducible refine (forEach_keep _ _ _ (fun _ _ => ?_)).trans ?_) | (simp only [keep_mk, keep_ite, ite_self, eq_self, implies_true, driveStop_keep, forEach_keep, raise_keep]; with_reducible (first | (with_reducible refine (forEach_keep _ _ _ (fun _ _ => ?_)).trans ?_))) | with_reducible refine ite_of ?_ ?_ | split)
theorem groupOn_keep (g : Nat) (st : Nat) (d : Dev) : (groupOn g st d).keep = d.keep := by
  unfold groupOn
  try dsimp only
  repeat' (first | (simp only [keep_mk, keep_ite, ite_self, eq_self, implies_true, Dev.modPg_keep, forEach_keep, tryArm_keep]; done) | (with_reducible refine (forEach_keep _ _ _ (fun _ _ => ?_)).trans ?_) | (simp only [keep_mk, keep_ite, ite_self, eq_self, implies_true, Dev.modPg_keep, forEach_keep, tryArm_keep]; with_reducible (first | (with_reducible refine (forEach_keep _ _ _ (fun _ _ => ?_)).trans ?_))) | with_reducible refine ite_of ?_ ?_ | split)
theorem groupOff_keep (g : Nat) (d : Dev) : (groupOff g d).keep = d.keep := by
  unfold groupOff
  try dsimp only
  repeat' (first | (simp only [keep_mk, keep_ite, ite_self, eq_self, implies_true, Dev.modPg_keep, emit_keep, forEach_keep, tcDisable_keep]; done) | (with_reducible refine (forEach_keep _ _ _ (fun _ _ => ?_)).trans ?_) | (simp only [keep_mk, keep_ite, ite_self, eq_self, implies_true, Dev.modPg_keep, emit_keep, forEach_keep, tcDisable_keep]; with_reducible (first | (with_reducible refine (forEach_keep _ _ _ (fun _ _ => ?_)).trans ?_))) | with_reducible refine ite_of ?_ ?_ | split)
theorem drainEnd_keep (g : Nat) (d : Dev) : (drainEnd g d).keep = d.keep := by
  unfold drainEnd
  try dsimp only
  repeat' (first | (simp only [keep_mk, keep_ite, ite_self, eq_self, implies_true, Dev.modPg_keep, accept_keep, groupOff_keep]; done) | with_reducible refine ite_of ?_ ?_ | split)


end Sys2Proof.Machine
end

