-- ==== Sys2Proof/Laws/KeepMore.lean ====
section
/-! SUPPORT. Which operations leave the dictionary, the host groups, the start, the flash states and the update alone (Dev.keep). -/
namespace Sys2Proof.Machine

set_option linter.unusedSimpArgs false
set_option linter.unreachableTactic false
set_option linter.unusedTactic false

theorem giveTask_keep (h : Nat) (i : Nat) (d : Dev) : (giveTask h i d).keep = d.keep := by
  unfold giveTask
  try dsimp only
  repeat' (first | (simp only [keep_mk, keep_ite, ite_self, eq_self, implies_true, Dev.modCore_keep, Dev.modEasel_keep, emit_keep]; done) | with_reducible refine ite_of ?_ ?_ | split)
theorem giveTasks_keep (h : Nat) (d : Dev) : (giveTasks h d).keep = d.keep := by
  unfold giveTasks
  try dsimp only
  repeat' (first | (simp only [keep_mk, keep_ite, ite_self, eq_self, implies_true, forEach_keep, giveTask_keep]; done) | (with_reducible refine (forEach_keep _ _ _ (fun _ _ => ?_)).trans ?_) | (simp only [keep_mk, keep_ite, ite_self, eq_self, implies_true, forEach_keep, giveTask_keep]; with_reducible (first | (with_reducible refine (forEach_keep _ _ _ (fun _ _ => ?_)).trans ?_))) | with_reducible refine ite_of ?_ ?_ | split)
theorem take_keep (c : Nat) (d : Dev) : (take c d).keep = d.keep := by
  unfold take
  try dsimp only
  repeat' (first | (simp only [keep_mk, keep_ite, ite_self, eq_self, implies_true, Dev.modCore_keep, giveTasks_keep]; done) | with_reducible refine ite_of ?_ ?_ | split)
theorem addTask_keep (h : Nat) (w : List Dword) (d : Dev) : (addTask h w d).2.keep = d.keep := by
  unfold addTask
  try dsimp only
  repeat' (first | (simp only [keep_mk, keep_ite, ite_self, eq_self, implies_true, Dev.modEasel_keep, giveTasks_keep]; done) | with_reducible refine ite_of ?_ ?_ | split)
theorem post357_keep (c : Nat) (w : List Dword) (d : Dev) : (post357 c w d).2.2.keep = d.keep := by
  unfold post357
  try dsimp only
  repeat' (first | (simp only [keep_mk, keep_ite, ite_self, eq_self, implies_true, addTask_keep]; done) | with_reducible refine ite_of ?_ ?_ | split)
theorem postTask_keep (c : Nat) (w : List Dword) (d : Dev) : (postTask c w d).keep = d.keep := by
  unfold postTask
  try dsimp only
  repeat' (first | (simp only [keep_mk, keep_ite, ite_self, eq_self, implies_true, emit_keep, post357_keep]; done) | with_reducible refine ite_of ?_ ?_ | split)
theorem endTask_keep (c : Nat) (cycles : Nat) (d : Dev) : (endTask c cycles d).keep = d.keep := by
  unfold endTask
  try dsimp only
  repeat' (first | (simp only [keep_mk, keep_ite, ite_self, eq_self, implies_true, Dev.modCore_keep, Dev.modPal_keep, giveTasks_keep]; done) | with_reducible refine ite_of ?_ ?_ | split)
theorem yieldTask_keep (c : Nat) (cycles : Nat) (w : List Dword) (d : Dev) : (yieldTask c cycles w d).keep = d.keep := by
  unfold yieldTask
  try dsimp only
  repeat' (first | (simp only [keep_mk, keep_ite, ite_self, eq_self, implies_true, endTask_keep, post357_keep]; done) | with_reducible refine ite_of ?_ ?_ | split)
theorem cancelTask_keep (c : Nat) (hd : Dword) (d : Dev) : (cancelTask c hd d).keep = d.keep := by
  unfold cancelTask
  try dsimp only
  repeat' (first | (simp only [keep_mk, keep_ite, ite_self, eq_self, implies_true, Dev.modEasel_keep, emit_keep]; done) | with_reducible refine ite_of ?_ ?_ | split)
theorem easelTick_keep (h : Nat) (d : Dev) : (easelTick h d).keep = d.keep := by
  unfold easelTick
  try dsimp only
  repeat' (first | (simp only [keep_mk, keep_ite, ite_self, eq_self, implies_true, Dev.modEasel_keep, giveTasks_keep]; done) | with_reducible refine ite_of ?_ ?_ | split)
theorem discardTask_keep (t : Task) (d : Dev) : (discardTask t d).keep = d.keep := by
  unfold discardTask
  try dsimp only
  repeat' (first | (simp only [keep_mk, keep_ite, ite_self, eq_self, implies_true, finishPd_keep]; done) | with_reducible refine ite_of ?_ ?_ | split)
theorem requeue_keep (c : Nat) (d : Dev) : (requeue c d).keep = d.keep := by
  unfold requeue
  try dsimp only
  repeat' (first | (simp only [keep_mk, keep_ite, ite_self, eq_self, implies_true, Dev.modCore_keep, Dev.modEasel_keep, discardTask_keep]; done) | with_reducible refine ite_of ?_ ?_ | split)
theorem builderEvent_keep (c : Nat) (v : Dword) (d : Dev) : (builderEvent c v d).keep = d.keep := by
  unfold builderEvent
  try dsimp only
  repeat' (first | (simp only [keep_mk, keep_ite, ite_self, eq_self, implies_true, raise_keep]; done) | with_reducible refine ite_of ?_ ?_ | split)
theorem sampleNode_keep (d : Dev) : (sampleNode d).keep = d.keep := by
  unfold sampleNode
  try dsimp only
  repeat' (first | (simp only [keep_mk, keep_ite, ite_self, eq_self, implies_true, raise_keep]; done) | with_reducible refine ite_of ?_ ?_ | split)
theorem stopGroups_keep (gs : List Nat) (d : Dev) : (stopGroups gs d).keep = d.keep := by
  unfold stopGroups
  try dsimp only
  repeat' (first | (simp only [keep_mk, keep_ite, ite_self, eq_self, implies_true, Dev.modPg_keep, emit_keep, forEach_keep]; done) | (with_reducible refine (forEach_keep _ _ _ (fun _ _ => ?_)).trans ?_) | (simp only [keep_mk, keep_ite, ite_self, eq_self, implies_true, Dev.modPg_keep, emit_keep, forEach_keep]; with_reducible (first | (with_reducible refine (forEach_keep _ _ _ (fun _ _ => ?_)).trans ?_))) | with_reducible refine ite_of ?_ ?_ | split)
theorem addRecord_keep (result : Nat) (us : Dword) (fallback : Bool) (sChanged : Bool) (cal : Bool) (subst : Nat) (d : Dev) : (addRecord result us fallback sChanged cal subst d).keep = d.keep := by
  unfold addRecord
  try dsimp only
  repeat' (first | (simp only [keep_mk, keep_ite, ite_self, eq_self, implies_true, take_keep]; done) | with_reducible refine ite_of ?_ ?_ | split)
theorem restartPort_keep (p : Nat) (d : Dev) : (restartPort p d).keep = d.keep := by
  unfold restartPort
  try dsimp only
  repeat' (first | (simp only [keep_mk, keep_ite, ite_self, eq_self, implies_true, Dev.modPort_keep, doIf_keep, emit_keep, inactive_keep]; done) | (with_reducible refine (doIf_keep _ _ _ (fun _ => ?_)).trans ?_) | (simp only [keep_mk, keep_ite, ite_self, eq_self, implies_true, Dev.modPort_keep, doIf_keep, emit_keep, inactive_keep]; with_reducible (first | (with_reducible refine (doIf_keep _ _ _ (fun _ => ?_)).trans ?_))) | with_reducible refine ite_of ?_ ?_ | split)
theorem countOutage_keep (trig : Nat) (d : Dev) : (countOutage trig d).keep = d.keep := by
  unfold countOutage
  try dsimp only
  repeat' (first | (simp only [keep_mk, keep_ite, ite_self, eq_self, implies_true, forEach_keep, outageStart_keep]; done) | (with_reducible refine (forEach_keep _ _ _ (fun _ _ => ?_)).trans ?_) | (simp only [keep_mk, keep_ite, ite_self, eq_self, implies_true, forEach_keep, outageStart_keep]; with_reducible (first | (with_reducible refine (forEach_keep _ _ _ (fun _ _ => ?_)).trans ?_))) | with_reducible refine ite_of ?_ ?_ | split)
theorem tellRestart_keep (n : Nat) (d : Dev) : (tellRestart n d).keep = d.keep := by
  unfold tellRestart
  try dsimp only
  repeat' (first | (simp only [keep_mk, keep_ite, ite_self, eq_self, implies_true, Dev.modEng_keep, drainCq_keep, forEach_keep, portEvent_keep, sliceEvent_keep]; done) | (with_reducible refine (forEach_keep _ _ _ (fun _ _ => ?_)).trans ?_) | (simp only [keep_mk, keep_ite, ite_self, eq_self, implies_true, Dev.modEng_keep, drainCq_keep, forEach_keep, portEvent_keep, sliceEvent_keep]; with_reducible (first | (with_reducible refine (forEach_keep _ _ _ (fun _ _ => ?_)).trans ?_))) | with_reducible refine ite_of ?_ ?_ | split)
theorem discardSlices_keep (d : Dev) : (discardSlices d).keep = d.keep := by
  unfold discardSlices
  try dsimp only
  repeat' (first | (simp only [keep_mk, keep_ite, ite_self, eq_self, implies_true]; done) | with_reducible refine ite_of ?_ ?_ | split)
theorem coldPorts_keep (idents : List (PortId × BitVec 16)) (d : Dev) : (coldPorts idents d).keep = d.keep := by
  unfold coldPorts
  try dsimp only
  repeat' (first | (simp only [keep_mk, keep_ite, ite_self, eq_self, implies_true, fold_keep, Dev.modStage_keep, driveStop_keep, forEach_keep]; done) | (with_reducible refine (fold_keep _ _ _ (fun _ _ => ?_)).trans ?_) | (with_reducible refine (forEach_keep _ _ _ (fun _ _ => ?_)).trans ?_) | (simp only [keep_mk, keep_ite, ite_self, eq_self, implies_true, fold_keep, Dev.modStage_keep, driveStop_keep, forEach_keep]; with_reducible (first | (with_reducible refine (fold_keep _ _ _ (fun _ _ => ?_)).trans ?_) | (with_reducible refine (forEach_keep _ _ _ (fun _ _ => ?_)).trans ?_))) | with_reducible refine ite_of ?_ ?_ | split)
theorem wake_keep (bit : Nat) (d : Dev) : (wake bit d).keep = d.keep := by
  unfold wake
  try dsimp only
  repeat' (first | (simp only [keep_mk, keep_ite, ite_self, eq_self, implies_true, emit_keep]; done) | with_reducible refine ite_of ?_ ?_ | split)
theorem wakePattern_keep (l : Nat) (id : Nat) (data : List Byte) (d : Dev) : (wakePattern l id data d).keep = d.keep := by
  unfold wakePattern
  try dsimp only
  repeat' (first | (simp only [keep_mk, keep_ite, ite_self, eq_self, implies_true, wake_keep]; done) | with_reducible refine ite_of ?_ ?_ | split)
theorem guardedLow_keep (p : Path) (okLen : Bool) (okValue : Bool) (f : Dev → Dev) (d0 : Dev) (hf : ∀ a0, (f a0).keep = a0.keep) : (guardedLow p okLen okValue f d0).keep = d0.keep := by
  unfold guardedLow
  try dsimp only
  repeat' (first | (simp only [keep_mk, keep_ite, ite_self, eq_self, implies_true, hf, entered_keep, refuse_keep]; done) | (with_reducible refine (entered_keep _ _ _ _ (fun _ => ?_)).trans ?_) | (simp only [keep_mk, keep_ite, ite_self, eq_self, implies_true, hf, entered_keep, refuse_keep]; with_reducible (first | (with_reducible refine (entered_keep _ _ _ _ (fun _ => ?_)).trans ?_))) | with_reducible refine ite_of ?_ ?_ | split)
theorem integrityXfer_keep (n : Nat) (h : Nat) (e : Nat) (st : Nat) (d : Dev) : (integrityXfer n h e st d).keep = d.keep := by
  unfold integrityXfer
  try dsimp only
  repeat' (first | (simp only [keep_mk, keep_ite, ite_self, eq_self, implies_true, Dev.modEp_keep, endHalting_keep]; done) | with_reducible refine ite_of ?_ ?_ | split)
theorem integrityEntry_keep (n : Nat) (q : Nat) (i : Dword) (d : Dev) : (integrityEntry n q i d).keep = d.keep := by
  unfold integrityEntry
  try dsimp only
  repeat' (first | (simp only [keep_mk, keep_ite, ite_self, eq_self, implies_true, Dev.modWq_keep, dropCommit_keep, stopWq_keep]; done) | with_reducible refine ite_of ?_ ?_ | split)
theorem moveXfer_keep (h : Nat) (u : Nat) (n : Nat) (hd : Nat) (e : Nat) (uid : Nat) (d : Dev) : (moveXfer h u n hd e uid d).keep = d.keep := by
  unfold moveXfer
  try dsimp only
  repeat' (first | (simp only [keep_mk, keep_ite, ite_self, eq_self, implies_true, Dev.modEp_keep, genAdd_keep]; done) | with_reducible refine ite_of ?_ ?_ | split)
theorem moveXfers_keep (h : Nat) (u : Nat) (d : Dev) : (moveXfers h u d).keep = d.keep := by
  unfold moveXfers
  try dsimp only
  repeat' (first | (simp only [keep_mk, keep_ite, ite_self, eq_self, implies_true, forEach_keep, moveXfer_keep, fold_keep]; done) | (with_reducible refine (forEach_keep _ _ _ (fun _ _ => ?_)).trans ?_) | (with_reducible refine (fold_keep _ _ _ (fun _ _ => ?_)).trans ?_) | (simp only [keep_mk, keep_ite, ite_self, eq_self, implies_true, forEach_keep, moveXfer_keep, fold_keep]; with_reducible (first | (with_reducible refine (forEach_keep _ _ _ (fun _ _ => ?_)).trans ?_) | (with_reducible refine (fold_keep _ _ _ (fun _ _ => ?_)).trans ?_))) | with_reducible refine ite_of ?_ ?_ | split)
theorem dropVictim_keep (v : ResVictim) (d : Dev) : (dropVictim v d).keep = d.keep := by
  unfold dropVictim
  try dsimp only
  repeat' (first | (simp only [keep_mk, keep_ite, ite_self, eq_self, implies_true, integrityEntry_keep, integrityXfer_keep]; done) | with_reducible refine ite_of ?_ ?_ | split)
theorem dropCommand_keep (v : ResVictim) (d : Dev) : (dropCommand v d).keep = d.keep := by
  unfold dropCommand
  try dsimp only
  repeat' (first | (simp only [keep_mk, keep_ite, ite_self, eq_self, implies_true, dropCommit_keep, finishWe_keep]; done) | with_reducible refine ite_of ?_ ?_ | split)
theorem dropTask_keep (h : Nat) (slot : Nat) (v : ResVictim) (d : Dev) : (dropTask h slot v d).keep = d.keep := by
  unfold dropTask
  try dsimp only
  repeat' (first | (simp only [keep_mk, keep_ite, ite_self, eq_self, implies_true, Dev.modEasel_keep, finishWe_keep]; done) | with_reducible refine ite_of ?_ ?_ | split)
theorem corrWindow_keep (a : Nat) (d : Dev) : (corrWindow a d).keep = d.keep := by
  unfold corrWindow
  try dsimp only
  repeat' (first | (simp only [keep_mk, keep_ite, ite_self, eq_self, implies_true, raise_keep]; done) | with_reducible refine ite_of ?_ ?_ | split)
theorem corrRecord_keep (a : Nat) (d : Dev) : (corrRecord a d).keep = d.keep := by
  unfold corrRecord
  try dsimp only
  repeat' (first | (simp only [keep_mk, keep_ite, ite_self, eq_self, implies_true, putRecord_keep]; done) | with_reducible refine ite_of ?_ ?_ | split)
theorem corrected_keep (a : Nat) (d : Dev) : (corrected a d).keep = d.keep := by
  unfold corrected
  try dsimp only
  repeat' (first | (simp only [keep_mk, keep_ite, ite_self, eq_self, implies_true, corrRecord_keep, corrWindow_keep, raise_keep]; done) | with_reducible refine ite_of ?_ ?_ | split)
theorem rereadOut_keep (n : Nat) (h : Nat) (e : Nat) (x : Xfer) (d : Dev) : (rereadOut n h e x d).keep = d.keep := by
  unfold rereadOut
  try dsimp only
  repeat' (first | (simp only [keep_mk, keep_ite, ite_self, eq_self, implies_true, Dev.modXfer_keep, cancelWhere_keep, endHalting_keep, fillOut_keep]; done) | with_reducible refine ite_of ?_ ?_ | split)
theorem canvasLost_keep (n : Nat) (h : Nat) (e : Nat) (st : Nat) (d : Dev) : (canvasLost n h e st d).keep = d.keep := by
  unfold canvasLost
  try dsimp only
  repeat' (first | (simp only [keep_mk, keep_ite, ite_self, eq_self, implies_true, endHalting_keep, rereadOut_keep, sealEvent_keep]; done) | with_reducible refine ite_of ?_ ?_ | split)
theorem ctxLost_keep (n : Nat) (h : Nat) (e : Nat) (d : Dev) : (ctxLost n h e d).keep = d.keep := by
  unfold ctxLost
  try dsimp only
  repeat' (first | (simp only [keep_mk, keep_ite, ite_self, eq_self, implies_true, Dev.modEp_keep, dropAll_keep, dropCtx_keep, endXfer_keep, giveUp_keep, unloadStreams_keep, fold_keep]; done) | (with_reducible refine (fold_keep _ _ _ (fun _ _ => ?_)).trans ?_) | (simp only [keep_mk, keep_ite, ite_self, eq_self, implies_true, Dev.modEp_keep, dropAll_keep, dropCtx_keep, endXfer_keep, giveUp_keep, unloadStreams_keep, fold_keep]; with_reducible (first | (with_reducible refine (fold_keep _ _ _ (fun _ _ => ?_)).trans ?_))) | with_reducible refine ite_of ?_ ?_ | split)
theorem ackEvent_keep (v : Nat) (d : Dev) : (ackEvent v d).keep = d.keep := by
  unfold ackEvent
  try dsimp only
  repeat' (first | (simp only [keep_mk, keep_ite, ite_self, eq_self, implies_true]; done) | with_reducible refine ite_of ?_ ?_ | split)
theorem dictAnswer_keep (p : Path) (idx : Nat) (sub : Nat) (d : Dev) : (dictAnswer p idx sub d).keep = d.keep := by
  unfold dictAnswer
  try dsimp only
  repeat' (first | (simp only [keep_mk, keep_ite, ite_self, eq_self, implies_true, answer_keep, refuse_keep]; done) | with_reducible refine ite_of ?_ ?_ | split)
theorem herobReply_keep (l : Nat) (cmd : Nat) (fr : HFrame) (seq : Nat) (data : List Byte) (d : Dev) : (herobReply l cmd fr seq data d).keep = d.keep := by
  unfold herobReply
  try dsimp only
  repeat' (first | (simp only [keep_mk, keep_ite, ite_self, eq_self, implies_true, Dev.modCan_keep, canSend_keep]; done) | with_reducible refine ite_of ?_ ?_ | split)
theorem herobAbort_keep (l : Nat) (fr : HFrame) (code : Nat) (reason : Nat) (d0 : Dev) : (herobAbort l fr code reason d0).keep = d0.keep := by
  unfold herobAbort
  try dsimp only
  repeat' (first | (simp only [keep_mk, keep_ite, ite_self, eq_self, implies_true, herobReply_keep]; done) | with_reducible refine ite_of ?_ ?_ | split)
theorem protoCount_keep (l : Nat) (d : Dev) : (protoCount l d).keep = d.keep := by
  unfold protoCount
  try dsimp only
  repeat' (first | (simp only [keep_mk, keep_ite, ite_self, eq_self, implies_true, raise_keep]; done) | with_reducible refine ite_of ?_ ?_ | split)
theorem protoError_keep (l : Nat) (fr : HFrame) (d : Dev) : (protoError l fr d).keep = d.keep := by
  unfold protoError
  try dsimp only
  repeat' (first | (simp only [keep_mk, keep_ite, ite_self, eq_self, implies_true, Dev.modCan_keep, herobAbort_keep, protoCount_keep]; done) | with_reducible refine ite_of ?_ ?_ | split)
theorem frameRead_keep (l : Nat) (fr : HFrame) (d : Dev) : (frameRead l fr d).keep = d.keep := by
  unfold frameRead
  try dsimp only
  repeat' (first | (simp only [keep_mk, keep_ite, ite_self, eq_self, implies_true, Dev.modCan_keep, herobAbort_keep, herobReply_keep]; done) | with_reducible refine ite_of ?_ ?_ | split)
theorem frameSegGet_keep (l : Nat) (fr : HFrame) (d : Dev) : (frameSegGet l fr d).keep = d.keep := by
  unfold frameSegGet
  try dsimp only
  repeat' (first | (simp only [keep_mk, keep_ite, ite_self, eq_self, implies_true, Dev.modCan_keep, herobReply_keep, protoError_keep]; done) | with_reducible refine ite_of ?_ ?_ | split)
theorem frameSegStart_keep (l : Nat) (fr : HFrame) (d : Dev) : (frameSegStart l fr d).keep = d.keep := by
  unfold frameSegStart
  try dsimp only
  repeat' (first | (simp only [keep_mk, keep_ite, ite_self, eq_self, implies_true, Dev.modCan_keep, herobReply_keep, protoError_keep]; done) | with_reducible refine ite_of ?_ ?_ | split)
theorem clientAbort_keep (l : Nat) (fr : HFrame) (d : Dev) : (clientAbort l fr d).keep = d.keep := by
  unfold clientAbort
  try dsimp only
  repeat' (first | (simp only [keep_mk, keep_ite, ite_self, eq_self, implies_true, Dev.modCan_keep]; done) | with_reducible refine ite_of ?_ ?_ | split)
theorem segTimeout_keep (l : Nat) (d : Dev) : (segTimeout l d).keep = d.keep := by
  unfold segTimeout
  try dsimp only
  repeat' (first | (simp only [keep_mk, keep_ite, ite_self, eq_self, implies_true, Dev.modCan_keep, herobAbort_keep, miniAbort_keep]; done) | with_reducible refine ite_of ?_ ?_ | split)
theorem miniRead_keep (l : Nat) (fr : HFrame) (d : Dev) : (miniRead l fr d).keep = d.keep := by
  unfold miniRead
  try dsimp only
  repeat' (first | (simp only [keep_mk, keep_ite, ite_self, eq_self, implies_true, Dev.modCan_keep, miniAbort_keep, miniAnswer_keep]; done) | with_reducible refine ite_of ?_ ?_ | split)
theorem miniProto_keep (l : Nat) (fr : HFrame) (d : Dev) : (miniProto l fr d).keep = d.keep := by
  unfold miniProto
  try dsimp only
  repeat' (first | (simp only [keep_mk, keep_ite, ite_self, eq_self, implies_true, Dev.modCan_keep, miniAbort_keep, protoCount_keep]; done) | with_reducible refine ite_of ?_ ?_ | split)
theorem miniSegGet_keep (l : Nat) (fr : HFrame) (d : Dev) : (miniSegGet l fr d).keep = d.keep := by
  unfold miniSegGet
  try dsimp only
  repeat' (first | (simp only [keep_mk, keep_ite, ite_self, eq_self, implies_true, Dev.modCan_keep, miniAnswer_keep, miniProto_keep]; done) | with_reducible refine ite_of ?_ ?_ | split)
theorem heartbeat_keep (d : Dev) : (heartbeat d).keep = d.keep := by
  unfold heartbeat
  try dsimp only
  repeat' (first | (simp only [keep_mk, keep_ite, ite_self, eq_self, implies_true, canSend_keep, forEach_keep]; done) | (with_reducible refine (forEach_keep _ _ _ (fun _ _ => ?_)).trans ?_) | (simp only [keep_mk, keep_ite, ite_self, eq_self, implies_true, canSend_keep, forEach_keep]; with_reducible (first | (with_reducible refine (forEach_keep _ _ _ (fun _ _ => ?_)).trans ?_))) | with_reducible refine ite_of ?_ ?_ | split)
theorem canBusOff_keep (l : Nat) (d : Dev) : (canBusOff l d).keep = d.keep := by
  unfold canBusOff
  try dsimp only
  repeat' (first | (simp only [keep_mk, keep_ite, ite_self, eq_self, implies_true, Dev.modCan_keep, raise_keep]; done) | with_reducible refine ite_of ?_ ?_ | split)
theorem busOffRecovery_keep (l : Nat) (d : Dev) : (busOffRecovery l d).keep = d.keep := by
  unfold busOffRecovery
  try dsimp only
  repeat' (first | (simp only [keep_mk, keep_ite, ite_self, eq_self, implies_true, fold_keep, Dev.modCan_keep, emit_keep]; done) | (with_reducible refine (fold_keep _ _ _ (fun _ _ => ?_)).trans ?_) | (simp only [keep_mk, keep_ite, ite_self, eq_self, implies_true, fold_keep, Dev.modCan_keep, emit_keep]; with_reducible (first | (with_reducible refine (fold_keep _ _ _ (fun _ _ => ?_)).trans ?_))) | with_reducible refine ite_of ?_ ?_ | split)
theorem drainEvents_keep (l : Nat) (d : Dev) : (drainEvents l d).keep = d.keep := by
  unfold drainEvents
  try dsimp only
  repeat' (first | (simp only [keep_mk, keep_ite, ite_self, eq_self, implies_true, fold_keep, Dev.modCan_keep, emit_keep]; done) | (with_reducible refine (fold_keep _ _ _ (fun _ _ => ?_)).trans ?_) | (simp only [keep_mk, keep_ite, ite_self, eq_self, implies_true, fold_keep, Dev.modCan_keep, emit_keep]; with_reducible (first | (with_reducible refine (fold_keep _ _ _ (fun _ _ => ?_)).trans ?_))) | with_reducible refine ite_of ?_ ?_ | split)
theorem evtWrite_keep (f : Nat) (off : Nat) (v : Dword) (d : Dev) : (evtWrite f off v d).keep = d.keep := by
  unfold evtWrite
  try dsimp only
  repeat' (first | (simp only [keep_mk, keep_ite, ite_self, eq_self, implies_true, Dev.modFunc_keep]; done) | with_reducible refine ite_of ?_ ?_ | split)
theorem setupWrite_keep (n : Nat) (ws : List (Nat × Dword)) (d : Dev) : (setupWrite n ws d).keep = d.keep := by
  unfold setupWrite
  try dsimp only
  repeat' (first | (simp only [keep_mk, keep_ite, ite_self, eq_self, implies_true, Dev.modCq_keep, Dev.modWq_keep]; done) | with_reducible refine ite_of ?_ ?_ | split)
theorem idxWrite_keep (n : Nat) (k : Nat) (new : Qword) (d : Dev) : (idxWrite n k new d).keep = d.keep := by
  unfold idxWrite
  try dsimp only
  repeat' (first | (simp only [keep_mk, keep_ite, ite_self, eq_self, implies_true, Dev.modSlice_keep]; done) | with_reducible refine ite_of ?_ ?_ | split)
theorem pageWrite_keep (f : Nat) (n : Nat) (off : Nat) (size : Nat) (v : Qword) (ws : List (Nat × Dword)) (d : Dev) : (pageWrite f n off size v ws d).keep = d.keep := by
  unfold pageWrite
  try dsimp only
  repeat' (first | (simp only [keep_mk, keep_ite, ite_self, eq_self, implies_true, Dev.modSlice_keep, badAccess_keep, cqRing_keep, doorbellWq_keep, epRing_keep, idxWrite_keep, setupWrite_keep]; done) | with_reducible refine ite_of ?_ ?_ | split)
theorem bar4Write_keep (f : Nat) (off : Nat) (v : Dword) (d : Dev) : (bar4Write f off v d).keep = d.keep := by
  unfold bar4Write
  try dsimp only
  repeat' (first | (simp only [keep_mk, keep_ite, ite_self, eq_self, implies_true, Dev.modFunc_keep, Dev.modSlice_keep, releaseOwn_keep, releaseVectors_keep]; done) | with_reducible refine ite_of ?_ ?_ | split)
theorem devControl_keep (f : Nat) (v : Dword) (d0 : Dev) : (devControl f v d0).keep = d0.keep := by
  unfold devControl
  try dsimp only
  repeat' (first | (simp only [keep_mk, keep_ite, ite_self, eq_self, implies_true, Dev.modFunc_keep]; done) | with_reducible refine ite_of ?_ ?_ | split)
theorem commitActs_keep (idx : Nat) (sub : Nat) (v : Nat) (d : Dev) : (commitActs idx sub v d).keep = d.keep := by
  unfold commitActs
  try dsimp only
  repeat' (first | (simp only [keep_mk, keep_ite, ite_self, eq_self, implies_true, Dev.modPort_keep, faultClear_keep, roleReq_keep]; done) | with_reducible refine ite_of ?_ ?_ | split)
theorem ownerCommit_keep (was : Nat) (d : Dev) : (ownerCommit was d).keep = d.keep := by
  unfold ownerCommit
  try dsimp only
  repeat' (first | (simp only [keep_mk, keep_ite, ite_self, eq_self, implies_true, raise_keep]; done) | with_reducible refine ite_of ?_ ?_ | split)
theorem commitFuncs_keep (d : Dev) : (commitFuncs d).keep = d.keep := by
  unfold commitFuncs
  try dsimp only
  repeat' (first | (simp only [keep_mk, keep_ite, ite_self, eq_self, implies_true]; done) | with_reducible refine ite_of ?_ ?_ | split)
theorem stopPeriodic_keep (n : Nat) (d : Dev) : (stopPeriodic n d).keep = d.keep := by
  unfold stopPeriodic
  try dsimp only
  repeat' (first | (simp only [keep_mk, keep_ite, ite_self, eq_self, implies_true, fold_keep, doStop_keep]; done) | (with_reducible refine (fold_keep _ _ _ (fun _ _ => ?_)).trans ?_) | (simp only [keep_mk, keep_ite, ite_self, eq_self, implies_true, fold_keep, doStop_keep]; with_reducible (first | (with_reducible refine (fold_keep _ _ _ (fun _ _ => ?_)).trans ?_))) | with_reducible refine ite_of ?_ ?_ | split)
theorem syncOut_keep (d : Dev) : (syncOut d).keep = d.keep := by
  unfold syncOut
  try dsimp only
  repeat' (first | (simp only [keep_mk, keep_ite, ite_self, eq_self, implies_true, emit_keep]; done) | with_reducible refine ite_of ?_ ?_ | split)


end Sys2Proof.Machine
end

