-- ==== Sys2Proof/Laws/Run.lean ====
section
/-! SUPPORT. What running a command does to the parts of State: the queue stays, no memory operation is left, and memory keeps its
canonical form. -/
namespace Sys2Proof.Machine

theorem run_eq (f : Dev → Dev) (s : State) : run f s = .next (s.after (f s.dev)) := rfl
theorem runP_eq (f : Dev → Dev) (s : State) : runP f s = .next (s.afterPd (f s.dev)) := rfl
theorem runM_eq (f : Memory → Dev → Dev) (s : State) : runM f s = .next (s.after (f s.mem s.dev)) := rfl
theorem State.on_eq (f : Memory → Dev → Dev) (s : State) : s.on f = s.after (f s.mem s.dev) := rfl

@[simp] theorem State.after_pending (s : State) (d : Dev) : (s.after d).pending = s.pending := rfl
@[simp] theorem State.after_memOps (s : State) (d : Dev) : (s.after d).dev.memOps = [] := rfl
@[simp] theorem State.after_mem (s : State) (d : Dev) : (s.after d).mem = d.memOps.foldl Memory.apply s.mem := rfl
@[simp] theorem State.afterPd_pending (s : State) (d : Dev) : (s.afterPd d).pending = s.pending := rfl
@[simp] theorem State.afterPd_memOps (s : State) (d : Dev) : (s.afterPd d).dev.memOps = [] := rfl

/-! ### Two changes of one record are one -/

theorem Dev.modSlice_twice (n : Nat) (f g : Slice → Slice) (d : Dev) :
    Dev.modSlice n g (Dev.modSlice n f d) = Dev.modSlice n (fun x => g (f x)) d := by
  simp [Dev.modSlice, Dev.slice, tabPut_tabPut]
theorem Dev.modEng_twice (n : Nat) (f g : SliceEng → SliceEng) (d : Dev) :
    Dev.modEng n g (Dev.modEng n f d) = Dev.modEng n (fun x => g (f x)) d := by
  simp [Dev.modEng, Dev.eng, tabPut_tabPut]
theorem Dev.modPort_twice (n : Nat) (f g : Port → Port) (d : Dev) :
    Dev.modPort n g (Dev.modPort n f d) = Dev.modPort n (fun x => g (f x)) d := by
  simp [Dev.modPort, Dev.port, tabPut_tabPut]
theorem Dev.modFunc_twice (n : Nat) (f g : Func → Func) (d : Dev) :
    Dev.modFunc n g (Dev.modFunc n f d) = Dev.modFunc n (fun x => g (f x)) d := by
  simp [Dev.modFunc, Dev.func, tabPut_tabPut]
theorem Dev.modGroup_twice (n : Nat) (f g : HostGroup → HostGroup) (d : Dev) :
    Dev.modGroup n g (Dev.modGroup n f d) = Dev.modGroup n (fun x => g (f x)) d := by
  simp [Dev.modGroup, Dev.group, tabPut_tabPut]
theorem Dev.modPg_twice (n : Nat) (f g : PGroup → PGroup) (d : Dev) :
    Dev.modPg n g (Dev.modPg n f d) = Dev.modPg n (fun x => g (f x)) d := by
  simp [Dev.modPg, Dev.pg, tabPut_tabPut]
theorem Dev.modHalf_twice (n : Nat) (f g : Half → Half) (d : Dev) :
    Dev.modHalf n g (Dev.modHalf n f d) = Dev.modHalf n (fun x => g (f x)) d := by
  simp [Dev.modHalf, Dev.half, tabPut_tabPut]
theorem Dev.modCore_twice (n : Nat) (f g : Core → Core) (d : Dev) :
    Dev.modCore n g (Dev.modCore n f d) = Dev.modCore n (fun x => g (f x)) d := by
  simp [Dev.modCore, Dev.core, tabPut_tabPut]
theorem Dev.modCan_twice (n : Nat) (f g : CanLink → CanLink) (d : Dev) :
    Dev.modCan n g (Dev.modCan n f d) = Dev.modCan n (fun x => g (f x)) d := by
  simp [Dev.modCan, Dev.can, tabPut_tabPut]
theorem Dev.modBus_twice (p : Nat) (f g : PortBus → PortBus) (d : Dev) :
    Dev.modBus p g (Dev.modBus p f d) = Dev.modBus p (fun x => g (f x)) d := Dev.modPort_twice ..
theorem Dev.modCnt_twice (p : Nat) (f g : BusCnt → BusCnt) (d : Dev) :
    Dev.modCnt p g (Dev.modCnt p f d) = Dev.modCnt p (fun x => g (f x)) d := Dev.modPort_twice ..
theorem Dev.modTc_twice (p : Nat) (f g : TypeC → TypeC) (d : Dev) :
    Dev.modTc p g (Dev.modTc p f d) = Dev.modTc p (fun x => g (f x)) d := Dev.modPort_twice ..
theorem Dev.modPd_twice (p : Nat) (f g : Pd → Pd) (d : Dev) :
    Dev.modPd p g (Dev.modPd p f d) = Dev.modPd p (fun x => g (f x)) d := Dev.modPort_twice ..
theorem Dev.modSeq_twice (p : Nat) (f g : PdSeq → PdSeq) (d : Dev) :
    Dev.modSeq p g (Dev.modSeq p f d) = Dev.modSeq p (fun x => g (f x)) d := Dev.modPort_twice ..
theorem Dev.modStage_twice (p : Nat) (f g : Stage → Stage) (d : Dev) :
    Dev.modStage p g (Dev.modStage p f d) = Dev.modStage p (fun x => g (f x)) d := Dev.modPort_twice ..
theorem Dev.modEasel_twice (h : Nat) (f g : Easel → Easel) (d : Dev) :
    Dev.modEasel h g (Dev.modEasel h f d) = Dev.modEasel h (fun x => g (f x)) d := Dev.modHalf_twice ..
theorem Dev.modWq_twice (n q : Nat) (f g : WQ → WQ) (d : Dev) :
    Dev.modWq n q g (Dev.modWq n q f d) = Dev.modWq n q (fun x => g (f x)) d := by
  simp [Dev.modWq, Dev.modSlice_twice, Slice.wq, tabPut_tabPut]
theorem Dev.modCq_twice (n q : Nat) (f g : CQ → CQ) (d : Dev) :
    Dev.modCq n q g (Dev.modCq n q f d) = Dev.modCq n q (fun x => g (f x)) d := by
  simp [Dev.modCq, Dev.modSlice_twice, Slice.cq, tabPut_tabPut]
theorem Dev.modHandle_twice (n h : Nat) (f g : Handle → Handle) (d : Dev) :
    Dev.modHandle n h g (Dev.modHandle n h f d) = Dev.modHandle n h (fun x => g (f x)) d := by
  simp [Dev.modHandle, Dev.modEng_twice, SliceEng.handle, tabPut_tabPut]
theorem Dev.modEp_twice (n h e : Nat) (f g : Ep → Ep) (d : Dev) :
    Dev.modEp n h e g (Dev.modEp n h e f d) = Dev.modEp n h e (fun x => g (f x)) d := by
  simp [Dev.modEp, Dev.modHandle_twice, Handle.ep, tabPut_tabPut]

end Sys2Proof.Machine
end

