-- ==== Sys2Proof/Laws/Frame.lean ====
section
/-! SUPPORT. The frame of the rows that do not configure the part (Safety, Instr.configures), one lemma per row. -/
namespace Sys2Proof.Machine

set_option linter.unusedSimpArgs false
set_option linter.unusedVariables false
set_option linter.unreachableTactic false
set_option linter.unusedTactic false

/-- What such a row leaves as it was. -/
def Frame (s t : State) : Prop :=
  t.dev.keep = s.dev.keep ∧ t.pending = s.pending ∧ t.mem.req = s.mem.req ∧ t.mem.flashA = s.mem.flashA ∧ t.mem.flashB = s.mem.flashB

theorem fold_resp (ops : List MemOp) (m : Memory) (h : ops.filter MemOp.other = []) :
    (ops.foldl Memory.apply m).req = m.req ∧ (ops.foldl Memory.apply m).flashA = m.flashA ∧
    (ops.foldl Memory.apply m).flashB = m.flashB := by
  induction ops generalizing m with
  | nil => exact ⟨rfl, rfl, rfl⟩
  | cons o r ih =>
    cases o with
    | resp off bs =>
      obtain ⟨h1, h2, h3⟩ := ih (m.apply (.resp off bs)) h
      exact ⟨h1.trans rfl, h2.trans rfl, h3.trans rfl⟩
    | req off bs => cases h
    | flash p off bs => cases h
    | erase p => cases h
    | clearMailbox => cases h

theorem after_frame {s : State} (hs : s.Settled) (d : Dev) (h : d.keep = s.dev.keep) : Frame s (s.after d) := by
  have hs : s.dev.memOps = [] := hs
  have h1 : d.memOps.filter MemOp.other = [] := by
    have h2 := congrArg (fun k => k.2.2.2.2.2) h
    simpa [Dev.keep, hs] using h2
  obtain ⟨h2, h3, h4⟩ := fold_resp d.memOps s.mem h1
  refine ⟨?_, rfl, h2, h3, h4⟩
  simp only [Dev.keep, State.after, hs, h1, Prod.mk.injEq] at *
  simp [h]
theorem run_frame (f : Dev → Dev) {s t : State} (hs : s.Settled) (hf : ∀ d, (f d).keep = d.keep) (h : run f s = .next t) : Frame s t := by
  cases h; exact after_frame hs _ (hf _)
theorem runP_frame (f : Dev → Dev) {s t : State} (hs : s.Settled) (hf : ∀ d, (f d).keep = d.keep) (h : runP f s = .next t) : Frame s t := by
  cases h; exact after_frame hs _ ((settlePd_keep _).trans (hf _))
theorem runM_frame (f : Memory → Dev → Dev) {s t : State} (hs : s.Settled) (hf : ∀ m d, (f m d).keep = d.keep)
    (h : runM f s = .next t) : Frame s t := by
  cases h; exact after_frame hs _ (hf _ _)

theorem execObjectRead_frame {p} {index} {sub} {s t : State} (hs : s.Settled) (h : execObjectRead p index sub s = .next t) : Frame s t := by
  refine run_frame _ hs (fun d => ?_) h
  repeat' (first
    | with_reducible rfl | (simp only [keep_mk, keep_ite, ite_self, id_eq, dictAnswer_keep, entered_keep]; done)
    | with_reducible refine ite_of ?_ ?_ | (with_reducible refine (entered_keep _ _ _ _ (fun _ => ?_)).trans ?_) | split)
theorem execBadRegisterAccess_frame {f} {bar} {off} {size} {write} {s t : State} (hs : s.Settled) (h : execBadRegisterAccess f bar off size write s = .next t) : Frame s t :=
  run_frame _ hs (fun _ => badAccess_keep ..) h
theorem execEvtCauseClear_frame {f} {causes} {slices} {s t : State} (hs : s.Settled) (h : execEvtCauseClear f causes slices s = .next t) : Frame s t := by
  refine run_frame _ hs (fun d => ?_) h
  repeat' (first
    | with_reducible rfl | (simp only [keep_mk, keep_ite, ite_self, id_eq, Dev.modFunc_keep]; done)
    | with_reducible refine ite_of ?_ ?_ | split)
theorem execVectorUnmask_frame {f} {n} {vec} {s t : State} (hs : s.Settled) (h : execVectorUnmask f n vec s = .next t) : Frame s t :=
  run_frame _ hs (fun _ => unmaskVec_keep ..) h
theorem execMsixEnableChange_frame {f} {enable} {mask} {s t : State} (hs : s.Settled) (h : execMsixEnableChange f enable mask s = .next t) : Frame s t :=
  run_frame _ hs (fun _ => setMsix_keep ..) h
theorem execUpstreamLinkUp_frame {f} {s t : State} (hs : s.Settled) (h : execUpstreamLinkUp f s = .next t) : Frame s t :=
  run_frame _ hs (fun _ => linkUp_keep ..) h
theorem execWqDoorbell_frame {f} {n} {v} {s t : State} (hs : s.Settled) (h : execWqDoorbell f n v s = .next t) : Frame s t := by
  refine run_frame _ hs (fun d => ?_) h
  repeat' (first
    | with_reducible rfl | (simp only [keep_mk, keep_ite, ite_self, id_eq, doorbellWq_keep]; done)
    | with_reducible refine ite_of ?_ ?_ | split)
theorem execEpDoorbell_frame {f} {n} {v} {s t : State} (hs : s.Settled) (h : execEpDoorbell f n v s = .next t) : Frame s t := by
  refine run_frame _ hs (fun d => ?_) h
  repeat' (first
    | with_reducible rfl | (simp only [keep_mk, keep_ite, ite_self, id_eq, epRing_keep]; done)
    | with_reducible refine ite_of ?_ ?_ | split)
theorem execCqDoorbell_frame {f} {n} {v} {s t : State} (hs : s.Settled) (h : execCqDoorbell f n v s = .next t) : Frame s t := by
  refine run_frame _ hs (fun d => ?_) h
  repeat' (first
    | with_reducible rfl | (simp only [keep_mk, keep_ite, ite_self, id_eq, cqRing_keep]; done)
    | with_reducible refine ite_of ?_ ?_ | split)
theorem execWqPush_frame {f} {n} {q} {k} {e} {s t : State} (hs : s.Settled) (h : execWqPush f n q k e s = .next t) : Frame s t := by
  refine run_frame _ hs (fun d => ?_) h
  repeat' (first
    | with_reducible rfl | (simp only [keep_mk, keep_ite, ite_self, id_eq, pushWq_keep]; done)
    | with_reducible refine ite_of ?_ ?_ | split)
theorem execEpPush_frame {f} {n} {e} {s t : State} (hs : s.Settled) (h : execEpPush f n e s = .next t) : Frame s t := by
  refine run_frame _ hs (fun d => ?_) h
  repeat' (first
    | with_reducible rfl | (simp only [keep_mk, keep_ite, ite_self, id_eq, pushEp_keep]; done)
    | with_reducible refine ite_of ?_ ?_ | split)
theorem execQSelect_frame {f} {n} {v} {s t : State} (hs : s.Settled) (h : execQSelect f n v s = .next t) : Frame s t := by
  refine run_frame _ hs (fun d => ?_) h
  repeat' (first
    | with_reducible rfl | (simp only [keep_mk, keep_ite, ite_self, id_eq, Dev.modSlice_keep]; done)
    | with_reducible refine ite_of ?_ ?_ | split)
theorem execPiReadComplete_frame {n} {wq} {pi} {s t : State} (hs : s.Settled) (h : execPiReadComplete n wq pi s = .next t) : Frame s t := by
  refine run_frame _ hs (fun d => ?_) h
  repeat' (first
    | with_reducible rfl | (simp only [keep_mk, keep_ite, ite_self, id_eq, onRead_keep, piArrived_keep]; done)
    | with_reducible refine ite_of ?_ ?_ | (with_reducible refine (onRead_keep _ _ _ _ (fun _ _ => ?_)).trans ?_) | split)
theorem execWorkEntryReadComplete_frame {n} {wq} {data} {s t : State} (hs : s.Settled) (h : execWorkEntryReadComplete n wq data s = .next t) : Frame s t := by
  refine run_frame _ hs (fun d => ?_) h
  repeat' (first
    | with_reducible rfl | (simp only [keep_mk, keep_ite, ite_self, id_eq, entriesArrived_keep, onRead_keep]; done)
    | with_reducible refine ite_of ?_ ?_ | (with_reducible refine (onRead_keep _ _ _ _ (fun _ _ => ?_)).trans ?_) | split)
theorem execWqArbitrationTurn_frame {n} {s t : State} (hs : s.Settled) (h : execWqArbitrationTurn n s = .next t) : Frame s t :=
  run_frame _ hs (fun _ => wqTurn_keep ..) h
theorem execNop_frame {n} {wq} {i} {s t : State} (hs : s.Settled) (h : execNop n wq i s = .next t) : Frame s t := by
  refine run_frame _ hs (fun d => ?_) h
  repeat' (first
    | with_reducible rfl | (simp only [keep_mk, keep_ite, ite_self, id_eq, finishWe_keep, onEntry_keep]; done)
    | with_reducible refine ite_of ?_ ?_ | (with_reducible refine (onEntry_keep _ _ _ _ _ _ (fun _ _ => ?_)).trans ?_) | split)
theorem execOpenDevice_frame {n} {wq} {i} {s t : State} (hs : s.Settled) (h : execOpenDevice n wq i s = .next t) : Frame s t := by
  refine run_frame _ hs (fun d => ?_) h
  repeat' (first
    | with_reducible rfl | (simp only [keep_mk, keep_ite, ite_self, id_eq, carves_keep, onEntry_keep, openAct_keep]; done)
    | with_reducible refine ite_of ?_ ?_ | (with_reducible refine (onEntry_keep _ _ _ _ _ _ (fun _ _ => ?_)).trans ?_) | (simp only [keep_mk, keep_ite, ite_self, id_eq, carves_keep, onEntry_keep, openAct_keep]; with_reducible (first | (with_reducible refine (onEntry_keep _ _ _ _ _ _ (fun _ _ => ?_)).trans ?_))) | split)
theorem execAssignAddress_frame {n} {wq} {i} {s t : State} (hs : s.Settled) (h : execAssignAddress n wq i s = .next t) : Frame s t := by
  refine run_frame _ hs (fun d => ?_) h
  repeat' (first
    | with_reducible rfl | (simp only [keep_mk, keep_ite, ite_self, id_eq, assignAct_keep, onHandle_keep]; done)
    | with_reducible refine ite_of ?_ ?_ | (with_reducible refine (onHandle_keep _ _ _ _ _ _ (fun _ _ => ?_)).trans ?_) | (simp only [keep_mk, keep_ite, ite_self, id_eq, assignAct_keep, onHandle_keep]; with_reducible (first | (with_reducible refine (onHandle_keep _ _ _ _ _ _ (fun _ _ => ?_)).trans ?_))) | split)
theorem execAssignAddressRecoveryEnd_frame {n} {wq} {i} {s t : State} (hs : s.Settled) (h : execAssignAddressRecoveryEnd n wq i s = .next t) : Frame s t :=
  run_frame _ hs (fun _ => assignEnd_keep ..) h
theorem execUpdateDevice_frame {n} {wq} {i} {s t : State} (hs : s.Settled) (h : execUpdateDevice n wq i s = .next t) : Frame s t := by
  refine run_frame _ hs (fun d => ?_) h
  repeat' (first
    | with_reducible rfl | (simp only [keep_mk, keep_ite, ite_self, id_eq, onHandle_keep, updateAct_keep]; done)
    | with_reducible refine ite_of ?_ ?_ | (with_reducible refine (onHandle_keep _ _ _ _ _ _ (fun _ _ => ?_)).trans ?_) | (simp only [keep_mk, keep_ite, ite_self, id_eq, onHandle_keep, updateAct_keep]; with_reducible (first | (with_reducible refine (onHandle_keep _ _ _ _ _ _ (fun _ _ => ?_)).trans ?_))) | split)
theorem execCloseDevice_frame {n} {wq} {i} {s t : State} (hs : s.Settled) (h : execCloseDevice n wq i s = .next t) : Frame s t := by
  refine run_frame _ hs (fun d => ?_) h
  repeat' (first
    | with_reducible rfl | (simp only [keep_mk, keep_ite, ite_self, id_eq, closeAct_keep, onHandle_keep]; done)
    | with_reducible refine ite_of ?_ ?_ | (with_reducible refine (onHandle_keep _ _ _ _ _ _ (fun _ _ => ?_)).trans ?_) | (simp only [keep_mk, keep_ite, ite_self, id_eq, closeAct_keep, onHandle_keep]; with_reducible (first | (with_reducible refine (onHandle_keep _ _ _ _ _ _ (fun _ _ => ?_)).trans ?_))) | split)
theorem execAdmitEndpoints_frame {n} {wq} {i} {s t : State} (hs : s.Settled) (h : execAdmitEndpoints n wq i s = .next t) : Frame s t := by
  refine run_frame _ hs (fun d => ?_) h
  repeat' (first
    | with_reducible rfl | (simp only [keep_mk, keep_ite, ite_self, id_eq, admitAct_keep, carves_keep, onHandle_keep]; done)
    | with_reducible refine ite_of ?_ ?_ | (with_reducible refine (onHandle_keep _ _ _ _ _ _ (fun _ _ => ?_)).trans ?_) | (simp only [keep_mk, keep_ite, ite_self, id_eq, admitAct_keep, carves_keep, onHandle_keep]; with_reducible (first | (with_reducible refine (onHandle_keep _ _ _ _ _ _ (fun _ _ => ?_)).trans ?_))) | split)
theorem execRetireEndpoints_frame {n} {wq} {i} {s t : State} (hs : s.Settled) (h : execRetireEndpoints n wq i s = .next t) : Frame s t := by
  refine run_frame _ hs (fun d => ?_) h
  repeat' (first
    | with_reducible rfl | (simp only [keep_mk, keep_ite, ite_self, id_eq, onHandle_keep, retireAct_keep]; done)
    | with_reducible refine ite_of ?_ ?_ | (with_reducible refine (onHandle_keep _ _ _ _ _ _ (fun _ _ => ?_)).trans ?_) | (simp only [keep_mk, keep_ite, ite_self, id_eq, onHandle_keep, retireAct_keep]; with_reducible (first | (with_reducible refine (onHandle_keep _ _ _ _ _ _ (fun _ _ => ?_)).trans ?_))) | split)
theorem execStopEndpoint_frame {n} {wq} {i} {s t : State} (hs : s.Settled) (h : execStopEndpoint n wq i s = .next t) : Frame s t := by
  refine run_frame _ hs (fun d => ?_) h
  repeat' (first
    | with_reducible rfl | (simp only [keep_mk, keep_ite, ite_self, id_eq, onHandle_keep, stopAct_keep]; done)
    | with_reducible refine ite_of ?_ ?_ | (with_reducible refine (onHandle_keep _ _ _ _ _ _ (fun _ _ => ?_)).trans ?_) | (simp only [keep_mk, keep_ite, ite_self, id_eq, onHandle_keep, stopAct_keep]; with_reducible (first | (with_reducible refine (onHandle_keep _ _ _ _ _ _ (fun _ _ => ?_)).trans ?_))) | split)
theorem execClearHalt_frame {n} {wq} {i} {s t : State} (hs : s.Settled) (h : execClearHalt n wq i s = .next t) : Frame s t := by
  refine run_frame _ hs (fun d => ?_) h
  repeat' (first
    | with_reducible rfl | (simp only [keep_mk, keep_ite, ite_self, id_eq, clearHaltAct_keep, onHandle_keep]; done)
    | with_reducible refine ite_of ?_ ?_ | (with_reducible refine (onHandle_keep _ _ _ _ _ _ (fun _ _ => ?_)).trans ?_) | (simp only [keep_mk, keep_ite, ite_self, id_eq, clearHaltAct_keep, onHandle_keep]; with_reducible (first | (with_reducible refine (onHandle_keep _ _ _ _ _ _ (fun _ _ => ?_)).trans ?_))) | split)
theorem execMoveDequeue_frame {n} {wq} {i} {s t : State} (hs : s.Settled) (h : execMoveDequeue n wq i s = .next t) : Frame s t := by
  refine run_frame _ hs (fun d => ?_) h
  repeat' (first
    | with_reducible rfl | (simp only [keep_mk, keep_ite, ite_self, id_eq, moveAct_keep, onHandle_keep]; done)
    | with_reducible refine ite_of ?_ ?_ | (with_reducible refine (onHandle_keep _ _ _ _ _ _ (fun _ _ => ?_)).trans ?_) | (simp only [keep_mk, keep_ite, ite_self, id_eq, moveAct_keep, onHandle_keep]; with_reducible (first | (with_reducible refine (onHandle_keep _ _ _ _ _ _ (fun _ _ => ?_)).trans ?_))) | split)
theorem execPortReset_frame {n} {wq} {i} {s t : State} (hs : s.Settled) (h : execPortReset n wq i s = .next t) : Frame s t := by
  refine run_frame _ hs (fun d => ?_) h
  repeat' (first
    | with_reducible rfl | (simp only [keep_mk, keep_ite, ite_self, id_eq, onPort_keep, resetAct_keep]; done)
    | with_reducible refine ite_of ?_ ?_ | (with_reducible refine (onPort_keep _ _ _ _ _ _ (fun _ _ _ => ?_)).trans ?_) | split)
theorem execPortSuspend_frame {n} {wq} {i} {s t : State} (hs : s.Settled) (h : execPortSuspend n wq i s = .next t) : Frame s t := by
  refine run_frame _ hs (fun d => ?_) h
  repeat' (first
    | with_reducible rfl | (simp only [keep_mk, keep_ite, ite_self, id_eq, onPort_keep, suspendAct_keep]; done)
    | with_reducible refine ite_of ?_ ?_ | (with_reducible refine (onPort_keep _ _ _ _ _ _ (fun _ _ _ => ?_)).trans ?_) | split)
theorem execPortResume_frame {n} {wq} {i} {s t : State} (hs : s.Settled) (h : execPortResume n wq i s = .next t) : Frame s t := by
  refine run_frame _ hs (fun d => ?_) h
  repeat' (first
    | with_reducible rfl | (simp only [keep_mk, keep_ite, ite_self, id_eq, onPort_keep, resumeAct_keep]; done)
    | with_reducible refine ite_of ?_ ?_ | (with_reducible refine (onPort_keep _ _ _ _ _ _ (fun _ _ _ => ?_)).trans ?_) | split)
theorem execPortPowerCycle_frame {n} {wq} {i} {s t : State} (hs : s.Settled) (h : execPortPowerCycle n wq i s = .next t) : Frame s t := by
  refine runP_frame _ hs (fun d => ?_) h
  repeat' (first
    | with_reducible rfl | (simp only [keep_mk, keep_ite, ite_self, id_eq, cycleAct_keep, onPort_keep]; done)
    | with_reducible refine ite_of ?_ ?_ | (with_reducible refine (onPort_keep _ _ _ _ _ _ (fun _ _ _ => ?_)).trans ?_) | split)
theorem execPdRequest_frame {n} {wq} {i} {s t : State} (hs : s.Settled) (h : execPdRequest n wq i s = .next t) : Frame s t := by
  refine runP_frame _ hs (fun d => ?_) h
  repeat' (first
    | with_reducible rfl | (simp only [keep_mk, keep_ite, ite_self, id_eq, onEntry_keep, pdAct_keep]; done)
    | with_reducible refine ite_of ?_ ?_ | (with_reducible refine (onEntry_keep _ _ _ _ _ _ (fun _ _ => ?_)).trans ?_) | split)
theorem execCarvePool_frame {n} {wq} {i} {s t : State} (hs : s.Settled) (h : execCarvePool n wq i s = .next t) : Frame s t := by
  refine run_frame _ hs (fun d => ?_) h
  repeat' (first
    | with_reducible rfl | (simp only [keep_mk, keep_ite, ite_self, id_eq, carveAct_keep, onHandle_keep]; done)
    | with_reducible refine ite_of ?_ ?_ | (with_reducible refine (onHandle_keep _ _ _ _ _ _ (fun _ _ => ?_)).trans ?_) | (simp only [keep_mk, keep_ite, ite_self, id_eq, carveAct_keep, onHandle_keep]; with_reducible (first | (with_reducible refine (onHandle_keep _ _ _ _ _ _ (fun _ _ => ?_)).trans ?_))) | split)
theorem execReleasePool_frame {n} {wq} {i} {s t : State} (hs : s.Settled) (h : execReleasePool n wq i s = .next t) : Frame s t := by
  refine run_frame _ hs (fun d => ?_) h
  repeat' (first
    | with_reducible rfl | (simp only [keep_mk, keep_ite, ite_self, id_eq, onHandle_keep, releaseAct_keep]; done)
    | with_reducible refine ite_of ?_ ?_ | (with_reducible refine (onHandle_keep _ _ _ _ _ _ (fun _ _ => ?_)).trans ?_) | (simp only [keep_mk, keep_ite, ite_self, id_eq, onHandle_keep, releaseAct_keep]; with_reducible (first | (with_reducible refine (onHandle_keep _ _ _ _ _ _ (fun _ _ => ?_)).trans ?_))) | split)
theorem execQueryPlan_frame {n} {wq} {i} {s t : State} (hs : s.Settled) (h : execQueryPlan n wq i s = .next t) : Frame s t := by
  refine run_frame _ hs (fun d => ?_) h
  repeat' (first
    | with_reducible rfl | (simp only [keep_mk, keep_ite, ite_self, id_eq, onEntry_keep, planAct_keep]; done)
    | with_reducible refine ite_of ?_ ?_ | (with_reducible refine (onEntry_keep _ _ _ _ _ _ (fun _ _ => ?_)).trans ?_) | split)
theorem execQueryBudget_frame {n} {wq} {i} {s t : State} (hs : s.Settled) (h : execQueryBudget n wq i s = .next t) : Frame s t := by
  refine run_frame _ hs (fun d => ?_) h
  repeat' (first
    | with_reducible rfl | (simp only [keep_mk, keep_ite, ite_self, id_eq, onEntry_keep, resultWe_keep]; done)
    | with_reducible refine ite_of ?_ ?_ | (with_reducible refine (onEntry_keep _ _ _ _ _ _ (fun _ _ => ?_)).trans ?_) | split)
theorem execHostStructureReadComplete_frame {n} {wq} {i} {data} {s t : State} (hs : s.Settled) (h : execHostStructureReadComplete n wq i data s = .next t) : Frame s t :=
  run_frame _ hs (fun _ => structArrived_keep ..) h
theorem execModTimeExpiry_frame {n} {cq} {s t : State} (hs : s.Settled) (h : execModTimeExpiry n cq s = .next t) : Frame s t := by
  refine run_frame _ hs (fun d => ?_) h
  repeat' (first
    | with_reducible rfl | (simp only [keep_mk, keep_ite, ite_self, id_eq, cqMessage_keep]; done)
    | with_reducible refine ite_of ?_ ?_ | split)
theorem execCiWriteDeadline_frame {n} {wq} {s t : State} (hs : s.Settled) (h : execCiWriteDeadline n wq s = .next t) : Frame s t := by
  refine run_frame _ hs (fun d => ?_) h
  repeat' (first
    | with_reducible rfl | (simp only [keep_mk, keep_ite, ite_self, id_eq, writeCi_keep]; done)
    | with_reducible refine ite_of ?_ ?_ | split)
theorem execTransferEntryReadComplete_frame {n} {h} {ep} {stream} {data} {s t : State} (hs : s.Settled) (h : execTransferEntryReadComplete n h ep stream data s = .next t) : Frame s t := by
  refine run_frame _ hs (fun d => ?_) h
  repeat' (first
    | with_reducible rfl | (simp only [keep_mk, keep_ite, ite_self, id_eq, goStop_keep, onRead_keep, transferEntriesArrived_keep]; done)
    | with_reducible refine ite_of ?_ ?_ | (with_reducible refine (onRead_keep _ _ _ _ (fun _ _ => ?_)).trans ?_) | (simp only [keep_mk, keep_ite, ite_self, id_eq, goStop_keep, onRead_keep, transferEntriesArrived_keep]; with_reducible (first | (with_reducible refine (onRead_keep _ _ _ _ (fun _ _ => ?_)).trans ?_))) | split)
theorem execFragmentTableReadComplete_frame {n} {h} {ep} {stream} {data} {s t : State} (hs : s.Settled) (h : execFragmentTableReadComplete n h ep stream data s = .next t) : Frame s t := by
  refine run_frame _ hs (fun d => ?_) h
  repeat' (first
    | with_reducible rfl | (simp only [keep_mk, keep_ite, ite_self, id_eq, fragmentTableArrived_keep, onRead_keep]; done)
    | with_reducible refine ite_of ?_ ?_ | (with_reducible refine (onRead_keep _ _ _ _ (fun _ _ => ?_)).trans ?_) | split)
theorem execStreamContextReadComplete_frame {n} {h} {ep} {stream} {data} {s t : State} (hs : s.Settled) (h : execStreamContextReadComplete n h ep stream data s = .next t) : Frame s t := by
  refine run_frame _ hs (fun d => ?_) h
  repeat' (first
    | with_reducible rfl | (simp only [keep_mk, keep_ite, ite_self, id_eq, onRead_keep, streamCtxArrived_keep]; done)
    | with_reducible refine ite_of ?_ ?_ | (with_reducible refine (onRead_keep _ _ _ _ (fun _ _ => ?_)).trans ?_) | split)
theorem execContextLoadComplete_frame {n} {h} {ep} {data} {s t : State} (hs : s.Settled) (h : execContextLoadComplete n h ep data s = .next t) : Frame s t := by
  refine run_frame _ hs (fun d => ?_) h
  repeat' (first
    | with_reducible rfl | (simp only [keep_mk, keep_ite, ite_self, id_eq, contextArrived_keep, onRead_keep]; done)
    | with_reducible refine ite_of ?_ ?_ | (with_reducible refine (onRead_keep _ _ _ _ (fun _ _ => ?_)).trans ?_) | split)
theorem execDataReadComplete_frame {n} {h} {ep} {stream} {off} {bytes} {sealBad} {s t : State} (hs : s.Settled) (h : execDataReadComplete n h ep stream off bytes sealBad s = .next t) : Frame s t :=
  run_frame _ hs (fun _ => dataCompleted_keep ..) h
theorem execHostReadFailure_frame {n} {r} {k} {s t : State} (hs : s.Settled) (h : execHostReadFailure n r k s = .next t) : Frame s t := by
  refine run_frame _ hs (fun d => ?_) h
  repeat' (first
    | with_reducible rfl | (simp only [keep_mk, keep_ite, ite_self, id_eq, hostFailed_keep]; done)
    | with_reducible refine ite_of ?_ ?_ | split)
theorem execCompletionTimeout_frame {n} {r} {s t : State} (hs : s.Settled) (h : execCompletionTimeout n r s = .next t) : Frame s t :=
  run_frame _ hs (fun _ => timedOut_keep ..) h
theorem execConfirmReadIssue_frame {n} {f} {s t : State} (hs : s.Settled) (h : execConfirmReadIssue n f s = .next t) : Frame s t :=
  run_frame _ hs (fun _ => confirmIssue_keep ..) h
theorem execConfirmReadComplete_frame {n} {f} {s t : State} (hs : s.Settled) (h : execConfirmReadComplete n f s = .next t) : Frame s t :=
  run_frame _ hs (fun _ => confirmDone_keep ..) h
theorem execFlushReadIssue_frame {n} {cq} {s t : State} (hs : s.Settled) (h : execFlushReadIssue n cq s = .next t) : Frame s t :=
  run_frame _ hs (fun _ => flushIssue_keep ..) h
theorem execFunnelHoldExpiry_frame {n} {h} {ep} {stream} {s t : State} (hs : s.Settled) (h : execFunnelHoldExpiry n h ep stream s = .next t) : Frame s t := by
  refine run_frame _ hs (fun d => ?_) h
  repeat' (first
    | with_reducible rfl | (simp only [keep_mk, keep_ite, ite_self, id_eq, flushIn_keep]; done)
    | with_reducible refine ite_of ?_ ?_ | split)
theorem execUsb2TransactionResponse_frame {p} {h} {ep} {r} {sealBad} {s t : State} (hs : s.Settled) (h : execUsb2TransactionResponse p h ep r sealBad s = .next t) : Frame s t := by
  refine run_frame _ hs (fun d => ?_) h
  repeat' (first
    | with_reducible rfl | (simp only [keep_mk, keep_ite, ite_self, id_eq, npResponse_keep, onPortEp_keep, settlePort_keep]; done)
    | with_reducible refine ite_of ?_ ?_ | (with_reducible refine (onPortEp_keep _ _ _ _ _ (fun _ _ => ?_)).trans ?_) | (simp only [keep_mk, keep_ite, ite_self, id_eq, npResponse_keep, onPortEp_keep, settlePort_keep]; with_reducible (first | (with_reducible refine (onPortEp_keep _ _ _ _ _ (fun _ _ => ?_)).trans ?_))) | split)
theorem execPeriodicTransactionResponse_frame {p} {h} {ep} {r} {sealBad} {s t : State} (hs : s.Settled) (h : execPeriodicTransactionResponse p h ep r sealBad s = .next t) : Frame s t := by
  refine run_frame _ hs (fun d => ?_) h
  repeat' (first
    | with_reducible rfl | (simp only [keep_mk, keep_ite, ite_self, id_eq, onPortPer_keep, perResponse_keep]; done)
    | with_reducible refine ite_of ?_ ?_ | (with_reducible refine (onPortPer_keep _ _ _ _ _ (fun _ _ => ?_)).trans ?_) | split)
theorem execSplitResponse_frame {p} {h} {ep} {r} {s t : State} (hs : s.Settled) (h : execSplitResponse p h ep r s = .next t) : Frame s t := by
  refine run_frame _ hs (fun d => ?_) h
  repeat' (first
    | with_reducible rfl | (simp only [keep_mk, keep_ite, ite_self, id_eq, onPortPer_keep, splitAnswer_keep]; done)
    | with_reducible refine ite_of ?_ ?_ | (with_reducible refine (onPortPer_keep _ _ _ _ _ (fun _ _ => ?_)).trans ?_) | (simp only [keep_mk, keep_ite, ite_self, id_eq, onPortPer_keep, splitAnswer_keep]; with_reducible (first | (with_reducible refine (onPortPer_keep _ _ _ _ _ (fun _ _ => ?_)).trans ?_))) | split)
theorem execTransactionTimeout_frame {p} {h} {ep} {s t : State} (hs : s.Settled) (h : execTransactionTimeout p h ep s = .next t) : Frame s t := by
  refine run_frame _ hs (fun d => ?_) h
  repeat' (first
    | with_reducible rfl | (simp only [keep_mk, keep_ite, ite_self, id_eq, noResponse_keep, onPortPer_keep]; done)
    | with_reducible refine ite_of ?_ ?_ | (with_reducible refine (onPortPer_keep _ _ _ _ _ (fun _ _ => ?_)).trans ?_) | split)
theorem execNonperiodicTurn_frame {p} {b} {s t : State} (hs : s.Settled) (h : execNonperiodicTurn p b s = .next t) : Frame s t :=
  run_frame _ hs (fun _ => npTurn_keep ..) h
theorem execRepollIntervalExpiry_frame {p} {h} {ep} {s t : State} (hs : s.Settled) (h : execRepollIntervalExpiry p h ep s = .next t) : Frame s t := by
  refine run_frame _ hs (fun d => ?_) h
  repeat' (first
    | with_reducible rfl | (simp only [keep_mk, keep_ite, ite_self, id_eq, Dev.modEpBus_keep, onPortEp_keep]; done)
    | with_reducible refine ite_of ?_ ?_ | (with_reducible refine (onPortEp_keep _ _ _ _ _ (fun _ _ => ?_)).trans ?_) | split)
theorem execPortBabble_frame {p} {h} {ep} {s t : State} (hs : s.Settled) (h : execPortBabble p h ep s = .next t) : Frame s t :=
  run_frame _ hs (fun _ => portBabbled_keep ..) h
theorem execNrdyReceived_frame {p} {h} {ep} {stream} {s t : State} (hs : s.Settled) (h : execNrdyReceived p h ep stream s = .next t) : Frame s t := by
  refine run_frame _ hs (fun d => ?_) h
  repeat' (first
    | with_reducible rfl | (simp only [keep_mk, keep_ite, ite_self, id_eq, nrdy_keep, onPortPer_keep]; done)
    | with_reducible refine ite_of ?_ ?_ | (with_reducible refine (onPortPer_keep _ _ _ _ _ (fun _ _ => ?_)).trans ?_) | split)
theorem execErdyReceived_frame {p} {h} {ep} {stream} {s t : State} (hs : s.Settled) (h : execErdyReceived p h ep stream s = .next t) : Frame s t :=
  run_frame _ hs (fun _ => erdy_keep ..) h
theorem execFunctionWakeReceived_frame {p} {intf} {s t : State} (hs : s.Settled) (h : execFunctionWakeReceived p intf s = .next t) : Frame s t := by
  refine run_frame _ hs (fun d => ?_) h
  repeat' (first
    | with_reducible rfl | (simp only [keep_mk, keep_ite, ite_self, id_eq, Dev.modBus_keep, portEvent_keep]; done)
    | with_reducible refine ite_of ?_ ?_ | split)
theorem execPullupSeen_frame {p} {lowSpeed} {s t : State} (hs : s.Settled) (h : execPullupSeen p lowSpeed s = .next t) : Frame s t :=
  run_frame _ hs (fun _ => pullup_keep ..) h
theorem execConnectDebounceEnd_frame {p} {s t : State} (hs : s.Settled) (h : execConnectDebounceEnd p s = .next t) : Frame s t :=
  run_frame _ hs (fun _ => debounced_keep ..) h
theorem execUsb2Disconnect_frame {p} {s t : State} (hs : s.Settled) (h : execUsb2Disconnect p s = .next t) : Frame s t :=
  run_frame _ hs (fun _ => disconnect2_keep ..) h
theorem execResetDriveEnd_frame {p} {chirped} {s t : State} (hs : s.Settled) (h : execResetDriveEnd p chirped s = .next t) : Frame s t :=
  run_frame _ hs (fun _ => resetDriven_keep ..) h
theorem execRecoveryEnd_frame {p} {b} {s t : State} (hs : s.Settled) (h : execRecoveryEnd p b s = .next t) : Frame s t :=
  run_frame _ hs (fun _ => recovered_keep ..) h
theorem execResumeDriveEnd_frame {p} {s t : State} (hs : s.Settled) (h : execResumeDriveEnd p s = .next t) : Frame s t :=
  run_frame _ hs (fun _ => driven_keep ..) h
theorem execSuspendReached_frame {p} {s t : State} (hs : s.Settled) (h : execSuspendReached p s = .next t) : Frame s t :=
  run_frame _ hs (fun _ => suspended_keep ..) h
theorem execPartnerKDetected_frame {p} {within1ms} {s t : State} (hs : s.Settled) (h : execPartnerKDetected p within1ms s = .next t) : Frame s t :=
  run_frame _ hs (fun _ => partnerK_keep ..) h
theorem execLpmAnswer_frame {p} {a} {s t : State} (hs : s.Settled) (h : execLpmAnswer p a s = .next t) : Frame s t :=
  run_frame _ hs (fun _ => lpmDone_keep ..) h
theorem execSsTerminationsDetected_frame {p} {s t : State} (hs : s.Settled) (h : execSsTerminationsDetected p s = .next t) : Frame s t :=
  run_frame _ hs (fun _ => terminations_keep ..) h
theorem execRxDetectProbe_frame {p} {s t : State} (hs : s.Settled) (h : execRxDetectProbe p s = .next t) : Frame s t :=
  run_frame _ hs (fun _ => probe_keep ..) h
theorem execSsTrainingComplete_frame {p} {gen2} {s t : State} (hs : s.Settled) (h : execSsTrainingComplete p gen2 s = .next t) : Frame s t :=
  run_frame _ hs (fun _ => trained_keep ..) h
theorem execPollingTimeout_frame {p} {s t : State} (hs : s.Settled) (h : execPollingTimeout p s = .next t) : Frame s t :=
  run_frame _ hs (fun _ => pollTimeout_keep ..) h
theorem execU1U2InactivityTimeout_frame {p} {u2} {s t : State} (hs : s.Settled) (h : execU1U2InactivityTimeout p u2 s = .next t) : Frame s t :=
  run_frame _ hs (fun _ => inactive_keep ..) h
theorem execPartnerLgo_frame {p} {u2} {s t : State} (hs : s.Settled) (h : execPartnerLgo p u2 s = .next t) : Frame s t :=
  run_frame _ hs (fun _ => partnerLgoU_keep ..) h
theorem execPartnerU1U2Exit_frame {p} {s t : State} (hs : s.Settled) (h : execPartnerU1U2Exit p s = .next t) : Frame s t := by
  refine run_frame _ hs (fun d => ?_) h
  repeat' (first
    | with_reducible rfl | (simp only [keep_mk, keep_ite, ite_self, id_eq, Dev.modBus_keep]; done)
    | with_reducible refine ite_of ?_ ?_ | split)
theorem execLauReceived_frame {p} {s t : State} (hs : s.Settled) (h : execLauReceived p s = .next t) : Frame s t :=
  run_frame _ hs (fun _ => lau_keep ..) h
theorem execU3EntryTimeout_frame {p} {s t : State} (hs : s.Settled) (h : execU3EntryTimeout p s = .next t) : Frame s t :=
  run_frame _ hs (fun _ => u3Timeout_keep ..) h
theorem execU3ExitLfps_frame {p} {partner} {s t : State} (hs : s.Settled) (h : execU3ExitLfps p partner s = .next t) : Frame s t :=
  run_frame _ hs (fun _ => u3Exit_keep ..) h
theorem execSsRecoveryFailed_frame {p} {s t : State} (hs : s.Settled) (h : execSsRecoveryFailed p s = .next t) : Frame s t :=
  run_frame _ hs (fun _ => ssRecFailed_keep ..) h
theorem execSsTerminationsLost_frame {p} {s t : State} (hs : s.Settled) (h : execSsTerminationsLost p s = .next t) : Frame s t :=
  run_frame _ hs (fun _ => terminationsLost_keep ..) h
theorem execSsResetEnd_frame {p} {gen2} {s t : State} (hs : s.Settled) (h : execSsResetEnd p gen2 s = .next t) : Frame s t :=
  run_frame _ hs (fun _ => ssResetDone_keep ..) h
theorem execPowerCycleOffEnd_frame {p} {s t : State} (hs : s.Settled) (h : execPowerCycleOffEnd p s = .next t) : Frame s t := by
  refine runP_frame _ hs (fun d => ?_) h
  repeat' (first
    | with_reducible rfl | (simp only [keep_mk, keep_ite, ite_self, id_eq, Dev.modTc_keep, tryArm_keep]; done)
    | with_reducible refine ite_of ?_ ?_ | split)
theorem execSinopiaDown_frame {w} {s t : State} (hs : s.Settled) (h : execSinopiaDown w s = .next t) : Frame s t :=
  run_frame _ hs (fun _ => sinopiaLost_keep ..) h
theorem execSinopiaRetrainAttempt_frame {s t : State} (hs : s.Settled) (h : execSinopiaRetrainAttempt s = .next t) : Frame s t :=
  run_frame _ hs (fun _ => retrain_keep ..) h
theorem execSinopiaLinkUp_frame {s t : State} (hs : s.Settled) (h : execSinopiaLinkUp s = .next t) : Frame s t :=
  run_frame _ hs (fun _ => sinopiaUp_keep ..) h
theorem execSinopiaHoldExpiry_frame {s t : State} (hs : s.Settled) (h : execSinopiaHoldExpiry s = .next t) : Frame s t := by
  refine run_frame _ hs (fun d => ?_) h
  repeat' (first
    | with_reducible rfl | (simp only [keep_mk, keep_ite, ite_self, id_eq, forEach_keep, pathBack_keep]; done)
    | with_reducible refine ite_of ?_ ?_ | (with_reducible refine (forEach_keep _ _ _ (fun _ _ => ?_)).trans ?_) | split)
theorem execSinopiaSyncReceived_frame {offsetNs} {s t : State} (hs : s.Settled) (h : execSinopiaSyncReceived offsetNs s = .next t) : Frame s t :=
  run_frame _ hs (fun _ => sync_keep ..) h
theorem execSinopiaDataMessage_frame {dst} {m} {s t : State} (hs : s.Settled) (h : execSinopiaDataMessage dst m s = .next t) : Frame s t :=
  run_frame _ hs (fun _ => dataMsg_keep ..) h
theorem execSinopiaFenceMessage_frame {dst} {n} {s t : State} (hs : s.Settled) (h : execSinopiaFenceMessage dst n s = .next t) : Frame s t := by
  refine run_frame _ hs (fun d => ?_) h
  repeat' (first
    | with_reducible rfl | (simp only [keep_mk, keep_ite, ite_self, id_eq, fence_keep]; done)
    | with_reducible refine ite_of ?_ ?_ | split)
theorem execSinopiaFlitCrcError_frame {src} {s t : State} (hs : s.Settled) (h : execSinopiaFlitCrcError src s = .next t) : Frame s t := by
  refine run_frame _ hs (fun d => ?_) h
  repeat' (first
    | with_reducible rfl | (simp only [keep_mk, keep_ite, ite_self, id_eq, emit_keep]; done)
    | with_reducible refine ite_of ?_ ?_ | split)
theorem execSinopiaLaneRetire_frame {src} {s t : State} (hs : s.Settled) (h : execSinopiaLaneRetire src s = .next t) : Frame s t :=
  run_frame _ hs (fun _ => laneRetire_keep ..) h
theorem execArbiterTurn_frame {a} {reqs} {s t : State} (hs : s.Settled) (h : execArbiterTurn a reqs s = .next t) : Frame s t :=
  run_frame _ hs (fun _ => arbTurn_keep ..) h
theorem execQuiesceDrainEnd_frame {n} {s t : State} (hs : s.Settled) (h : execQuiesceDrainEnd n s = .next t) : Frame s t :=
  run_frame _ hs (fun _ => quiesceEnd_keep ..) h
theorem execQuiesceTimeoutExpiry_frame {n} {enginesBusy} {s t : State} (hs : s.Settled) (h : execQuiesceTimeoutExpiry n enginesBusy s = .next t) : Frame s t :=
  run_frame _ hs (fun _ => quiesceTimeout_keep ..) h
theorem execFenceBusResetTimeout_frame {p} {s t : State} (hs : s.Settled) (h : execFenceBusResetTimeout p s = .next t) : Frame s t :=
  run_frame _ hs (fun _ => fenceReset_keep ..) h
theorem execFenceReq_frame {f} {v} {s t : State} (hs : s.Settled) (h : execFenceReq f v s = .next t) : Frame s t :=
  runP_frame _ hs (fun _ => fenceReq_keep ..) h
theorem execFenceReqAll_frame {f} {v} {s t : State} (hs : s.Settled) (h : execFenceReqAll f v s = .next t) : Frame s t :=
  runP_frame _ hs (fun _ => fenceReq_keep ..) h
theorem execPgDrainEnd_frame {g} {s t : State} (hs : s.Settled) (h : execPgDrainEnd g s = .next t) : Frame s t :=
  runP_frame _ hs (fun _ => drainEnd_keep ..) h
theorem execCcChange_frame {p} {cc1} {cc2} {s t : State} (hs : s.Settled) (h : execCcChange p cc1 cc2 s = .next t) : Frame s t :=
  runP_frame _ hs (fun _ => ccChanged_keep ..) h
theorem execTdrpToggle_frame {p} {s t : State} (hs : s.Settled) (h : execTdrpToggle p s = .next t) : Frame s t :=
  runP_frame _ hs (fun _ => toggle_keep ..) h
theorem execTccdebounceExpiry_frame {p} {s t : State} (hs : s.Settled) (h : execTccdebounceExpiry p s = .next t) : Frame s t := by
  refine runP_frame _ hs (fun d => ?_) h
  repeat' (first
    | with_reducible rfl | (simp only [keep_mk, keep_ite, ite_self, id_eq, Dev.modTc_keep, debounced_keep, tcHeld_keep]; done)
    | with_reducible refine ite_of ?_ ?_ | split)
theorem execTpddebounceExpiry_frame {p} {s t : State} (hs : s.Settled) (h : execTpddebounceExpiry p s = .next t) : Frame s t :=
  runP_frame _ hs (fun _ => openHeld_keep ..) h
theorem execTtryccdebounceExpiry_frame {p} {s t : State} (hs : s.Settled) (h : execTtryccdebounceExpiry p s = .next t) : Frame s t :=
  runP_frame _ hs (fun _ => tryHeld_keep ..) h
theorem execTdrptryExpiry_frame {p} {s t : State} (hs : s.Settled) (h : execTdrptryExpiry p s = .next t) : Frame s t :=
  runP_frame _ hs (fun _ => drpTry_keep ..) h
theorem execTtrytimeoutExpiry_frame {p} {s t : State} (hs : s.Settled) (h : execTtrytimeoutExpiry p s = .next t) : Frame s t := by
  refine runP_frame _ hs (fun d => ?_) h
  repeat' (first
    | with_reducible rfl | (simp only [keep_mk, keep_ite, ite_self, id_eq, tcGo_keep]; done)
    | with_reducible refine ite_of ?_ ?_ | split)
theorem execTerrorrecoveryExpiry_frame {p} {s t : State} (hs : s.Settled) (h : execTerrorrecoveryExpiry p s = .next t) : Frame s t := by
  refine runP_frame _ hs (fun d => ?_) h
  repeat' (first
    | with_reducible rfl | (simp only [keep_mk, keep_ite, ite_self, id_eq, errorRecovery_keep, tcGo_keep, tcNow_keep]; done)
    | with_reducible refine ite_of ?_ ?_ | split)
theorem execVsnsSample_frame {p} {code} {s t : State} (hs : s.Settled) (h : execVsnsSample p code s = .next t) : Frame s t :=
  runP_frame _ hs (fun _ => vsns_keep ..) h
theorem execVddCcRise_frame {p} {s t : State} (hs : s.Settled) (h : execVddCcRise p s = .next t) : Frame s t := by
  refine runP_frame _ hs (fun d => ?_) h
  repeat' (first
    | with_reducible rfl | (simp only [keep_mk, keep_ite, ite_self, id_eq, Dev.modTc_keep, tryArm_keep]; done)
    | with_reducible refine ite_of ?_ ?_ | split)
theorem execPdMessageReceived_frame {p} {so} {rev3} {id} {m} {s t : State} (hs : s.Settled) (h : execPdMessageReceived p so rev3 id m s = .next t) : Frame s t :=
  runP_frame _ hs (fun _ => messageIn_keep ..) h
theorem execPdGoodcrcReceived_frame {p} {so} {id} {s t : State} (hs : s.Settled) (h : execPdGoodcrcReceived p so id s = .next t) : Frame s t :=
  runP_frame _ hs (fun _ => goodCrcIn_keep ..) h
theorem execTreceiveExpiry_frame {p} {so} {s t : State} (hs : s.Settled) (h : execTreceiveExpiry p so s = .next t) : Frame s t :=
  runP_frame _ hs (fun _ => noGoodCrc_keep ..) h
theorem execHardResetReceived_frame {p} {s t : State} (hs : s.Settled) (h : execHardResetReceived p s = .next t) : Frame s t := by
  refine runP_frame _ hs (fun d => ?_) h
  repeat' (first
    | with_reducible rfl | (simp only [keep_mk, keep_ite, ite_self, id_eq, hardReset_keep]; done)
    | with_reducible refine ite_of ?_ ?_ | split)
theorem execCableResetReceived_frame {p} {s t : State} (hs : s.Settled) (h : execCableResetReceived p s = .next t) : Frame s t := by
  refine runP_frame _ hs (fun d => ?_) h
  repeat' (first
    | with_reducible rfl | (simp only [keep_mk, keep_ite, ite_self, id_eq, Dev.modSeq_keep]; done)
    | with_reducible refine ite_of ?_ ?_ | split)
theorem execTsinktxExpiry_frame {p} {s t : State} (hs : s.Settled) (h : execTsinktxExpiry p s = .next t) : Frame s t := by
  refine runP_frame _ hs (fun d => ?_) h
  repeat' (first
    | with_reducible rfl | (simp only [keep_mk, keep_ite, ite_self, id_eq, Dev.modSeq_keep, pdSend_keep]; done)
    | with_reducible refine ite_of ?_ ?_ | split)
theorem execPpeAutoAnswer_frame {p} {s t : State} (hs : s.Settled) (h : execPpeAutoAnswer p s = .next t) : Frame s t := by
  refine runP_frame _ hs (fun d => ?_) h
  repeat' (first
    | with_reducible rfl | (simp only [keep_mk, keep_ite, ite_self, id_eq, Dev.modSeq_keep, ppeAnswer_keep]; done)
    | with_reducible refine ite_of ?_ ?_ | split)
theorem execTsenderresponseExpiry_frame {p} {s t : State} (hs : s.Settled) (h : execTsenderresponseExpiry p s = .next t) : Frame s t :=
  runP_frame _ hs (fun _ => noAnswerIn_keep ..) h
theorem execTsrctransitionExpiry_frame {p} {s t : State} (hs : s.Settled) (h : execTsrctransitionExpiry p s = .next t) : Frame s t :=
  runP_frame _ hs (fun _ => srcTransition_keep ..) h
theorem execTpssourceoffExpiry_frame {p} {s t : State} (hs : s.Settled) (h : execTpssourceoffExpiry p s = .next t) : Frame s t :=
  runP_frame _ hs (fun _ => swapTimeout_keep ..) h
theorem execTpssourceonExpiry_frame {p} {s t : State} (hs : s.Settled) (h : execTpssourceonExpiry p s = .next t) : Frame s t :=
  runP_frame _ hs (fun _ => swapTimeout_keep ..) h
theorem execTswapsourcestartExpiry_frame {p} {s t : State} (hs : s.Settled) (h : execTswapsourcestartExpiry p s = .next t) : Frame s t := by
  refine runP_frame _ hs (fun d => ?_) h
  repeat' (first
    | with_reducible rfl | (simp only [keep_mk, keep_ite, ite_self, id_eq, pdSend_keep]; done)
    | with_reducible refine ite_of ?_ ?_ | split)
theorem execTtypecsendsourcecapExpiry_frame {p} {s t : State} (hs : s.Settled) (h : execTtypecsendsourcecapExpiry p s = .next t) : Frame s t :=
  runP_frame _ hs (fun _ => capsAgain_keep ..) h
theorem execTfirstsourcecapExpiry_frame {p} {s t : State} (hs : s.Settled) (h : execTfirstsourcecapExpiry p s = .next t) : Frame s t := by
  refine runP_frame _ hs (fun d => ?_) h
  repeat' (first
    | with_reducible rfl | (simp only [keep_mk, keep_ite, ite_self, id_eq, Dev.modPd_keep, firstCaps_keep]; done)
    | with_reducible refine ite_of ?_ ?_ | split)
theorem execTdiscoveridentityExpiry_frame {p} {s t : State} (hs : s.Settled) (h : execTdiscoveridentityExpiry p s = .next t) : Frame s t :=
  runP_frame _ hs (fun _ => identityTimeout_keep ..) h
theorem execTvconnsourceonExpiry_frame {p} {s t : State} (hs : s.Settled) (h : execTvconnsourceonExpiry p s = .next t) : Frame s t := by
  refine runP_frame _ hs (fun d => ?_) h
  repeat' (first
    | with_reducible rfl | (simp only [keep_mk, keep_ite, ite_self, id_eq, hardReset_keep]; done)
    | with_reducible refine ite_of ?_ ?_ | split)
theorem execTsinkrequestExpiry_frame {p} {s t : State} (hs : s.Settled) (h : execTsinkrequestExpiry p s = .next t) : Frame s t := by
  refine runP_frame _ hs (fun d => ?_) h
  repeat' (first
    | with_reducible rfl | (simp only [keep_mk, keep_ite, ite_self, id_eq, Dev.modSeq_keep, pdBegin_keep]; done)
    | with_reducible refine ite_of ?_ ?_ | split)
theorem execTnoresponseExpiry_frame {p} {s t : State} (hs : s.Settled) (h : execTnoresponseExpiry p s = .next t) : Frame s t := by
  refine runP_frame _ hs (fun d => ?_) h
  repeat' (first
    | with_reducible rfl | (simp only [keep_mk, keep_ite, ite_self, id_eq, Dev.modSeq_keep, errorRecovery_keep]; done)
    | with_reducible refine ite_of ?_ ?_ | split)
theorem execTpshardresetExpiry_frame {p} {s t : State} (hs : s.Settled) (h : execTpshardresetExpiry p s = .next t) : Frame s t := by
  refine runP_frame _ hs (fun d => ?_) h
  repeat' (first
    | with_reducible rfl | (simp only [keep_mk, keep_ite, ite_self, id_eq, Dev.modSeq_keep, stageOff_keep]; done)
    | with_reducible refine ite_of ?_ ?_ | split)
theorem execTsrcrecoverExpiry_frame {p} {s t : State} (hs : s.Settled) (h : execTsrcrecoverExpiry p s = .next t) : Frame s t := by
  refine runP_frame _ hs (fun d => ?_) h
  repeat' (first
    | with_reducible rfl | (simp only [keep_mk, keep_ite, ite_self, id_eq, Dev.modSeq_keep, stageSource_keep]; done)
    | with_reducible refine ite_of ?_ ?_ | split)
theorem execThardresetcompleteExpiry_frame {p} {s t : State} (hs : s.Settled) (h : execThardresetcompleteExpiry p s = .next t) : Frame s t :=
  runP_frame _ hs (fun _ => hardResetDone_keep ..) h
theorem execTchunksenderresponseExpiry_frame {p} {s t : State} (hs : s.Settled) (h : execTchunksenderresponseExpiry p s = .next t) : Frame s t := by
  refine runP_frame _ hs (fun d => ?_) h
  repeat' (first
    | with_reducible rfl | (simp only [keep_mk, keep_ite, ite_self, id_eq, Dev.modSeq_keep]; done)
    | with_reducible refine ite_of ?_ ?_ | split)
theorem execTppstimeoutExpiry_frame {p} {s t : State} (hs : s.Settled) (h : execTppstimeoutExpiry p s = .next t) : Frame s t := by
  refine runP_frame _ hs (fun d => ?_) h
  repeat' (first
    | with_reducible rfl | (simp only [keep_mk, keep_ite, ite_self, id_eq, hardReset_keep]; done)
    | with_reducible refine ite_of ?_ ?_ | split)
theorem execTsourceeprkeepaliveExpiry_frame {p} {s t : State} (hs : s.Settled) (h : execTsourceeprkeepaliveExpiry p s = .next t) : Frame s t := by
  refine runP_frame _ hs (fun d => ?_) h
  repeat' (first
    | with_reducible rfl | (simp only [keep_mk, keep_ite, ite_self, id_eq, hardReset_keep]; done)
    | with_reducible refine ite_of ?_ ?_ | split)
theorem execTvbusonExpiry_frame {p} {s t : State} (hs : s.Settled) (h : execTvbusonExpiry p s = .next t) : Frame s t := by
  refine runP_frame _ hs (fun d => ?_) h
  repeat' (first
    | with_reducible rfl | (simp only [keep_mk, keep_ite, ite_self, id_eq, errorRecovery_keep]; done)
    | with_reducible refine ite_of ?_ ?_ | split)
theorem execPpeRestart_frame {p} {s t : State} (hs : s.Settled) (h : execPpeRestart p s = .next t) : Frame s t :=
  runP_frame _ hs (fun _ => ppeReset_keep ..) h
theorem execPslResponse_frame {g} {k} {frame} {s t : State} (hs : s.Settled) (h : execPslResponse g k frame s = .next t) : Frame s t :=
  runP_frame _ hs (fun _ => pslAnswer_keep ..) h
theorem execPslWatchPoll_frame {g} {s t : State} (hs : s.Settled) (h : execPslWatchPoll g s = .next t) : Frame s t := by
  refine runP_frame _ hs (fun d => ?_) h
  repeat' (first
    | with_reducible rfl | (simp only [keep_mk, keep_ite, ite_self, id_eq, pollGroup_keep]; done)
    | with_reducible refine ite_of ?_ ?_ | split)
theorem execPslAlert_frame {g} {s t : State} (hs : s.Settled) (h : execPslAlert g s = .next t) : Frame s t := by
  refine runP_frame _ hs (fun d => ?_) h
  repeat' (first
    | with_reducible rfl | (simp only [keep_mk, keep_ite, ite_self, id_eq, Dev.modPg_keep, forEach_keep, pslSend_keep]; done)
    | with_reducible refine ite_of ?_ ?_ | (with_reducible refine (forEach_keep _ _ _ (fun _ _ => ?_)).trans ?_) | split)
theorem execFaultRetryExpiry_frame {p} {s t : State} (hs : s.Settled) (h : execFaultRetryExpiry p s = .next t) : Frame s t := by
  refine runP_frame _ hs (fun d => ?_) h
  repeat' (first
    | with_reducible rfl | (simp only [keep_mk, keep_ite, ite_self, id_eq, Dev.modTc_keep, tryArm_keep]; done)
    | with_reducible refine ite_of ?_ ?_ | split)
theorem execForceSafeNFall_frame {s t : State} (hs : s.Settled) (h : execForceSafeNFall s = .next t) : Frame s t :=
  runP_frame _ hs (fun _ => forceSafe_keep ..) h
theorem execForceSafeNRise_frame {s t : State} (hs : s.Settled) (h : execForceSafeNRise s = .next t) : Frame s t :=
  runP_frame _ hs (fun _ => forceSafe_keep ..) h
theorem execIlimitClipTimer_frame {p} {s t : State} (hs : s.Settled) (h : execIlimitClipTimer p s = .next t) : Frame s t := by
  refine runP_frame _ hs (fun d => ?_) h
  repeat' (first
    | with_reducible rfl | (simp only [keep_mk, keep_ite, ite_self, id_eq, Dev.modStage_keep, stageLimit_keep]; done)
    | with_reducible refine ite_of ?_ ?_ | split)
theorem execSupplyAlertFall_frame {s t : State} (hs : s.Settled) (h : execSupplyAlertFall s = .next t) : Frame s t := by
  refine runP_frame _ hs (fun d => ?_) h
  repeat' (first
    | with_reducible rfl | (simp only [keep_mk, keep_ite, ite_self, id_eq, allocate_keep, raise_keep]; done)
    | with_reducible refine ite_of ?_ ?_ | split)
theorem execSupplyAlertRise_frame {s t : State} (hs : s.Settled) (h : execSupplyAlertRise s = .next t) : Frame s t := by
  refine runP_frame _ hs (fun d => ?_) h
  repeat' (first
    | with_reducible rfl | (simp only [keep_mk, keep_ite, ite_self, id_eq]; done)
    | with_reducible refine ite_of ?_ ?_ | split)
theorem execAlertHoldExpiry_frame {s t : State} (hs : s.Settled) (h : execAlertHoldExpiry s = .next t) : Frame s t := by
  refine runP_frame _ hs (fun d => ?_) h
  repeat' (first
    | with_reducible rfl | (simp only [keep_mk, keep_ite, ite_self, id_eq, allocate_keep]; done)
    | with_reducible refine ite_of ?_ ?_ | split)
theorem execAllocationRun_frame {s t : State} (hs : s.Settled) (h : execAllocationRun s = .next t) : Frame s t :=
  runP_frame _ hs (fun _ => allocate_keep ..) h
theorem execTaskTake_frame {c} {s t : State} (hs : s.Settled) (h : execTaskTake c s = .next t) : Frame s t :=
  run_frame _ hs (fun _ => take_keep ..) h
theorem execTaskPost_frame {c} {d} {s t : State} (hs : s.Settled) (h : execTaskPost c d s = .next t) : Frame s t :=
  run_frame _ hs (fun _ => postTask_keep ..) h
theorem execEaselTick_frame {h} {s t : State} (hs : s.Settled) (h : execEaselTick h s = .next t) : Frame s t :=
  run_frame _ hs (fun _ => easelTick_keep ..) h
theorem execEventRaise_frame {c} {v} {s t : State} (hs : s.Settled) (h : execEventRaise c v s = .next t) : Frame s t :=
  run_frame _ hs (fun _ => builderEvent_keep ..) h
theorem execGessoVote_frame {s t : State} (hs : s.Settled) (h : execGessoVote s = .next t) : Frame s t := by
  refine run_frame _ hs (fun d => ?_) h
  repeat' (first
    | with_reducible rfl | (simp only [keep_mk, keep_ite, ite_self, id_eq, raise_keep]; done)
    | with_reducible refine ite_of ?_ ?_ | split)
theorem execAbort_frame {l} {fr} {s t : State} (hs : s.Settled) (h : execAbort l fr s = .next t) : Frame s t :=
  run_frame _ hs (fun _ => clientAbort_keep ..) h
theorem execSegTimeoutExpiry_frame {l} {s t : State} (hs : s.Settled) (h : execSegTimeoutExpiry l s = .next t) : Frame s t :=
  run_frame _ hs (fun _ => segTimeout_keep ..) h
theorem execHeartbeat_frame {s t : State} (hs : s.Settled) (h : execHeartbeat s = .next t) : Frame s t :=
  run_frame _ hs (fun _ => heartbeat_keep ..) h
theorem execCanBusOff_frame {l} {s t : State} (hs : s.Settled) (h : execCanBusOff l s = .next t) : Frame s t :=
  run_frame _ hs (fun _ => canBusOff_keep ..) h
theorem execEventFrameQueueDrain_frame {l} {s t : State} (hs : s.Settled) (h : execEventFrameQueueDrain l s = .next t) : Frame s t :=
  run_frame _ hs (fun _ => drainEvents_keep ..) h
theorem execFailedStartWindowExpiry_frame {s t : State} (hs : s.Settled) (h : execFailedStartWindowExpiry s = .next t) : Frame s t := by
  refine run_frame _ hs (fun d => ?_) h
  repeat' (first
    | with_reducible rfl | (simp only [keep_mk, keep_ite, ite_self, id_eq]; done)
    | with_reducible refine ite_of ?_ ?_ | split)
theorem execWatchPeriod_frame {s t : State} (hs : s.Settled) (h : execWatchPeriod s = .next t) : Frame s t := by
  refine run_frame _ hs (fun d => ?_) h
  repeat' (first
    | with_reducible rfl | (simp only [keep_mk, keep_ite, ite_self, id_eq, emit_keep, forEach_keep]; done)
    | with_reducible refine ite_of ?_ ?_ | (with_reducible refine (forEach_keep _ _ _ (fun _ _ => ?_)).trans ?_) | split)
theorem execWakeNLow_frame {s t : State} (hs : s.Settled) (h : execWakeNLow s = .next t) : Frame s t :=
  run_frame _ hs (fun _ => wake_keep ..) h
theorem execCanWakePattern_frame {l} {id} {data} {s t : State} (hs : s.Settled) (h : execCanWakePattern l id data s = .next t) : Frame s t :=
  run_frame _ hs (fun _ => wakePattern_keep ..) h
theorem execCanDominantEdge_frame {l} {s t : State} (hs : s.Settled) (h : execCanDominantEdge l s = .next t) : Frame s t := by
  refine run_frame _ hs (fun d => ?_) h
  repeat' (first
    | with_reducible rfl | (simp only [keep_mk, keep_ite, ite_self, id_eq]; done)
    | with_reducible refine ite_of ?_ ?_ | split)
theorem execGessoLoopIdleStop_frame {s t : State} (hs : s.Settled) (h : execGessoLoopIdleStop s = .next t) : Frame s t := by
  refine run_frame _ hs (fun d => ?_) h
  repeat' (first
    | with_reducible rfl | (simp only [keep_mk, keep_ite, ite_self, id_eq]; done)
    | with_reducible refine ite_of ?_ ?_ | split)
theorem execAttachWake_frame {p} {s t : State} (hs : s.Settled) (h : execAttachWake p s = .next t) : Frame s t := by
  refine run_frame _ hs (fun d => ?_) h
  repeat' (first
    | with_reducible rfl | (simp only [keep_mk, keep_ite, ite_self, id_eq, wake_keep]; done)
    | with_reducible refine ite_of ?_ ?_ | split)
theorem execPerstWake_frame {f} {s t : State} (hs : s.Settled) (h : execPerstWake f s = .next t) : Frame s t := by
  refine run_frame _ hs (fun d => ?_) h
  repeat' (first
    | with_reducible rfl | (simp only [keep_mk, keep_ite, ite_self, id_eq, Dev.modFunc_keep, wake_keep]; done)
    | with_reducible refine ite_of ?_ ?_ | split)
theorem execUsb2BusWake_frame {p} {s t : State} (hs : s.Settled) (h : execUsb2BusWake p s = .next t) : Frame s t := by
  refine run_frame _ hs (fun d => ?_) h
  repeat' (first
    | with_reducible rfl | (simp only [keep_mk, keep_ite, ite_self, id_eq, suspended_keep, wake_keep]; done)
    | with_reducible refine ite_of ?_ ?_ | split)
theorem execPpeRestartEnd_frame {p} {ok} {s t : State} (hs : s.Settled) (h : execPpeRestartEnd p ok s = .next t) : Frame s t :=
  runP_frame _ hs (fun _ => ppeRestarted_keep ..) h
theorem execCanBusOffRecovery_frame {l} {s t : State} (hs : s.Settled) (h : execCanBusOffRecovery l s = .next t) : Frame s t :=
  run_frame _ hs (fun _ => busOffRecovery_keep ..) h

end Sys2Proof.Machine
end

