-- ==== Sys2Proof/Laws/Ops.lean ====
section
/-! SUPPORT. What the shared operations can change: events and fault records, answers, and the power settlement of a row. -/
namespace Sys2Proof.Machine

/-! ### Raising an event changes the event store, the links' frame queues, the Gesso fault record and the free-value counter -/

theorem queueEventFrame_shape (l c : Nat) (fr : List Byte) (d : Dev) :
    ∃ ev cs, queueEventFrame l c fr d = { d with events := ev, cans := cs } := by
  unfold queueEventFrame
  split
  · exact ⟨d.events, _, rfl⟩
  · exact ⟨_, _, rfl⟩

theorem putRecord_shape (sev : Nat) (e : Ev) (d : Dev) :
    ∃ k r n t f, putRecord sev e d = { d with
      freeCtr := k, gesso := { d.gesso with fr := r, frNext := n, frTotal := t, frFatal := f } } := ⟨_, _, _, _, _, rfl⟩

theorem raise_shape (e : Ev) (d : Dev) :
    ∃ ev cs k r n t f, raise e d = { d with
      events := ev, cans := cs, freeCtr := k, gesso := { d.gesso with fr := r, frNext := n, frTotal := t, frFatal := f } } := by
  have h1 : ∀ (c : Bool) (l : Nat) (fr : List Byte) (d : Dev),
      ∃ ev cs, doIf c (queueEventFrame l e.c fr) d = { d with events := ev, cans := cs } := by
    intro c l fr d
    cases c
    · exact ⟨d.events, d.cans, rfl⟩
    · exact queueEventFrame_shape l e.c fr d
  have h2 : ∀ (b : Nat → Bool) (fr : List Byte) (d : Dev),
      ∃ ev cs, forEach [0, 1] (fun l => doIf (b l) (queueEventFrame l e.c fr)) d = { d with events := ev, cans := cs } := by
    intro b fr d
    obtain ⟨e1, c1, x1⟩ := h1 (b 0) 0 fr d
    obtain ⟨e2, c2, x2⟩ := h1 (b 1) 1 fr { d with events := e1, cans := c1 }
    refine ⟨e2, c2, ?_⟩
    show doIf (b 1) (queueEventFrame 1 e.c fr) (doIf (b 0) (queueEventFrame 0 e.c fr) d) = _
    rw [x1, x2]
  have h3 : ∀ (sev : Nat) (d : Dev), ∃ k r n t f, (if sev = 0 then d else putRecord sev e d) = { d with
      freeCtr := k, gesso := { d.gesso with fr := r, frNext := n, frTotal := t, frFatal := f } } := by
    intro sev d
    split
    · exact ⟨d.freeCtr, d.gesso.fr, d.gesso.frNext, d.gesso.frTotal, d.gesso.frFatal, rfl⟩
    · exact putRecord_shape sev e d
  have h4 : ∀ (d1 : Dev) (c : Nat) (b : Nat → Bool) (fr : List Byte) (sev : Nat), ∃ ev cs k r n t f,
      (if sev = 0 then (if c = 1 then forEach [0, 1] (fun l => doIf (b l) (queueEventFrame l e.c fr)) d1 else d1)
       else putRecord sev e (if c = 1 then forEach [0, 1] (fun l => doIf (b l) (queueEventFrame l e.c fr)) d1 else d1)) =
        { d1 with events := ev, cans := cs, freeCtr := k, gesso := { d1.gesso with fr := r, frNext := n, frTotal := t, frFatal := f } } := by
    intro d1 c b fr sev
    obtain ⟨e1, c1, x1⟩ : ∃ ev cs, (if c = 1 then forEach [0, 1] (fun l => doIf (b l) (queueEventFrame l e.c fr)) d1 else d1) =
        { d1 with events := ev, cans := cs } := by
      split
      · exact h2 b fr d1
      · exact ⟨d1.events, d1.cans, rfl⟩
    rw [x1]
    obtain ⟨k, r, n, t, f, x2⟩ := h3 sev { d1 with events := e1, cans := c1 }
    exact ⟨e1, c1, k, r, n, t, f, x2⟩
  obtain ⟨ev, cs, k, r, n, t, f, h⟩ := h4 { d with events := { d.events with
      count := tabPut d.events.count e.c (tabGet 0 d.events.count e.c + 1), seconds := tabPut d.events.seconds e.c d.gesso.seconds,
      inst := tabPut d.events.inst e.c (BitVec.ofNat 16 e.inst), who := tabPut d.events.who e.c (e.slice, e.half),
      pending := d.events.pending ||| (1#256 <<< e.c) } } _ _ _ (Config.causeSeverity e.c)
  exact ⟨ev, cs, k, r, n, t, f, h⟩

/-- What raise does to the events and to the fault record: the record goes in last, for severity 1 to 3. -/
theorem raise_split (e : Ev) (d : Dev) : ∃ cs k, raise e d =
    (if Config.causeSeverity e.c = 0 then (fun d : Dev => d) else putRecord (Config.causeSeverity e.c) e) { d with
      cans := cs
      events := { d.events with
        count := tabPut d.events.count e.c (tabGet 0 d.events.count e.c + 1), seconds := tabPut d.events.seconds e.c d.gesso.seconds
        inst := tabPut d.events.inst e.c (BitVec.ofNat 16 e.inst), who := tabPut d.events.who e.c (e.slice, e.half)
        pending := d.events.pending ||| (1#256 <<< e.c), lost := k } } := by
  have h1 : ∀ (c : Bool) (l : Nat) (fr : List Byte) (d : Dev),
      ∃ cs k, doIf c (queueEventFrame l e.c fr) d = { d with cans := cs, events := { d.events with lost := k } } := by
    intro c l fr d
    cases c
    · exact ⟨d.cans, d.events.lost, rfl⟩
    · show ∃ cs k, queueEventFrame l e.c fr d = _
      unfold queueEventFrame
      split
      · exact ⟨_, d.events.lost, rfl⟩
      · exact ⟨_, _, rfl⟩
  have h2 : ∀ (c : Nat) (b : Nat → Bool) (fr : List Byte) (d : Dev),
      ∃ cs k, (if c = 1 then forEach [0, 1] (fun l => doIf (b l) (queueEventFrame l e.c fr)) d else d) =
        { d with cans := cs, events := { d.events with lost := k } } := by
    intro c b fr d
    split
    · obtain ⟨c1, k1, x1⟩ := h1 (b 0) 0 fr d
      obtain ⟨c2, k2, x2⟩ := h1 (b 1) 1 fr { d with cans := c1, events := { d.events with lost := k1 } }
      refine ⟨c2, k2, ?_⟩
      show doIf (b 1) (queueEventFrame 1 e.c fr) (doIf (b 0) (queueEventFrame 0 e.c fr) d) = _
      rw [x1, x2]
    · exact ⟨d.cans, d.events.lost, rfl⟩
  have h3 : ∀ (d1 : Dev) (c : Nat) (b : Nat → Bool) (fr : List Byte) (sev : Nat), ∃ cs k,
      (if sev = 0 then (if c = 1 then forEach [0, 1] (fun l => doIf (b l) (queueEventFrame l e.c fr)) d1 else d1)
       else putRecord sev e (if c = 1 then forEach [0, 1] (fun l => doIf (b l) (queueEventFrame l e.c fr)) d1 else d1)) =
        (if sev = 0 then (fun d : Dev => d) else putRecord sev e) { d1 with cans := cs, events := { d1.events with lost := k } } := by
    intro d1 c b fr sev
    obtain ⟨cs, k, x⟩ := h2 c b fr d1
    refine ⟨cs, k, ?_⟩
    rw [x]; split <;> rfl
  obtain ⟨cs, k, h⟩ := h3 { d with events := { d.events with
      count := tabPut d.events.count e.c (tabGet 0 d.events.count e.c + 1), seconds := tabPut d.events.seconds e.c d.gesso.seconds,
      inst := tabPut d.events.inst e.c (BitVec.ofNat 16 e.inst), who := tabPut d.events.who e.c (e.slice, e.half),
      pending := d.events.pending ||| (1#256 <<< e.c) } } _ _ _ (Config.causeSeverity e.c)
  exact ⟨cs, k, h⟩

/-- A cause of severity 0 writes no fault record. -/
theorem raise_gesso_zero (e : Ev) (d : Dev) (h : Config.causeSeverity e.c = 0) : (raise e d).gesso = d.gesso := by
  obtain ⟨cs, k, x⟩ := raise_split e d
  rw [x, if_pos h]

variable (e : Ev) (d : Dev)

@[simp] theorem raise_out : (raise e d).out = d.out := by obtain ⟨_, _, _, _, _, _, _, h⟩ := raise_shape e d; rw [h]
@[simp] theorem raise_memOps : (raise e d).memOps = d.memOps := by obtain ⟨_, _, _, _, _, _, _, h⟩ := raise_shape e d; rw [h]
@[simp] theorem raise_dict : (raise e d).dict = d.dict := by obtain ⟨_, _, _, _, _, _, _, h⟩ := raise_shape e d; rw [h]
@[simp] theorem raise_funcs : (raise e d).funcs = d.funcs := by obtain ⟨_, _, _, _, _, _, _, h⟩ := raise_shape e d; rw [h]
@[simp] theorem raise_groups : (raise e d).groups = d.groups := by obtain ⟨_, _, _, _, _, _, _, h⟩ := raise_shape e d; rw [h]
@[simp] theorem raise_slices : (raise e d).slices = d.slices := by obtain ⟨_, _, _, _, _, _, _, h⟩ := raise_shape e d; rw [h]
@[simp] theorem raise_engs : (raise e d).engs = d.engs := by obtain ⟨_, _, _, _, _, _, _, h⟩ := raise_shape e d; rw [h]
@[simp] theorem raise_ports : (raise e d).ports = d.ports := by obtain ⟨_, _, _, _, _, _, _, h⟩ := raise_shape e d; rw [h]
@[simp] theorem raise_pgs : (raise e d).pgs = d.pgs := by obtain ⟨_, _, _, _, _, _, _, h⟩ := raise_shape e d; rw [h]
@[simp] theorem raise_halves : (raise e d).halves = d.halves := by obtain ⟨_, _, _, _, _, _, _, h⟩ := raise_shape e d; rw [h]
@[simp] theorem raise_sinopia : (raise e d).sinopia = d.sinopia := by obtain ⟨_, _, _, _, _, _, _, h⟩ := raise_shape e d; rw [h]
@[simp] theorem raise_cores : (raise e d).cores = d.cores := by obtain ⟨_, _, _, _, _, _, _, h⟩ := raise_shape e d; rw [h]
@[simp] theorem raise_mbox : (raise e d).mbox = d.mbox := by obtain ⟨_, _, _, _, _, _, _, h⟩ := raise_shape e d; rw [h]
@[simp] theorem raise_start : (raise e d).start = d.start := by obtain ⟨_, _, _, _, _, _, _, h⟩ := raise_shape e d; rw [h]
@[simp] theorem raise_flash : (raise e d).flash = d.flash := by obtain ⟨_, _, _, _, _, _, _, h⟩ := raise_shape e d; rw [h]
@[simp] theorem raise_update : (raise e d).update = d.update := by obtain ⟨_, _, _, _, _, _, _, h⟩ := raise_shape e d; rw [h]
@[simp] theorem raise_now : (raise e d).now = d.now := by obtain ⟨_, _, _, _, _, _, _, h⟩ := raise_shape e d; rw [h]; rfl
@[simp] theorem raise_sys : (raise e d).sys = d.sys := by obtain ⟨_, _, _, _, _, _, _, h⟩ := raise_shape e d; rw [h]
@[simp] theorem raise_cfg (idx sub : Nat) : (raise e d).cfg idx sub = d.cfg idx sub := by simp [Dev.cfg]
@[simp] theorem raise_S : (raise e d).S = d.S := by simp [Dev.S]
@[simp] theorem raise_slice (n : Nat) : (raise e d).slice n = d.slice n := by simp [Dev.slice]
@[simp] theorem raise_eng (n : Nat) : (raise e d).eng n = d.eng n := by simp [Dev.eng]
@[simp] theorem raise_port (p : Nat) : (raise e d).port p = d.port p := by simp [Dev.port]
@[simp] theorem raise_func (f : Nat) : (raise e d).func f = d.func f := by simp [Dev.func]
@[simp] theorem raise_half (h : Nat) : (raise e d).half h = d.half h := by simp [Dev.half]
@[simp] theorem raise_group (g : Nat) : (raise e d).group g = d.group g := by simp [Dev.group]
@[simp] theorem raise_pg (g : Nat) : (raise e d).pg g = d.pg g := by simp [Dev.pg]
@[simp] theorem raise_core (c : Nat) : (raise e d).core c = d.core c := by simp [Dev.core]
@[simp] theorem raise_members (g : Nat) : (raise e d).members g = d.members g := by simp [Dev.members]

theorem forEach_fixed (l : List Nat) (f : Nat → Dev → Dev) (d : Dev) (h : ∀ k ∈ l, f k d = d) : forEach l f d = d := by
  induction l with
  | nil => rfl
  | cons k r ih =>
    show forEach r f (f k d) = d
    rw [h k (List.mem_cons_self ..)]
    exact ih (fun j hj => h j (List.mem_cons_of_mem _ hj))

/-! ### Requests that are taken at once -/

theorem entered_serves {s : State} {p : Path} (h : s.Serves p) (l : Bool) (f : Dev → Dev) : entered p l f s.dev = f s.dev := by
  obtain ⟨h1, h2, h3, h4⟩ := h
  simp at h4
  by_cases h5 : s.dev.start.st = 1
  · have h6 : (s.dev.half 0).inReset = false := by simpa [h5] using h3
    simp [entered, served, h1, h2, h5, h6]
  · simp [entered, served, h1, h2, h5, h4]
theorem guarded_owned {s : State} {p : Path} (h : s.Owned p) (f : Dev → Dev) : guarded p true f s.dev = f s.dev := by
  simp [guarded, entered_serves h.1, h.2]

theorem dictWrite_act {s : State} {p : Path} {idx sub : Nat} {bs : List Byte} {o : Obj} (h : s.Accepts p idx sub bs o)
    (ha : o.cls = .act) (image : List Dword) :
    dictWrite p (s.dev.isOwner p) idx sub bs image s.dev = actWrite p idx sub (ofBytes bs) bs image s.dev := by
  obtain ⟨_, h2, h3, h4⟩ := h
  simp [dictWrite, h2, h3, h4, ha]
theorem dictWrite_store {s : State} {p : Path} {idx sub : Nat} {bs : List Byte} {o : Obj} (h : s.Accepts p idx sub bs o)
    (ha : o.cls ≠ .act) (image : List Dword) :
    dictWrite p (s.dev.isOwner p) idx sub bs image s.dev = accept p (storeWrite o idx sub (ofBytes bs) s.dev) := by
  obtain ⟨_, h2, h3, h4⟩ := h
  simp [dictWrite, h2, h3, h4, ha]
theorem writeRow_act {s : State} {p : Path} {idx sub : Nat} {bs : List Byte} {o : Obj} (h : s.Accepts p idx sub bs o)
    (ha : o.cls = .act) (image : List Dword) :
    writeRow p idx sub bs image s = .next (s.afterPd (actWrite p idx sub (ofBytes bs) bs image s.dev)) := by
  simp [writeRow, runP_eq, entered_serves h.1, dictWrite_act h ha]
theorem gessoRow_act {s : State} {p : Path} {sub : Nat} {bs : List Byte} {o : Obj} (h : s.Accepts p 0x1220 sub bs o)
    (ha : o.cls = .act) :
    gessoRow p sub bs s = .next (s.afterPd (actWrite p 0x1220 sub (ofBytes bs) bs [] s.dev)) := by
  have h1 : s.dev.gesso.level = 0 := h.1.2.1
  have h2 : (s.dev.start.st != 2) = true := h.1.2.2.2
  simp only [gessoRow, runP_eq, h1, h2]
  simp [entered_serves h.1, dictWrite_act h ha]

theorem herobFrame_hears {s : State} {l : Nat} {fr : HFrame} (h : s.Hears l fr) (cmd : Nat) (image : List Dword) :
    herobFrame l cmd fr image s.dev = herobTake l cmd fr image (s.noted l cmd fr) := by
  obtain ⟨h1, h2, h3, h4⟩ := h
  have h6 : (s.noted l cmd fr).serverOut = false := h3
  unfold herobFrame
  rw [h1, h2]
  simp only [State.noted] at h6
  simp [h4, h6, State.noted]

/-! ### A turn of an arbiter with one request -/

theorem range_filter_one : ∀ n : Fin 193, (List.range 193).filter (fun k => n.val == k) = [n.val] := by decide +kernel

theorem participants_one (n : SliceId) (c : Nat) (per : Bool) : participants [⟨some n, c, per⟩] = [n.val] := by
  have h := range_filter_one ⟨n.val, by have := n.isLt; omega⟩
  simpa [participants, whoOf] using h

theorem arbOrder_one (k n : Nat) : arbOrder k [n] = [n] := by
  unfold arbOrder
  by_cases h : k < n
  · simp [h]
  · simp [h, Nat.not_lt.1 h]

theorem arbReqs_one (d : Dev) (a : Arbiter) (r : ArbReq) : d.arbReqs a [r] = [r] := by
  cases a <;> simp [Dev.arbReqs] <;> intro h <;> simp [h]

/-- Asking for credit sends messages and changes nothing else. -/
theorem askCredit_out (a : Arbiter) (rs : List ArbReq) (d : Dev) : ∃ o, askCredit a rs d = { d with out := o } := by
  have step : ∀ {α : Type} (l : List α) (f : Dev → α → Dev), (∀ d x, ∃ o, f d x = { d with out := o }) →
      ∀ d, ∃ o, l.foldl f d = { d with out := o } := by
    intro α l f hf
    induction l with
    | nil => exact fun d => ⟨d.out, rfl⟩
    | cons x r ih =>
      intro d
      obtain ⟨o, ho⟩ := hf d x
      obtain ⟨o2, h2⟩ := ih (f d x)
      exact ⟨o2, by rw [List.foldl_cons, h2, ho]⟩
  unfold askCredit
  refine step _ _ (fun d n => step _ _ (fun d u => ?_) d) d
  unfold doIf
  split
  · exact ⟨_, rfl⟩
  · exact ⟨d.out, rfl⟩

theorem arbTurn_one (a : Arbiter) (n : SliceId) (c : Nat) (per : Bool) (d : Dev) (h1 : n.val < d.S) (h2 : d.arbOk a n = true) :
    arbTurn a [⟨some n, c, per⟩] d = grant a ⟨some n, c, per⟩ (askCredit a [⟨some n, c, per⟩] d) := by
  have h3 : n.val ≠ 192 := by have := n.isLt; omega
  have h4 : firstReq [⟨some n, c, per⟩] n.val = some ⟨some n, c, per⟩ := by
    cases per <;> simp [firstReq, whoOf]
  obtain ⟨o, ho⟩ := askCredit_out a [⟨some n, c, per⟩] d
  have h5 : ({ d with out := o } : Dev).arbOk a n = true := h2
  have h6 : n.val < ({ d with out := o } : Dev).S := h1
  unfold arbTurn
  rw [ho]
  simp [arbReqs_one, participants_one, arbOrder_one, h3, h4, h5, h6]

/-! ### A wake condition changes its power group alone, and that only from Port Sleep -/

theorem pgWake_shape (p : Nat) (d : Dev) : ∃ g, pgWake p d = { d with pgs := g } := by
  unfold pgWake; split
  · exact ⟨_, rfl⟩
  · exact ⟨d.pgs, rfl⟩
@[simp] theorem pgWake_port (p q : Nat) (d : Dev) : (pgWake p d).port q = d.port q := by
  obtain ⟨g, h⟩ := pgWake_shape p d; rw [h]; rfl
@[simp] theorem pgWake_cfg (p i s : Nat) (d : Dev) : (pgWake p d).cfg i s = d.cfg i s := by
  obtain ⟨g, h⟩ := pgWake_shape p d; rw [h]; rfl
@[simp] theorem pgWake_l1Besl (p n q : Nat) (d : Dev) : (pgWake p d).l1Besl n q = d.l1Besl n q := by
  obtain ⟨g, h⟩ := pgWake_shape p d; rw [h]; rfl
theorem pgWake_same (p : Nat) (d : Dev) (h : (d.pg (p / 8)).st ≠ 1) : pgWake p d = d := if_neg h

end Sys2Proof.Machine
end

