-- ==== Sys2Proof/Laws/Starts.lean ====
section
/-! SUPPORT. What holding both halves in reset does (R443, R448, R449, R458, R478). -/
namespace Sys2Proof.Machine

theorem tabFind_map {α : Type} (f : Nat → α → α) (t : Tab α) (k : Nat) : tabFind (tabMap f t) k = (tabFind t k).map (f k) := by
  induction t with
  | nil => rfl
  | cons e r ih =>
    obtain ⟨j, x⟩ := e
    simp only [tabMap, List.map_cons, tabFind]
    by_cases h : j = k
    · subst h; simp
    · simp only [h, if_false]; exact ih

theorem fold_same {α β : Type} (r : Dev → β) (l : List α) (f : Dev → α → Dev) (d : Dev) (h : ∀ d a, r (f d a) = r d) :
    r (l.foldl f d) = r d := by
  induction l generalizing d with
  | nil => rfl
  | cons a l ih => exact (ih (f d a)).trans (h d a)
theorem forEach_same {α β : Type} (r : Dev → β) (l : List α) (f : α → Dev → Dev) (d : Dev) (h : ∀ a d, r (f a d) = r d) :
    r (forEach l f d) = r d := fold_same r l _ d (fun d a => h a d)

/-- The lock, the failed starts, and the wait after a thermal trip. -/
def Dev.lockPart (d : Dev) : Bool × Nat × Bool := (d.gesso.locked, d.gesso.failedStarts, d.gesso.thermalWait)

theorem raise_lockPart (e : Ev) (d : Dev) : (raise e d).lockPart = d.lockPart := by
  obtain ⟨_, _, _, _, _, _, _, h⟩ := raise_shape e d; rw [h]; rfl
theorem canSend_lockPart (l f : Nat) (bs : List Byte) (d : Dev) : (canSend l f bs d).lockPart = d.lockPart := by
  unfold canSend; split <;> rfl
theorem canSend_pgs (l f : Nat) (bs : List Byte) (d : Dev) : (canSend l f bs d).pgs = d.pgs := by
  unfold canSend; split <;> rfl
theorem endStart_lockPart (d : Dev) : (endStart d).lockPart = d.lockPart := by
  unfold endStart; dsimp only; split <;> rfl
theorem endStart_pgs (d : Dev) : (endStart d).pgs = d.pgs := by
  unfold endStart; dsimp only; split <;> rfl
theorem updateCut_lockPart (d : Dev) : (updateCut d).lockPart = d.lockPart := by
  unfold updateCut
  split
  · rfl
  · have h : ∀ f : Nat → Core → Core, (forEach vendorCores (fun c => Dev.modCore c (f c)) d).lockPart = d.lockPart :=
      fun f => forEach_same Dev.lockPart _ _ _ (fun _ _ => rfl)
    have h1 := h (fun _ x => { x with version := d.start.fwVersion, st := if x.st = 3 then 1 else x.st })
    unfold updateEnd
    rw [raise_lockPart]
    revert h1
    generalize forEach vendorCores _ d = q
    intro h1; exact h1
theorem stopGroups_lockPart (gs : List Nat) (d : Dev) : (stopGroups gs d).lockPart = d.lockPart := by
  unfold stopGroups
  refine forEach_same Dev.lockPart _ _ _ (fun g d => ?_)
  split <;> rfl
theorem clearCommon_part {β : Type} (r : Dev → β) (d : Dev) (hraise : ∀ e d, r (raise e d) = r d) (hsend : ∀ l f bs d, r (canSend l f bs d) = r d)
    (hcan : ∀ l g d, r (Dev.modCan l g d) = r d)
    (hmk : ∀ (d : Dev) dict funcs groups mbox memOps cores sinopia cans events sys flash, r { d with
      dict := dict, funcs := funcs, groups := groups, mbox := mbox, memOps := memOps, cores := cores, sinopia := sinopia, cans := cans
      events := events, sys := sys, flash := flash } = r d) : r (clearCommon d) = r d := by
  unfold clearCommon
  dsimp only
  refine (forEach_same r _ _ _ (fun g d => hraise _ d)).trans ((hmk _ _ _ _ _ _ _ _ _ _ _ _).trans ?_)
  refine fold_same r _ _ _ (fun d q => ?_)
  split
  · rename_i l fr h
    split
    · rw [h]; unfold fenceAnswer; dsimp only; unfold miniAnswer; dsimp only
      rw [hsend]; first | rfl | exact hcan _ _ _
    · rfl
  · rfl
theorem clearCold_lockPart (d : Dev) : (clearCold d).lockPart = d.lockPart :=
  clearCommon_part Dev.lockPart d raise_lockPart canSend_lockPart (fun _ _ _ => rfl) (fun _ _ _ _ _ _ _ _ _ _ _ _ => rfl)

theorem stopGroups_low (gs : List Nat) (d : Dev) (g : Nat) (h : g ∈ gs ∨ (d.pg g).stopLow = true) : ((stopGroups gs d).pg g).stopLow = true := by
  unfold stopGroups forEach
  induction gs generalizing d with
  | nil => rcases h with h | h
           · cases h
           · exact h
  | cons k r ih =>
    rw [List.foldl_cons]
    refine ih _ ?_
    beta_reduce
    by_cases hk : g = k
    · right; subst hk
      split
      · assumption
      · simp [Dev.pg, emit, Dev.modPg]
    · rcases h with h | h
      · exact Or.inl ((List.mem_cons.1 h).resolve_left hk)
      · right
        split
        · exact h
        · show (tabGet {} (tabPut d.pgs k _) g).stopLow = true
          rw [tabGet_put_other _ _ _ _ _ hk]; exact h
theorem clearCold_low (d : Dev) (g : Nat) (h : (d.pg g).stopLow = true) : ((clearCold d).pg g).stopLow = true := by
  have hp : (clearCommon d).pgs = d.pgs :=
    clearCommon_part (fun d => d.pgs) d (fun _ _ => raise_pgs ..) canSend_pgs (fun _ _ _ => rfl) (fun _ _ _ _ _ _ _ _ _ _ _ _ => rfl)
  unfold Dev.pg tabGet at h
  unfold clearCold Dev.pg tabGet
  dsimp only
  rw [hp, tabFind_map]
  cases hf : tabFind d.pgs g with
  | none => rw [hf] at h; exact h
  | some x => rw [hf] at h; exact h

/-- The last part of holdReset: the halves held, the start waiting. -/
def heldIn (d : Dev) : Dev :=
  let d := { d with
    start := { d.start with st := if d.gesso.locked then 2 else 1, type := 1, deviceReady := false, retryDue := false }
    gesso := { d.gesso with level := 0, waking := false, wakeLow := false, loop := true } }
  forEach [0, 1] (fun h => Dev.modHalf h (fun x => { x with inReset := true })) d
theorem holdReset_eq (gs : List Nat) (d : Dev) : holdReset gs d = heldIn (clearCold (stopGroups gs (updateCut (endStart d)))) := rfl
theorem heldIn_spec (d : Dev) :
    (heldIn d).start.st = (if d.gesso.locked then 2 else 1) ∧ (heldIn d).start.type = 1 ∧ (heldIn d).start.deviceReady = false ∧
    (heldIn d).start.retryDue = false ∧ ((heldIn d).half 0).inReset = true ∧ ((heldIn d).half 1).inReset = true ∧
    (∀ g, (heldIn d).pg g = d.pg g) ∧ (∀ n, (heldIn d).slice n = d.slice n) ∧ (heldIn d).gesso.level = 0 ∧
    (heldIn d).lockPart = d.lockPart := by
  refine ⟨rfl, rfl, rfl, rfl, ?_, ?_, fun _ => rfl, fun _ => rfl, rfl, rfl⟩
  · simp [heldIn, forEach, Dev.modHalf, Dev.half, tabGet_put_other]
  · simp [heldIn, forEach, Dev.modHalf, Dev.half]

/-- Everything stops: STOP_N low on the groups named, both halves in reset, no slice, the lock as it was. -/
theorem holdReset_spec (gs : List Nat) (d : Dev) :
    (holdReset gs d).start.st = (if d.gesso.locked then 2 else 1) ∧ (holdReset gs d).start.type = 1 ∧
    (holdReset gs d).start.deviceReady = false ∧ (holdReset gs d).start.retryDue = false ∧
    ((holdReset gs d).half 0).inReset = true ∧ ((holdReset gs d).half 1).inReset = true ∧
    (∀ g ∈ gs, ((holdReset gs d).pg g).stopLow = true) ∧ (∀ n, ((holdReset gs d).slice n).st = .free) ∧
    (holdReset gs d).gesso.level = 0 ∧ (holdReset gs d).lockPart = d.lockPart := by
  have hl : (clearCold (stopGroups gs (updateCut (endStart d)))).lockPart = d.lockPart := by
    rw [clearCold_lockPart, stopGroups_lockPart, updateCut_lockPart, endStart_lockPart]
  have hl1 : (clearCold (stopGroups gs (updateCut (endStart d)))).gesso.locked = d.gesso.locked := congrArg (fun x => x.1) hl
  have hs : ∀ c n, ((clearCold c).slice n).st = .free := fun _ _ => rfl
  rw [holdReset_eq]
  obtain ⟨h1, h2, h3, h4, h5, h6, h7, h8, h9, h10⟩ := heldIn_spec (clearCold (stopGroups gs (updateCut (endStart d))))
  refine ⟨h1.trans (by rw [hl1]), h2, h3, h4, h5, h6, fun g hg => ?_, fun n => ?_, h9, h10.trans hl⟩
  · rw [h7]; exact clearCold_low _ g (stopGroups_low gs _ g (Or.inl hg))
  · rw [h8]; exact hs _ n

end Sys2Proof.Machine
end

