-- ==== Sys2Proof/Tests/Small.lean ====
section
/-! SUPPORT. Small states for the tests and witnesses. -/
namespace Sys2Proof.Machine.Small

/-- The part of a test: S = 4, started. -/
def dev : Dev := { start := { st := 0, sCount := 4, deviceReady := true } }
/-- One port in a given state. -/
def atPort (p : Nat) (x : Port) : State := { dev := { dev with ports := [(p, x)] } }
/-- Port 3 with given buses. -/
def bus (b : PortBus) : State := atPort 3 { bus := b }
/-- Port 3 with a given attach side. -/
def tc (x : TypeC) : State := atPort 3 { tc := x }
/-- Port 3 as source with PD, its sequences given; core 0 runs or not. -/
def attached (q : PdSeq) (policy : Bool) : Dev := { dev with
  dict := { inUse := [(okey 0x3103 3, 1)] }
  cores := if policy then [(0, { st := 1 })] else []
  ports := [(3, { tc := { st := .attachedSrc, orientation := 1 }, seq := q })] }
/-- Port 3 as source at vSafe5V with given PD fields. -/
def withPd (q : PdSeq) (x : Pd) : State := atPort 3 { tc := { st := .attachedSrc, busesOut := true }, seq := q, pd := x }
/-- Slice 1 of four, bound to host group 0, whose first port is U0; U0 up. -/
def slice (x : Slice) : Dev := { dev with
  dict := { inUse := [(okey 0x2010 1, 0), (okey 0x2010 2, 0xFF)] }
  slices := [(1, { x with group := 0, half := 0 })]
  funcs := [(0, { linkUp := true })] }
/-- A work entry on handle 5, local port 1, with its endpoint, phase and words 4 and 6. -/
def entry (op ep ph : Nat) (d4 d6 : Nat) : WEnt :=
  { idx := 7, dws := [w32 op, 0, w32 (5 + 0x10000 + ep * 0x1000000), 0, w32 d4, 0, w32 d6, 0, 0, 0, 0, 0, 0, 64, 0, 0], phase := ph }
/-- Slice 1, active: work queue 2 executes e, handle 5 is x, port 3 is y. -/
def works (e : WEnt) (x : Handle) (y : Port) : State := { dev := {
  slice { st := .active, wqs := [(2, { exec := [e] })] } with
  ports := [(3, { y with owner := 1 })]
  engs := [(1, { handles := [(5, x)],
                  reads := [{ r := .struct 2 7, f := 0, addr := 64, len := 64, mark := 0 }] })] } }
/-- A port with an enabled high-speed bus. -/
def onHs : Port := { bus := { usb2 := .enabled, usb2Speed := 3, ss := .rxDetect } }
/-- Handle 5 of slice 1 on port 3, high speed or as said; endpoint 2 runs with transfer x in service. -/
def serving (sp tt : Nat) (c : EpCfg) (b : EpBus) (x : Option Xfer) : State :=
  works (entry 1 0 0 0 0) { st := .addressed, port := 3, speed := sp, ttPort := tt
                            eps := [(2, { st := .running, cfg := c, xfer := x, service := x.isSome, bus := b })] } onHs
/-- A transfer of 64 bytes. -/
def xfer (isIn : Bool) : Option Xfer := some { first := 64, last := 64, isIn := isIn, length := 64, frags := [(64, 64)] }

end Sys2Proof.Machine.Small
end

