-- ==== Sys2Proof/Tests/Slice0.lean ====
section
/-! SUPPORT. Tests from the worked figures of the spec, the ill-formed commands that Instr.wf refuses, and for each statement a witness
of its hypotheses. -/

set_option linter.all false
open Sys2Proof Sys2Proof.Machine
namespace Sys2Proof.Tests

/-! ### Ill-formed commands are refused -/

theorem wf_access : [Instr.registerWrite 0 1 0 4 0, .registerWrite 0 0 0 2 0, .registerWrite 0 0 2 4 0, .registerWrite 0 0 4 8 0].all
    (fun i => !i.wf) = true := by decide
theorem wf_value : (Instr.objectWrite .admin 0x2100 1 [] []).wf = false ∧
    (Instr.objectWrite .admin 0x2100 1 (List.replicate 4097 0) []).wf = false := by decide +kernel
theorem wf_entry : [Instr.wqPush 0 0 0 0 [1], .epPush 0 0 [], .taskPost 0 [], .taskYield 0 0 [0]].all (fun i => !i.wf) = true := by decide
theorem wf_handle : [Instr.transferEntryReadComplete 0 6144 1 0 [], .fragmentTableReadComplete 0 0 0 0 [], .streamContextReadComplete 0 0 32 0 [],
    .contextLoadComplete 0 0 0 [], .funnelHoldExpiry 0 0 32 0, .transactionTimeout 0 0 0, .repollIntervalExpiry 0 0 0, .portBabble 0 0 32,
    .usb2TransactionResponse 0 0 0 (.ack 0) 0, .periodicTransactionResponse 0 0 0 .ack 0, .splitResponse 0 0 0 .ack,
    .nrdyReceived 0 0 0 0, .erdyReceived 0 0 0 0, .dataReadComplete 0 0 0 0 0 [] 0].all (fun i => !i.wf) = true := by decide
theorem wf_stream : [Instr.transferEntryReadComplete 0 0 1 257 [], .fragmentTableReadComplete 0 0 1 257 [], .streamContextReadComplete 0 0 1 257 [],
    .dataReadComplete 0 0 1 257 0 [] 0, .funnelHoldExpiry 0 0 1 257, .nrdyReceived 0 0 1 65536, .erdyReceived 0 0 1 65536].all
    (fun i => !i.wf) = true := by decide
theorem wf_payload : (Instr.usb2TransactionResponse 0 0 1 (.ack 17) 0).wf = false ∧ (Instr.dataReadComplete 0 0 1 0 0 (List.replicate 4097 0) 0).wf = false ∧
    (Instr.usb2TransactionResponse 0 0 1 (.data true (List.replicate 1025 0)) 0).wf = false ∧
    (Instr.splitResponse 0 0 1 (.data true (List.replicate 1025 0) 0)).wf = false ∧
    (Instr.splitResponse 0 0 1 (.mdata (List.replicate 1025 0) 0)).wf = false ∧
    (Instr.dictReq 0 0 0 true (List.replicate 4097 0)).wf = false ∧ (Instr.stageData .admin (List.replicate 4097 0)).wf = false := by decide +kernel
theorem wf_burst : (Instr.periodicTransactionResponse 0 0 1 (.data true .data0 (List.replicate 49153 0)) 0).wf = false := by
  unfold Instr.wf PerResp.wf; dsimp only; rw [List.length_replicate]; rfl
theorem wf_sinopia : (Instr.sinopiaCtrlMessage 0 (.completion 0 0 [] false)).wf = false ∧
    (Instr.sinopiaDataMessage 0 (.upstream 0 0 0 (List.replicate 513 0) false)).wf = false ∧
    (Instr.sinopiaDataMessage 0 (.pool 0 0 0 [])).wf = false ∧
    (Instr.arbiterTurn (.engine 0) [{ who := none, charge := 2 ^ 32, periodic := false }]).wf = false := by decide +kernel
theorem wf_block : ([{ slice := 256 }, { hostGroup := 256 }, { port := 256 }, { target := 256 }, { length := 2 ^ 32 }] : List OpBlock).all
    (fun b => [Instr.sliceCreate .admin b, .sliceQuiesce .admin b, .sliceFence .admin b, .sliceFreeze .admin b, .sliceRehome .admin b,
      .sliceThaw .admin b, .sliceExport .admin b, .sliceReset .admin b, .sliceRemove .admin b, .portAssign .admin b,
      .sliceImport .admin b []].all (fun i => !i.wf)) = true := by decide
theorem wf_message : ([.request { raw := 0, pos := 0, mv := 0, ma := 0 }, .eprRequest { raw := 0, pos := 16, mv := 0, ma := 0 },
    .sourceCaps [], .eprSourceCaps []] : List PdMsg).all (fun m => !(Instr.pdMessageReceived 0 .sop true 0 m).wf) = true := by decide
theorem wf_frame : let bad : HFrame := { txn := 0, index := 0, sub := 0, seq := 65536 }
    let long : HFrame := { txn := 0, index := 0, sub := 0, data := List.replicate 57 0 }
    [bad, long].all (fun f => [Instr.read 0 f, .segGet 0 f, .write 0 f, .writeSegStart 0 f, .segPut 0 f [], .abort 0 f,
      .minimalResponderRequest 0 0 f].all (fun i => !i.wf)) = true := by decide
theorem wf_rest : [Instr.patrolScrubRead 0 (.coreImem 0) 0 (some 72) false, .canWakePattern 0 0 (List.replicate 65 0),
    .portsReady true true true (List.replicate 193 (0, 0)) 0].all (fun i => !i.wf) = true := by decide +kernel
/-- Commands of ordinary shape are well-formed. -/
theorem wf_good : [Instr.registerWrite 0 0 8 8 5, .objectWrite .admin 0x2100 1 [1] [], .transactionTimeout 0 5 3,
    .sliceCreate .admin { slice := 3 }, .read 0 { txn := 1, index := 0x2100, sub := 1 }].all Instr.wf = true := by decide

/-! ### Worked figures of the spec -/

/-- R337: the CRC-8 of the ASCII bytes 123456789 is 0xF4. -/
theorem test_crc8 : crc8 [0x31, 0x32, 0x33, 0x34, 0x35, 0x36, 0x37, 0x38, 0x39] = 0xF4 := by decide +kernel
/-- R216: the CRC-32C of the same bytes is 0xE306_9283. -/
theorem test_crc32c : crc32c [0x31, 0x32, 0x33, 0x34, 0x35, 0x36, 0x37, 0x38, 0x39] = 0xE3069283 := by decide +kernel
/-- The tablet of 12 (after R319): P150 at 15 W or 7.5 W with a 3 A cable and a 5 A stage. -/
def tablet (mw : Nat) : Dev := { Small.dev with ports := [(150, { stage := { present := true, ident := 100, alloc := mw }, pd := { partnerRev := 2 } })] }
/-- 12: 5 V at 3.00 A, 9 V at 1.66 A, 15 V at 1.00 A, 20 V at 0.75 A, PPS at 1.36 A and 0.71 A. -/
theorem test_tablet_15W : (tablet 15000).sprCaps 150 =
    [.fixed5 3000 true false false false, .fixed 9000 1660, .fixed 15000 1000, .fixed 20000 750, .pps 11000 1360 true, .pps 21000 710 true] := by decide +kernel
/-- 12: at 7.5 W, 20 V and the APDO offered with it are left out. -/
theorem test_tablet_7W5 : (tablet 7500).sprCaps 150 =
    [.fixed5 1500 true false false false, .fixed 9000 830, .fixed 15000 500, .pps 11000 680 true] := by decide +kernel
/-- 13, worked allocation: 168 ports share 1,440,000 mW and receive 8,500 mW each. -/
theorem test_allocation : (allocation 1440000 ((List.range 168).map (fun p => { p := p, a := 2500, want := 30000, prio := 4 }))).all
    (fun x => x.a == 8500) = true := by decide +kernel

/-- The PORT_ASSIGN of 16: slices 100 and 60 Quiesced, P150 owned by slice 100. -/
def rack (st : SliceSt) : State := { dev := { Small.dev with
  start := { Small.dev.start with sCount := 192 }
  ports := [(150, { owner := 100 })]
  slices := [(60, { st := st, group := 0, half := 0 }), (100, { st := .quiesced, group := 0, half := 1 })] } }
/-- 16: OP 0x4A with RESULT0 1 (CROSS_HALF) answers 01 4A 3C 00, 50 01 00 00, 01 00 00 00 and zeros. -/
theorem test_port_assign : (match exec (.portAssign (.can 0) { port := 0x96, target := 0x3C, tag := 0x150 }) (rack .quiesced) with
    | .next t => (t.dev.owner 150, t.dev.out.filterMap (fun o => match o with | .answer _ c r b => some (c, r, b) | _ => none))
    | _ => (0, [])) = (60, [(1, 0, [0x01, 0x4A, 0x3C, 0x00, 0x50, 0x01, 0, 0, 1, 0, 0, 0] ++ List.replicate 20 0)]) := by decide +kernel
/-- 16: with slice 60 Active the answer is Not quiesced (0x15) and nothing changes. -/
theorem test_port_assign_active : (match exec (.portAssign (.can 0) { port := 0x96, target := 0x3C, tag := 0x150 }) (rack .active) with
    | .next t => (t.dev.owner 150, t.dev.out.filterMap (fun o => match o with | .answer _ c r _ => some (c, r) | _ => none))
    | _ => (0, [])) = (100, [(0x15, 0)]) := by decide +kernel
/-- 16: the bytes of that ABORT frame, 7F 07 30 20 01 04 00 00 and 15 00 00 00. -/
theorem test_abort_bytes : herobBytes 0x7F { txn := 7, index := 0x2030, sub := 1 } 0 [0x15, 0, 0, 0] =
    [0x7F, 0x07, 0x30, 0x20, 0x01, 0x04, 0, 0, 0x15, 0, 0, 0] := by decide +kernel
/-- 11, after R292: one work queue, one completion queue, one open handle, 64 vectors and nothing held take 1312 bytes. -/
theorem test_image_len : imageLen 2 1 64 0 = 1312 := by decide
/-- No row of the table gives bits. -/
theorem test_no_words : decodeTableWord 32 0 = none := rfl

end Sys2Proof.Tests

/-! ### Witnesses of the statements -/

theorem wit_StepRunsTheFrontCommand : ({ State.reset with pending := [.forceSafeNFall] } : State).pending = .forceSafeNFall :: [] := rfl

theorem wit_IdleStepsCountTheGessoClock :
    (({ dev := { gesso := { clock := false } } } : State).pending = [] ∧ ({ dev := { gesso := { clock := false } } } : State).dev.gesso.clock = false) ∧
      State.reset.pending = [] ∧ State.reset.dev.gesso.clock = true := by decide



theorem wit_StepsKeepTheMemoriesCanonical :
    (let s : State := { dev := Small.dev, mem := { req := [(0, 1), (4, 2)] }, pending := [.forceSafeNFall] }
     s.Canonical ∧ s.Settled ∧ ∃ t, step s = .next t) := by
  refine ⟨by unfold State.Canonical; decide, by unfold State.Settled; decide, ?_⟩
  exact ⟨_, rfl⟩



theorem wit_OrdinaryRowsFrame :
    (Instr.wqDoorbell 0 1 2).configures = false ∧ (Instr.supplyAlertRise).configures = false ∧ State.reset.Settled ∧
      ∃ t, exec (.wqDoorbell 0 1 2) State.reset = .next t :=
  ⟨rfl, rfl, rfl, _, rfl⟩

theorem wit_FunctionRowsComplete :
    (let d := Small.slice { st := .active }
     accessOk 2 0x2008 8 = true ∧ d.shows 0 (0x2008 / 4096) = false ∧ d.shows 0 1 = true ∧ 3071 < Config.shareVectors d.S ∧
      (d.func 0).linkUp = true ∧ (d.func 3).linkUp = false ∧ (d.func 3).upState = 0 ∧ d.start.st ≠ 2) ∧
    (let d := { Small.dev with
        dict := { inUse := [(okey 0x2010 1, 0), (okey 0x2010 2, 1)] }
        groups := [(0, { st := .pending, nonce := some 0x500000007, startPort := 0 })], funcs := [(1, { retLo := 7 })] }
     halfOfFunc 1 = 0 ∧ d.groupOf 1 = some 0 ∧ d.hgSt 0 = .pending ∧ 1 ≠ (d.group 0).startPort.toNat ∧
      (d.group 0).nonce = some ((5 : Dword) ++ (d.func 1).retLo) ∧ (d.group 0).nonce ≠ some ((4 : Dword) ++ (d.func 1).retLo) ∧
      d.groupOf 0 = some 0 ∧ 0 = (d.group 0).startPort.toNat) ∧
    (Small.dev.boundSlices = [] ∧ (Small.dev.func 2).vecs = []) := by decide +kernel

theorem wit_DoorbellRowsComplete :
    (let d := Small.slice { st := .active, wqs := [(767, { st := .active })], cqs := [(767, { st := .active })] }
     d.shows 0 1 = true ∧ bitsOf (767 : Dword) 11 0 < d.share ∧ (d.slice 1).st = .active ∧ (d.wq 1 767).st = .active ∧
      (d.wq 1 767).piOut = false ∧ d.share ≤ bitsOf (768 : Dword) 11 0 ∧ d.epAccepts 1 0 0 0 = false ∧
      bitsOf (0x2FF00000000 : Qword) 43 32 < d.share ∧ (d.cq 1 767).st = .active ∧
      ((d.cq 1 767).pi - w32 (bitsOf (0x2FF00000000 : Qword) 31 0)).toNat ≤ (d.cq 1 767).size ∧
      bitOf (0x2FF00000000 : Qword) 48 = false ∧
      (d.cq 1 767).size < ((d.cq 1 767).pi - w32 (bitsOf (0x2FF00000001 : Qword) 31 0)).toNat) ∧
    (let d := Small.slice { st := .active, wqs := [(0, { st := .active, piOut := true })], cqs := [(0, { st := .active, pi := 3 })] }
     d.shows 0 1 = true ∧ (d.wq 1 0).piOut = true ∧
      ((d.cq 1 0).pi - w32 (bitsOf (0x1000000000000 : Qword) 31 0)).toNat ≤ (d.cq 1 0).size ∧
      bitOf (0x1000000000000 : Qword) 48 = true ∧ (d.cq 1 0).pi ≠ w32 (bitsOf (0x1000000000000 : Qword) 31 0)) ∧
    (let d := { Small.slice { st := .active } with
        engs := [(1, { handles := [(5, { st := .addressed, eps := [(1, { st := .running })] })] })] }
     d.shows 0 1 = true ∧ d.epAccepts 1 (bitsOf (0x10005 : Qword) 12 0) (bitsOf (0x10005 : Qword) 20 16) (bitsOf (0x10005 : Qword) 40 32) = true) ∧
    (let d := Small.slice { st := .active, wqs := [(7, { st := .active, lc := { enable := true, pushEn := true } })] }
     let e : List Dword := List.replicate 16 0
     d.shows 0 1 = true ∧ e.length = 16 ∧ (d.slice 1).st = .active ∧ 7 < d.share ∧ (d.wq 1 7).lc.pushEn = true ∧
      (d.wq 1 7).st = .active ∧ (d.wq 1 7).errPend = none ∧ dwAt e 3 = (d.wq 1 7).lim ∧ 0 = (dwAt e 3).toNat % 4 ∧
      ((d.wq 1 7).held.filter (fun x => x.pushed)).length < 4 ∧ (d.wq 1 7).window < 8 ∧
      (dwAt e 3 + 1 - (d.wq 1 7).ci).toNat ≤ (d.wq 1 7).size ∧ (d.wq 1 6).lc.pushEn = false) ∧
    (Small.slice { st := .active }).shows 1 1 = false := by decide +kernel

theorem wit_QueueRowsComplete :
    (let d := { Small.slice { st := .active } with
        engs := [(1, { reads := [{ r := .pi 3, f := 0, addr := 0, len := 4, mark := 0 }, { r := .work 3, f := 0, addr := 64, len := 64, mark := 0 }] })] }
     d.readOut 1 (.pi 3) = some { r := .pi 3, f := 0, addr := 0, len := 4, mark := 0 } ∧
      d.readOut 1 (.work 3) = some { r := .work 3, f := 0, addr := 64, len := 64, mark := 0 } ∧
      d.readOut 1 (.pi 4) = none ∧ d.readOut 1 (.work 4) = none) ∧
    (let e : WEnt := { idx := 0, dws := [1, 7] }
     let d := Small.slice { st := .active, wqs := [(3, { st := .active, held := [e], turns := 1, ciDirty := true })], cqs := [(0, { st := .active, armed := true, modRun := true })] }
     ((d.slice 1).wqs.map (fun x => x.1)).any (fun q => d.startable 1 q && (d.wq 1 q).turns != 0) = true ∧
      (visitOrder (d.slice 1).lastWq ((d.slice 1).wqs.map (fun x => x.1))).find?
        (fun q => d.startable 1 q &&
          ((forfeitTo 1 (fun q => d.startable 1 q) (visitOrder (d.slice 1).lastWq ((d.slice 1).wqs.map (fun x => x.1))) d).wq
            1 q).turns != 0) = some 3 ∧
      (d.cq 1 0).armed = true ∧ (d.cq 1 0).modRun = true ∧ (d.wq 1 3).ciDirty = true) ∧
    (let d := Small.slice { st := .active, wqs := [(3, { st := .active })] }
     ((d.slice 1).wqs.map (fun x => x.1)).any (fun q => d.startable 1 q) = false) := by decide +kernel

theorem wit_HostReadRowsComplete :
    (let rd : ReadRef → HRead := fun r => { r := r, f := 0, addr := 64, len := 2, mark := 9 }
     let d := { Small.slice { st := .active, cqs := [(2, { lastF := some 0, flush := 1 })] } with engs := [(1, {
        reads := [rd (.transferEntry 5 2 0), rd (.fragment 5 2 0), rd (.streamCtx 5 2 1), rd (.context 5 2), rd (.data 5 2 0), rd (.pi 3)]
        unconf := [{ id := 9, f := 0, addr := 64, bytes := [1] }]
        handles := [(5, { eps := [(2, { xfer := some { first := 0, last := 0 } })] })] })] }
     d.readOut 1 (.transferEntry 5 2 0) = some (rd (.transferEntry 5 2 0)) ∧ d.readOut 1 (.fragment 5 2 0) = some (rd (.fragment 5 2 0)) ∧
      d.readOut 1 (.streamCtx 5 2 1) = some (rd (.streamCtx 5 2 1)) ∧ d.readOut 1 (.context 5 2) = some (rd (.context 5 2)) ∧
      d.dataRead 1 5 2 0 0 = some (rd (.data 5 2 0)) ∧ d.readOut 1 (.pi 3) = some (rd (.pi 3)) ∧ d.readOut 1 (.confirm 0) = none ∧
      ((d.eng 1).unconf.filter (fun w => w.f == 0 && !w.wait)).getLast? = some { id := 9, f := 0, addr := 64, bytes := [1] } ∧
      (d.eng 1).reads.any (fun r => r.f == 0 && decide (9 < r.mark)) = false ∧ (d.cq 1 2).lastF = some 0 ∧ (d.cq 1 2).flush = 1 ∧
      (d.ep 1 5 2).xfer = some { first := 0, last := 0 }) ∧
    (let rd : ReadRef → HRead := fun r => { r := r, f := 0, addr := 64, len := 0, mark := 9 }
     let d := { Small.slice { st := .active } with engs := [(1, { reads := [rd (.pi 0), rd (.confirm 0)] })] }
     d.readOut 1 (.confirm 0) = some (rd (.confirm 0)) ∧ (d.eng 1).reads = [rd (.pi 0)] ++ rd (.confirm 0) :: [] ∧
      (rd (.confirm 0)).f = 0) ∧
    (let rd : ReadRef → HRead := fun r => { r := r, f := 0, addr := 64, len := 0, mark := 9 }
     let d := { Small.slice { st := .active } with engs := [(1, { reads := [rd (.flush 2)] })] }
     (d.eng 1).reads = [] ++ rd (.flush 2) :: [] ∧ (rd (.flush 2)).f = 0) := by
  decide +kernel

theorem wit_SinopiaRowsComplete :
    (let d := { Small.dev with sinopia := { up := true, sparesA := 7, sparesB := 8 } }
     d.sinopia.up = true ∧ d.boundSlices = [] ∧ (d.half 0).takeFromSync = false ∧ (d.half 1).takeFromSync = false ∧
      d.sinopia.sparesA < 8 ∧ 8 ≤ d.sinopia.sparesB) ∧
    (let d := { Small.dev with sinopia := { training := true, holdRunning := true } }
     d.sinopia.up = false ∧ d.sinopia.training = true ∧ d.sinopia.holdRunning = true) ∧
    (let d := { Small.slice { st := .active } with
        sinopia := { up := true }, ports := [(3, { owner := 1 })]
        engs := [(1, { handles := [(5, { port := 3 })], pal := [(6, { counter := 18000 })] })] }
     d.sinopia.up = true ∧ d.S ≠ 1 ∧ (d.slice 1).half = 0 ∧ d.cqHalf 1 2 = 0 ∧ halfOfFunc 0 = 0 ∧ 1 < d.S ∧
      (d.slice 1).quiet = false ∧ d.carries 1 0 = true ∧ d.owner 3 < d.S ∧ (d.handle (d.owner 3) 5).port = 3 ∧
      d.epHalf (d.owner 3) 5 = 0 ∧ (d.slice 1).st ≠ .free ∧ d.arbOk (.engine 0) 1 = true ∧
      (List.replicate 8 (0 : Dword)).length = 8) := by decide +kernel

theorem wit_DeviceRowsComplete :
    (Small.works (Small.entry 1 0 0 0 0) {} {}).Executes 1 2 7 1 (Small.entry 1 0 0 0 0) ∧
    (let e := Small.entry 2 0 0 0 0x300000
     (Small.works e {} Small.onHs).Executes 1 2 7 2 e ∧ openCode 1 e.dws (Small.works e {} Small.onHs).dev = 0 ∧
      openCode 1 e.dws (Small.works e {} {}).dev ≠ 0) ∧
    (let e := Small.entry 3 0 0 0 0
     let s := Small.works e { st := .default, port := 3, eps := [(1, { st := .running })] } Small.onHs
     s.Executes 1 2 7 3 e ∧ s.dev.handleCode 1 (weHandle e.dws) = 0 ∧ (s.dev.handle 1 (weHandle e.dws)).st = .default ∧
      ((s.dev.handle 1 (weHandle e.dws)).ep 1).xfer = none ∧ ((s.dev.handle 1 (weHandle e.dws)).ep 1).st = .running ∧
      (((s.dev.handle 1 (weHandle e.dws)).ep 1).ring 0).held = [] ∧ s.dev.freeAddr 1 (s.dev.handle 1 (weHandle e.dws)).port = some 1) ∧
    (let e := Small.entry 3 0 3 0 0
     (Small.works e {} {}).dev.execEnt 1 2 7 = some e ∧ weOp e.dws = 3 ∧ e.phase = 3) ∧
    (let e := Small.entry 4 0 0 0 0
     let s := Small.works e { st := .default, port := 3 } Small.onHs
     s.Executes 1 2 7 4 e ∧ s.dev.handleCode 1 (weHandle e.dws) = 0 ∧ (Small.works e {} {}).dev.handleCode 1 (weHandle e.dws) ≠ 0) ∧
    (let e := Small.entry 5 0 0 0 0
     let s := Small.works e { st := .default, port := 3 } Small.onHs
     s.Executes 1 2 7 5 e ∧ (s.dev.handle 1 (weHandle e.dws)).st ≠ .closed ∧ s.dev.hasBelow 1 (weHandle e.dws) = false ∧
      ((Small.works e {} {}).dev.handle 1 (weHandle e.dws)).st = .closed) ∧
    (let w := fun op : Nat => Small.works (Small.entry op 0 1 0 0) { st := .default, port := 3, speed := 3 } Small.onHs
     let x : HRead := { r := .struct 2 7, f := 0, addr := 64, len := 64, mark := 0 }
     let d := fun op : Nat => releaseDue 1 (structReads 1 (fun y => y == .struct 2 7) (confirmBy x 1 (w op).dev))
     (∀ op ∈ [2, 4, 8], (w op).dev.readOut 1 (.struct 2 7) = some x ∧ (d op).execEnt 1 2 7 = some (Small.entry op 0 1 0 0) ∧
       weOp (Small.entry op 0 1 0 0).dws = op ∧ (Small.entry op 0 1 0 0).phase = 1) ∧
     (d 4).handleCode 1 (weHandle (Small.entry 4 0 1 0 0).dws) = 0 ∧
     updateBad 1 (weHandle (Small.entry 4 0 1 0 0).dws) ((1 :: 64 :: List.replicate 14 0 : List Dword).take 16) (d 4) = none ∧
     ((d 4).ep 1 (weHandle (Small.entry 4 0 1 0 0).dws) 1).xfer = none ∧
     (w 2).dev.readOut 1 (.struct 2 8) = none) := by
  unfold State.Executes
  decide +kernel

theorem wit_EndpointRowsComplete :
    (let e := Small.entry 8 0 0 12 0
     let s := Small.works e { st := .addressed, port := 3 } Small.onHs
     s.Executes 1 2 7 8 e ∧ (s.withCtx 1 e).handleCode 1 (weHandle e.dws) = 0 ∧ maskBits (dwAt e.dws 4).toNat = [2, 3] ∧
      ((Small.works e {} {}).withCtx 1 e).handleCode 1 (weHandle e.dws) ≠ 0) ∧
    (let e := Small.entry 9 0 0 12 0
     let s := Small.works e { st := .addressed, port := 3, eps := [(2, { st := .running }), (3, { st := .stopped })] } Small.onHs
     let d := forEach (maskBits (dwAt e.dws 4).toNat) (useCtx 1 (weHandle e.dws)) (s.withCtx 1 e)
     s.Executes 1 2 7 9 e ∧ d.planBefore 1 (d.startTag 1 2 7) e.dws = false ∧ (d.handle 1 (weHandle e.dws)).st ≠ .detached ∧
      ∀ k ∈ maskBits (dwAt e.dws 4).toNat, (d.ep 1 (weHandle e.dws) k).st ≠ .disabled) ∧
    (let x := fun op => Small.entry op 2 0 0 0
     let s := fun op st => Small.works (x op) { st := .addressed, port := 3, eps := [(2, { st := st })] } Small.onHs
     (s 10 .running).Executes 1 2 7 10 (x 10) ∧ (((s 10 .running).withCtx 1 (x 10)).handle 1 (weHandle (x 10).dws)).st ≠ .detached ∧
      (((s 10 .running).withCtx 1 (x 10)).ep 1 (weHandle (x 10).dws) (weEp (x 10).dws)).st = .running ∧
     (s 10 .stopped).Executes 1 2 7 10 (x 10) ∧ (((s 10 .stopped).withCtx 1 (x 10)).handle 1 (weHandle (x 10).dws)).st ≠ .detached ∧
      (((s 10 .stopped).withCtx 1 (x 10)).ep 1 (weHandle (x 10).dws) (weEp (x 10).dws)).st = .stopped ∧
      ((writeCtx 1 (weHandle (x 10).dws) (weEp (x 10).dws) ((s 10 .stopped).withCtx 1 (x 10))).ep 1 (weHandle (x 10).dws) (weEp (x 10).dws)).unread
        (dwAt (x 10).dws 4).toNat = false ∧
     (s 11 .halted).Executes 1 2 7 11 (x 11) ∧ (((s 11 .halted).withCtx 1 (x 11)).handle 1 (weHandle (x 11).dws)).st ≠ .detached ∧
      (((s 11 .halted).withCtx 1 (x 11)).ep 1 (weHandle (x 11).dws) (weEp (x 11).dws)).st = .halted ∧
     (s 12 .stopped).Executes 1 2 7 12 (x 12) ∧ (((s 12 .stopped).withCtx 1 (x 12)).handle 1 (weHandle (x 12).dws)).st ≠ .detached ∧
      (((s 12 .stopped).withCtx 1 (x 12)).ep 1 (weHandle (x 12).dws) (weEp (x 12).dws)).st = .stopped ∧
      (((s 12 .stopped).withCtx 1 (x 12)).ep 1 (weHandle (x 12).dws) (weEp (x 12).dws)).streamOk (dwAt (x 12).dws 6).toNat = true ∧
     (s 0x18 .running).Executes 1 2 7 0x18 (x 0x18) ∧
     (s 0x19 .stopped).Executes 1 2 7 0x19 (x 0x19) ∧ (((s 0x19 .stopped).withCtx 1 (x 0x19)).handle 1 (weHandle (x 0x19).dws)).st ≠ .detached ∧
      (((s 0x19 .stopped).withCtx 1 (x 0x19)).ep 1 (weHandle (x 0x19).dws) (weEp (x 0x19).dws)).st = .stopped ∧
     (s 0x1C .running).Executes 1 2 7 0x1C (x 0x1C) ∧ (s 0x1C .running).dev.physPort 1 (wePort (x 0x1C).dws) = some 3 ∧
      ((s 0x1C .running).dev.port 3).bus.resetRequired = false ∧
     (s 0x1D .running).Executes 1 2 7 0x1D (x 0x1D)) := by
  unfold State.Executes
  decide +kernel

theorem wit_PortOpcodeRowsComplete :
    (let w := fun (op d4 : Nat) (b : PortBus) => Small.works (Small.entry op 0 0 d4 0)
       { st := .addressed, port := 3, speed := 3, beslValid := true, besl := 4 } { bus := b }
     let e := fun (op d4 : Nat) => Small.entry op 0 0 d4 0
     (w 0x10 0 { usb2 := .disconnected, ss := .rxDetect }).Executes 1 2 7 0x10 (e 0x10 0) ∧
     (w 0x10 0 { usb2 := .disconnected, ss := .rxDetect }).dev.physPort 1 (wePort (e 0x10 0).dws) = some 3 ∧
     portOpCode 0x10 3 (w 0x10 0 { usb2 := .disconnected, ss := .rxDetect }).dev = 0 ∧
     portOpCode 0x10 3 (w 0x10 0 { usb2 := .connected, ss := .rxDetect }).dev = 0 ∧
     (w 0x11 0 { usb2 := .enabled, usb2Speed := 3, ss := .rxDetect }).Executes 1 2 7 0x11 (e 0x11 0) ∧
     portOpCode 0x11 3 (w 0x11 0 { usb2 := .enabled, usb2Speed := 3, ss := .rxDetect }).dev = 0 ∧
     (w 0x11 1 { usb2 := .enabled, usb2Speed := 3, ss := .rxDetect }).Executes 1 2 7 0x11 (e 0x11 1) ∧
     dwAt (e 0x11 0).dws 4 = 0 ∧ dwAt (e 0x11 1).dws 4 ≠ 0 ∧
     (w 0x11 1 { usb2 := .enabled, usb2Speed := 3, ss := .rxDetect }).dev.l1Besl 1 3 = some 4 ∧
     (let s := w 0x11 1 { usb2 := .enabled, usb2Speed := 3, ss := .rxDetect }
      { s.dev with dict := { inUse := [(okey 0x3003 0x12, 1)] } }.cfg 0x3003 0x12 ≠ 0) ∧
     (w 0x12 0 { usb2 := .disconnected, ss := .u0 }).Executes 1 2 7 0x12 (e 0x12 0) ∧
     portOpCode 0x12 3 (w 0x12 0 { usb2 := .disconnected, ss := .u0 }).dev = 0 ∧
     portOpCode 0x12 3 (w 0x12 0 { usb2 := .suspended, ss := .rxDetect }).dev = 0) ∧
    (let s := fun op d4 => Small.works (Small.entry op 0 0 d4 0) {} { Small.onHs with tc := { st := .attachedSrc } }
     (s 0x13 0).Executes 1 2 7 0x13 (Small.entry 0x13 0 0 0 0) ∧ (s 0x13 0).dev.physPort 1 (wePort (Small.entry 0x13 0 0 0 0).dws) = some 3 ∧
     portOpCode 0x13 3 (s 0x13 0).dev = 0 ∧ ((s 0x13 0).dev.port 3).tc.source = true ∧
     (s 0x14 0).Executes 1 2 7 0x14 (Small.entry 0x14 0 0 0 0) ∧ (pdCode (s 0x14 0).dev 3 (Small.entry 0x14 0 0 0 0).dws).isSome = true) ∧
    (let e := Small.entry 0x14 0 0 1 0
     let d := { (Small.works e {} { Small.onHs with tc := { st := .attachedSrc }, stage := { ident := 0x400 }, pd := { partnerRev := 3, contract := true } }).dev with
       dict := { inUse := [(okey 0x3103 3, 1), (okey 0x3103 0x0B, 1), (okey 0x3103 7, 1)] } }
     ({ dev := d } : State).Executes 1 2 7 0x14 e ∧ d.physPort 1 (wePort e.dws) = some 3 ∧ pdCode d 3 e.dws = none ∧
     bitsOf (dwAt e.dws 4) 3 0 ≠ 4 ∧ bitsOf (dwAt e.dws 4) 3 0 ≠ 5) := by
  unfold State.Executes
  decide +kernel

theorem wit_BusTransactionRowsComplete :
    (let x : Xfer := { first := 64, last := 64, isIn := true, length := 64, frags := [(64, 64)] }
     let s := Small.serving 3 0 { type := .bulk, maxPacket := 512 } {} (some x)
     s.OnPort 3 5 2 ∧ s.dev.owner 3 = 1 ∧ (s.dev.ep 1 5 2).xfer = some x ∧ (s.dev.ep 1 5 2).service = true ∧
      (s.dev.ep 1 5 2).mode.periodic = false ∧ x.isSetup = false ∧ x.dirIn = true ∧ s.dev.viaTt 1 5 = false ∧ (s.dev.ep 1 5 2).runIn = false) ∧
    (let s := fun (c : EpType) (i : Bool) => Small.serving 3 0 { type := c, maxPacket := 64, esit := 64 } {} (Small.xfer i)
     (∀ c ∈ [EpType.iso, EpType.interrupt], ∀ i ∈ [true, false],
       (s c i).OnPort 3 5 2 ∧ ((s c i).dev.ep 1 5 2).xfer = Small.xfer i ∧ ((s c i).dev.ep 1 5 2).service = true ∧
       ((s c i).dev.ep 1 5 2).mode.periodic = true ∧ ((s c i).dev.ep 1 5 2).mode = c ∧
       ((s c i).dev.ep 1 5 2).runIn = false ∧ (s c i).dev.highBand 1 5 2 = false)) ∧
    (let s := fun (c : EpType) (cs : Bool) => Small.serving 1 2 { type := c, maxPacket := 64, esit := 64 } { csplit := cs } (Small.xfer true)
     (∀ c ∈ [EpType.bulk, EpType.interrupt], ∀ b ∈ [true, false],
       (s c b).OnPort 3 5 2 ∧ ((s c b).dev.ep 1 5 2).service = true ∧ (s c b).dev.viaTt 1 5 = true ∧
       ((s c b).dev.ep 1 5 2).mode = c ∧ ((s c b).dev.ep 1 5 2).bus.csplit = b ∧ ((s c b).dev.ep 1 5 2).runIn = false)) ∧
    (let d := { (Small.serving 3 0 { type := .bulk, maxPacket := 512 } { pkts := 1 } (Small.xfer true)).dev with
        engs := [(1, { handles := [(5, { st := .addressed, port := 3, speed := 3, eps := [(2, { st := .running, cfg := { type := .bulk, maxPacket := 512 }, xfer := Small.xfer true, bus := { pkts := 1 }, basePg := [0] })] })], cached := [(5, 0), (5, 2)], pal := [(5, { counter := 32 }), (6, { counter := 9 })] })]
        dict := { inUse := [(okey 0x2010 1, 0), (okey 0x2010 2, 0xFF)] }
        ports := [(3, { owner := 1, bus := { usb2 := .enabled, usb2Speed := 3, ss := .rxDetect, resetRequired := false } })] }
     d.owner 3 = 1 ∧ 1 < d.S ∧ d.perBusy 3 false = false ∧ d.busEps 1 3 false = [(5, 2)] ∧ (d.ep 1 5 2).service = false ∧
      ((d.busEps 1 3 false).filter (fun x => d.eligible 1 x.1 x.2)).find? (fun x => (d.ep 1 x.1 x.2).bus.pkts != 0) = some (5, 2) ∧
      (let u := useCtx 1 5 2 d
       (u.ep 1 5 2).xfer = Small.xfer true ∧ (u.ep 1 5 2).reload = false ∧ u.perBusy 3 false = false ∧
        (Small.xfer true).any (u.fits 1 5 2) = true ∧ u.eligible 1 5 2 = true)) ∧
    (let s := Small.atPort 3 { owner := 0xFF, bus := { usb2 := .enabled, usb2Speed := 3 } }
     (s.dev.port 3).bus.usb2 = .enabled ∧ s.dev.S ≤ s.dev.owner 3) ∧
    (let s := Small.serving 4 0 { type := .interrupt, maxPacket := 64, esit := 64 } {} none
     s.OnPort 3 5 2 ∧ speedSs (s.dev.handle 1 5).speed = true ∧ (s.dev.ep 1 5 2).mode ≠ .iso ∧ (s.dev.ep 1 5 2).mode.periodic = true ∧
      ((s.dev.handle 1 5).ep 2).acts = true ∧ ((s.dev.handle 1 5).ep 2).cfg.streams = false) := by
  unfold State.OnPort
  refine ⟨?_, ?_, ?_, ?_, ?_, ?_⟩
  all_goals decide +kernel

theorem wit_Usb2BusRowsComplete :
    (let s := Small.bus { usb2 := .disconnected, debounce := true }
     (s.dev.port 3).bus.usb2 = .disconnected ∧ (s.dev.port 3).bus.debounce = true) ∧
    usb2Conn ((Small.bus { usb2 := .enabled }).dev.port 3).bus.usb2 = true ∧
    ((Small.bus { usb2 := .resetting }).dev.port 3).bus.usb2 = .resetting ∧
    (let b := ((Small.bus { recUsb2 := true, op := some { opcode := 0x10, slice := 0, wq := 0, idx := 0, waitUsb2 := true } }).dev.port 3).bus
     b.recUsb2 = true ∧ b.ownReset = false ∧ b.usb2 ≠ .resuming ∧ b.op = some { opcode := 0x10, slice := 0, wq := 0, idx := 0, waitUsb2 := true }) ∧
    (let b := ((Small.bus { usb2 := .resuming, recUsb2 := true }).dev.port 3).bus
     b.recUsb2 = true ∧ b.usb2 = .resuming ∧ b.op = none) ∧
    (let b := ((Small.bus { usb2 := .resuming, recUsb2 := true, op := some { opcode := 0x12, slice := 0, wq := 0, idx := 0, waitUsb2 := true } }).dev.port 3).bus
     b.recUsb2 = true ∧ b.usb2 = .resuming ∧ b.op = some { opcode := 0x12, slice := 0, wq := 0, idx := 0, waitUsb2 := true }) ∧
    (let b := ((Small.bus { ss := .recovery }).dev.port 3).bus
     b.ss = .recovery ∧ b.rebus = false) ∧
    (let b := ((Small.bus { usb2 := .resuming }).dev.port 3).bus
     b.usb2 = .resuming ∧ b.recUsb2 = false) ∧
    (let b := ((Small.bus { usb2 := .enabled, op := some { opcode := 0x11, slice := 0, wq := 0, idx := 0, waitUsb2 := true } }).dev.port 3).bus
     b.op = some { opcode := 0x11, slice := 0, wq := 0, idx := 0, waitUsb2 := true } ∧ b.lpm = false ∧ b.usb2 = .enabled) ∧
    ((Small.bus { usb2 := .suspended }).dev.port 3).bus.usb2 = .suspended ∧
    ((Small.bus { lpm := true }).dev.port 3).bus.lpm = true ∧ ((Small.bus { lpm := true }).dev.port 3).bus.lpmDue = none := by decide

theorem wit_SuperSpeedBusRowsComplete :
    (let b := ((Small.bus { ss := .rxDetect, probes := 6 }).dev.port 3).bus
     b.ss = .rxDetect ∧ b.probes < 7) ∧
    (let b := ((Small.bus { ss := .rxDetect, probes := 7 }).dev.port 3).bus
     b.ss = .rxDetect ∧ 7 ≤ b.probes) ∧
    (let b := ((Small.bus { ss := .polling, trainFails := 1 }).dev.port 3).bus
     b.ss = .polling ∧ b.trainFails < 2 ∧ b.startReset = false ∧ b.op = none) ∧
    (let b := ((Small.bus { ss := .polling, trainFails := 2 }).dev.port 3).bus
     b.ss = .polling ∧ 2 ≤ b.trainFails) ∧
    (let d := { (Small.bus { ss := .u0 }).dev with dict := { inUse := [(okey 0x3003 0x10, 20)] } }
     (d.port 3).bus.ss = .u0 ∧ d.uTimeout 3 false ≠ 0 ∧ (d.port 3).bus.startReset = false ∧ (d.port 3).bus.rebus = false) ∧
    (let d := { (Small.bus { ss := .u0 }).dev with dict := { inUse := [(okey 0x3003 0x11, 0)] } }
     (d.port 3).bus.ss = .u0 ∧ d.uTimeout 3 true = 0) ∧
    ((Small.bus { ss := .u2 }).dev.port 3).bus.ss = .u2 ∧
    ((Small.bus { ss := .u0, lgoU3 := true }).dev.port 3).bus.lgoU3 = true ∧
    (let b := ((Small.bus { ss := .u3 }).dev.port 3).bus
     b.ss = .u3 ∧ b.op = none ∧ b.u3Fails = 0) ∧
    (let b := ((Small.bus { ss := .u3, op := some { opcode := 0x12, slice := 0, wq := 0, idx := 0, waitSs := true } }).dev.port 3).bus
     b.ss = .u3 ∧ b.u3Fails = 0 ∧ b.op = some { opcode := 0x12, slice := 0, wq := 0, idx := 0, waitSs := true }) ∧
    (let b := ((Small.bus { ss := .recovery }).dev.port 3).bus
     b.ss = .recovery ∧ b.rebus = false ∧ b.op = none) ∧
    (let b := ((Small.bus { ss := .resetting }).dev.port 3).bus
     b.ss = .resetting ∧ b.startReset = false) := by decide

theorem wit_TypeCRowsComplete :
    (let x := ((Small.tc { st := .unattachedSnk }).dev.port 3)
     x.tc.st = .unattachedSnk ∧ isRp .rp30 = true ∧ x.seq.wait = none ∧ (Small.tc { st := .unattachedSnk }).dev.gesso.level = 0) ∧
    (let x := ((Small.tc { st := .unattachedSrc }).dev.port 3)
     x.tc.st = .unattachedSrc ∧ (Small.tc { st := .unattachedSrc }).dev.gesso.level = 0) ∧
    (let s := Small.tc { st := .attachWaitSrc, cc1 := .rd, vbusMv := 799 }
     let x := s.dev.port 3
     x.tc.st = .attachWaitSrc ∧ x.tc.oneRd = true ∧ x.tc.vbusMv < 800 ∧ s.dev.cfg 0x3103 1 ≠ 1 ∧ x.seq.wait = none ∧ s.dev.gesso.level ≠ 2) ∧
    (let x := ((Small.tc { st := .attachWaitSnk }).dev.port 3).tc
     x.st = .attachWaitSnk ∧ x.bothOpen = true) ∧
    (let x := ((Small.tc { st := .attachedSrc, orientation := 1 }).dev.port 3).tc
     x.st = .attachedSrc ∧ x.attached = true ∧ x.attachedCc = .opened) ∧
    (let x := ((Small.tc { st := .tryWaitSrc, cc2 := .rd }).dev.port 3).tc
     x.st = .tryWaitSrc ∧ x.oneRd = true) ∧
    (let x := ((Small.tc { st := .trySrc }).dev.port 3).tc
     x.st = .trySrc ∧ x.anyRd = false) ∧
    ((Small.tc { st := .trySnk }).dev.port 3).tc.st = .trySnk ∧
    ((Small.tc { st := .errorRecovery }).dev.port 3).tc.st = .errorRecovery ∧
    ((Small.tc { st := .disabled }).dev.port 3).tc.st = .disabled := by decide

theorem wit_PdProtocolRowsComplete :
    (let d := Small.attached {} true
     (d.port 3).tc.attached = true ∧ d.pdOn 3 = true ∧ d.policyUp 3 = true ∧ (d.port 3).seq.pendAns = [] ∧
      PdMsg.getSinkCap ≠ .softReset ∧ PdMsg.getSinkCap ≠ .drSwap ∧ (∀ c, PdMsg.getSinkCap ≠ .bist c) ∧ tabFind (d.port 3).seq.rxId 0 ≠ some 0) ∧
    (let d := Small.attached { pendAns := [.prSwap, .prSwap, .prSwap] } false
     (d.port 3).tc.attached = true ∧ d.pdOn 3 = true ∧ d.policyUp 3 = false ∧ (d.port 3).seq.pendAns.length < 4 ∧ (d.port 3).seq.wait = none ∧
      d.deviceFull (halfOfPort 3) = false ∧ tabFind (d.port 3).seq.rxId 0 ≠ some 7) ∧
    (let d := Small.attached { rxId := [(0, 7)] } true
     (d.port 3).tc.attached = true ∧ d.pdOn 3 = true ∧ (d.port 3).seq.pendAns.length < 4 ∧
      tabFind (d.port 3).seq.rxId 0 = some 7) ∧
    (let d := Small.attached { tx := some { so := .sop1, msg := .discoverIdentity, id := 7, retries := 1 } } true
     (d.port 3).seq.tx = some { so := .sop1, msg := .discoverIdentity, id := 7, retries := 1 }) ∧
    (let d := Small.attached { tx := some { so := .sop, msg := .accept, id := 2, retries := 2 } } true
     (d.port 3).seq.tx = some { so := .sop, msg := .accept, id := 2, retries := 2 }) ∧
    (let d := Small.attached { wait := some .getStatus } true
     (d.port 3).seq.wait = some .getStatus ∧ (d.port 3).tc.source = true) ∧
    (let d := Small.attached { pendAns := [.drSwap] } true
     (d.port 3).seq.pendAns = [.drSwap]) := by decide

theorem wit_PdPolicyTimerRowsComplete :
    (let x := (Small.withPd { expect := .request } { contract := true }).dev.port 3
     x.seq.expect = .request ∧ x.pd.contract = true) ∧
    (Small.withPd { expect := .swapAnswer } {} |>.dev.port 3).seq.expect = .swapAnswer ∧
    (Small.withPd { expect := .softAccept } {} |>.dev.port 3).seq.expect = .softAccept ∧
    (let x := (Small.withPd { trans := true, newRdo := some { raw := 0, pos := 2, mv := 9000, ma := 3000 }, newMv := 9000 } {}).dev.port 3
     x.seq.swap = .none ∧ x.tc.source = true ∧ x.seq.trans = true ∧
      x.seq.newRdo = some { raw := 0, pos := 2, mv := 9000, ma := 3000 } ∧ x.seq.ramping = false ∧ x.seq.hr = .none) ∧
    (Small.withPd { swap := .toSourceWaitPsRdy } {} |>.dev.port 3).seq.swap = .toSourceWaitPsRdy ∧
    (Small.withPd { swap := .toSinkWaitPsRdy } {} |>.dev.port 3).seq.swap = .toSinkWaitPsRdy ∧
    (let x := (Small.withPd {} {}).dev.port 3
     x.tc.source = true ∧ x.pd.contract = false ∧ x.pd.capsSent = 0 ∧ x.seq.idle = true ∧ x.tc.busesOut = true) ∧
    (let x := (Small.withPd {} { capsSent := 49 }).dev.port 3
     x.tc.source = true ∧ x.pd.contract = false ∧ x.seq.trans = false ∧ x.seq.newRdo = none ∧ x.seq.tx = none ∧
      0 < x.pd.capsSent ∧ x.pd.capsSent < 50) ∧
    (let x := (Small.withPd {} { capsSent := 50 }).dev.port 3
     x.tc.source = true ∧ x.pd.contract = false ∧ x.seq.trans = false ∧ x.seq.newRdo = none ∧ x.seq.tx = none ∧
      50 ≤ x.pd.capsSent) ∧
    (let x := (Small.withPd {} { vconn := true, idAttempts := 2 }).dev.port 3
     x.pd.vconn = true ∧ x.pd.idDone = false ∧ 0 < x.pd.idAttempts ∧ x.pd.idAttempts < 3) ∧
    (let x := (Small.withPd {} { vconn := true, idAttempts := 3 }).dev.port 3
     x.pd.vconn = true ∧ x.pd.idDone = false ∧ 3 ≤ x.pd.idAttempts) ∧
    (Small.withPd { expect := .vconnPsRdy } {} |>.dev.port 3).seq.expect = .vconnPsRdy ∧
    (Small.withPd { again := some .prSwap } {} |>.dev.port 3).seq.again = some .prSwap ∧
    (let x := (Small.withPd { hr := .sinkWait } { hrCount := 1 }).dev.port 3
     x.seq.hr = .sinkWait ∧ x.pd.hrCount < 2) ∧
    (let x := (Small.withPd { hr := .sinkWait } { hrCount := 2 }).dev.port 3
     x.seq.hr = .sinkWait ∧ 2 ≤ x.pd.hrCount) := by decide

theorem wit_PpeTimerRowsComplete :
    (let x := (Small.withPd { hr := .waitOff } {}).dev.port 3
     x.seq.hr = .waitOff ∧ x.tc.source = true) ∧
    (Small.withPd { hr := .recover } {} |>.dev.port 3).seq.hr = .recover ∧
    (Small.withPd { hr := .signalling } {} |>.dev.port 3).seq.hr = .signalling ∧
    (let x := (Small.withPd {} { contract := true, obj := 1, offer := [.pps 11000 3000 false], epr := true }).dev.port 3
     x.tc.source = true ∧ x.pd.onPps = true ∧ x.pd.epr = true ∧ x.tc.ppeHeld = false) ∧
    (let x := (Small.tc { st := .attachedSrc }).dev.port 3
     x.tc.source = true ∧ x.tc.busesOut = false) ∧
    (let x := (Small.tc { st := .disabled, ppeRestart := true, offTimeHold := true }).dev.port 3
     x.tc.ppeRestart = true ∧ x.tc.source = false ∧ x.tc.attached = false ∧ x.isSink = false ∧
      x.tc.ppeFailAt = [] ∧ x.tc.offTimeHold = true) := by decide

/-- The image that slice 1 of a part cut in 192 slices exports. -/
def exported : List Dword := imageWords { Small.slice { st := .frozen } with start := { st := 0, sCount := 192 } } 1 0

theorem imageBad_none (S n : Nat) (w : List Dword)
    (h1 : firstBad [(0, dwAt w 0 != 0x4C535844), (4, bitsOf (dwAt w 1) 7 0 != 1), (8, n < Image.total w || Image.total w != Image.formula w)] = none)
    (h2 : crc32c (dwBytes (w.take (Image.total w / 4 - 2))) = dwAt w (Image.total w / 4 - 2))
    (h3 : firstBad (rule3 (parseImage w) w) = none) (h4 : firstBad (rule4 S (parseImage w) w) = none)
    (h5 : firstBad (rule5 (parseImage w) w) = none) (h6 : firstBad (rule6 (parseImage w)) = none)
    (h7 : firstBad (rule7 (parseImage w)) = none) (h8 : firstBad (rule8 (parseImage w)) = none) : imageBad S n w = none := by
  unfold imageBad
  dsimp only
  rw [h1]
  simp only [h2, h3, h4, h5, h6, h7, h8, List.filterMap_cons, Option.map_none]
  simp [firstBad]

theorem exported_good : imageBad 4 2000 exported = none := by
  refine imageBad_none 4 2000 exported ?_ ?_ ?_ ?_ ?_ ?_ ?_ ?_
  · decide +kernel
  · have hk : ∀ (b : List Dword) (c : Dword) (k : Nat), k = b.length → c = crc32c (dwBytes b) →
        crc32c (dwBytes ((b ++ [c, 0]).take k)) = dwAt (b ++ [c, 0]) k := by
      intro b c k h1 h2
      subst h1; subst h2; simp [dwAt]
    exact hk _ _ _ (by decide +kernel) rfl
  all_goals decide +kernel

theorem wit_SliceOperationRowsComplete :
    (let s : SliceSt → State := fun x => { dev := Small.slice { st := x } }
     let bind : Nat → OpBlock := fun n => { slice := n, hostGroup := 0, pasid := 5 }
     let one : OpBlock := { slice := 1 }
     (s .active).Owned (.can 0) ∧ blockUnused 0x40 (bind 2) = false ∧ opCode 0x40 (bind 2) (s .active).dev = (0, 0) ∧
     blockUnused 0x41 one = false ∧ opCode 0x41 one (s .active).dev = (0, 0) ∧ ((s .active).dev.slice 1).st = .active ∧
     (s .quiesced).Owned (.can 0) ∧ opCode 0x41 one (s .quiesced).dev = (0, 0) ∧ ((s .quiesced).dev.slice 1).st ≠ .active ∧
     blockUnused 0x42 one = false ∧ one.all = false ∧ opCode 0x42 one (s .active).dev = (0, 0) ∧
     blockUnused 0x42 { all := true } = false ∧
     blockUnused 0x43 one = false ∧ opCode 0x43 one (s .quiesced).dev = (0, 0)) ∧
    (let s : SliceSt → State := fun x => { dev := Small.slice { st := x } }
     let bind : Nat → OpBlock := fun n => { slice := n, hostGroup := 0, pasid := 5 }
     let one : OpBlock := { slice := 1 }
     (s .frozen).Owned (.can 0) ∧ blockUnused 0x44 (bind 1) = false ∧ opCode 0x44 (bind 1) (s .frozen).dev = (0, 0) ∧
     (s .frozen).dev.rehomeBad 1 0 = none ∧ blockUnused 0x45 one = false ∧ opCode 0x45 one (s .frozen).dev = (0, 0) ∧
     blockUnused 0x48 one = false ∧ opCode 0x48 one (s .quiesced).dev = (0, 0) ∧
     blockUnused 0x49 one = false ∧ opCode 0x49 one (s .quiesced).dev = (0, 0)) ∧
    (let s : State := { dev := { Small.slice { st := .frozen } with start := { st := 0, sCount := 192 } } }
     let b : OpBlock := { slice := 1, imageAddr := 4096, length := 100000 }
     blockUnused 0x46 b = false ∧ opCode 0x46 b s.dev = (0, 0) ∧ (s.dev.slice 1).deferred = 0 ∧ (s.dev.slice 1).wqs = [] ∧
     b.imageAddr.toNat % 8 = 0 ∧ 4 * (imageWords s.dev 1 s.dev.start.exportSeq.toNat).length ≤ b.length ∧
     s.dev.imageLink (s.dev.slice 1).group (if s.dev.S = 1 then 0 else (s.dev.slice 1).half) = some 0) ∧
    (let s : State := { dev := Small.slice { st := .frozen } }
     let b : OpBlock := { slice := 2, hostGroup := 0, pasid := 5, length := 2000 }
     let image := exported
     blockUnused 0x47 b = false ∧ opCode 0x47 b s.dev = (0, 0) ∧
     (s.dev.imageLink b.hostGroup (if s.dev.S = 1 then 0 else s.dev.homeHalf b.slice)).isSome = true ∧ image ≠ [] ∧
     imageBad s.dev.S b.length image = none ∧ s.dev.bindBad b.slice b.hostGroup b.pasid true = false) ∧
    (let s : State := { dev := Small.slice { st := .quiesced } }
     let b : OpBlock := { port := 3, target := 1 }
     s.Owned (.can 0) ∧ blockUnused 0x4A b = false ∧ b.port < 192 ∧ s.dev.S ≤ s.dev.owner b.port ∧
     b.target < s.dev.S ∧ (s.dev.slice b.target).st = .quiesced ∧ s.dev.S ≤ 192) := by
  unfold State.Owned State.Serves
  refine ⟨?_, ?_, ?_, ?_, ?_⟩
  · decide +kernel
  · decide +kernel
  · decide +kernel
  · exact ⟨by decide +kernel, by decide +kernel, by decide +kernel, by decide +kernel, exported_good, by decide +kernel⟩
  · decide +kernel

theorem wit_SliceEventRowsComplete :
    (let s : State := { dev := Small.slice { st := .quiescing } }
     let d := drainAll 1 (stopAll 1 s.dev)
     let d := ((d.slice 1).wqs.filter (fun w => w.2.ciDirty)).foldl (fun d w => writeCi 1 w.1 d) d
     (s.dev.slice 1).st = .quiescing ∧ d.drained 1 = true) ∧
    (let s := Small.atPort 3 { fenceWait := true, bus := { usb2 := .connected, ss := .rxDetect } }
     (s.dev.port 3).fenceWait = true ∧ (s.dev.port 3).bus.usb2 = .connected ∧ (s.dev.port 3).bus.ss = .rxDetect) ∧
    (let s : State := { dev := Small.slice { st := .active } }
     (0 : FuncId).val = s.dev.cfg 0x2002 1 ∧ bitOf (1 : Dword) 8 = false ∧ bitsOf (1 : Dword) 7 0 < s.dev.S ∧
     (s.dev.slice (bitsOf (1 : Dword) 7 0)).st ≠ .free ∧ bitOf (256 : Dword) 8 = true) ∧
    (let s : State := { dev := { Small.dev with halves := [(0, { wash := [{ slice := 1, page := 600 }], used := [600], bankWait := [5] })] } }
     (s.dev.half 0).wash = [{ slice := 1, page := 600 }] ∧ (s.dev.half 0).bankWait.contains 5 = true) := by decide +kernel

theorem wit_PowerDomainRowsComplete :
    (let s : State := { dev := { Small.dev with ports := [(3, { bus := { usb2 := .enabled } }), (8, {})] } }
     s.Owned (.can 0) ∧ (s.dev.pg 0).st ≠ 2 ∧ (s.dev.pg 0).st ≠ 3 ∧ (s.dev.pg 1).st ≠ 2 ∧
      (∀ k < 8, (s.dev.port (8 * 1 + k)).bus.sleeps = true) ∧ (s.dev.port (8 * 0 + 3)).bus.sleeps = false) ∧
    (let s : State := { dev := { Small.dev with pgs := [(0, { st := 2, path := some (.can 0) }), (1, { st := 1 })] } }
     (s.dev.pg 0).path = some (.can 0) ∧ (s.dev.pg 1).st = 1) ∧
    (let s : State := { dev := { Small.slice { st := .active } with funcs := [(1, { upState := 3 }), (2, { upState := 2 })], dict := { inUse := [(okey 0x2010 1, 0), (okey 0x2010 2, 0xFF), (okey 0x2011 1, 0xFF), (okey 0x2013 1, 0xFF)] } } }
     s.Owned (.can 0) ∧ (s.dev.func 1).upState = 3 ∧ (s.dev.func 3).upState = 0 ∧ s.dev.groupOf 3 = none ∧ (s.dev.func 2).upState = 2 ∧
      (s.dev.func 0).upState = 0 ∧ s.dev.groupOf 0 = some 0 ∧ s.dev.hgSt 0 ≠ .proven ∧ 1 ∈ s.dev.boundTo 0 ∧ (s.dev.slice 1).st = .active) ∧
    (let s : State := { dev := { Small.dev with halves := [(0, { used := [600] })] } }
     s.Owned (.can 0) ∧ (∀ b < 16, bitOf (1 : BitVec 16) b = true → (s.dev.half 0).inBank b = 0) ∧
      bitOf (4 : BitVec 16) 2 = true ∧ (s.dev.half 0).inBank 2 ≠ 0) := by
  unfold State.Owned State.Serves
  refine ⟨?_, ?_, ?_, ?_⟩
  all_goals decide +kernel

theorem wit_PowerStageRowsComplete :
    (let f : Dword := 939524272
     let q : Dword := 939525049
     let r : Dword := 805312942
     let s : Dword → State := fun x => { dev := { Small.dev with pgs := [(0, { frames := [x] })] } }
     ((s f).dev.pg 0).frames = f :: [] ∧ ((s q).dev.pg 0).frames = q :: [] ∧ frameAddr f = 3 ∧ frameCmd f = 8 ∧ frameArg f = 0 ∧
      frameAddr q = 3 ∧ frameCmd q = 8 ∧ frameArg q = 3 ∧ frameOk r = true ∧ frameAddr r = 3 ∧ frameCmd r = 0 ∧ frameArg r ≠ 0 ∧
      ((s f).dev.port 3).stage.fails < 2) ∧
    (let s : State := { dev := { Small.dev with gesso := { level := 2 } } }
     s.dev.gesso.level = 2 ∧ (∀ k < 8, (s.dev.port k).stage.present = false)) ∧
    (let x := (Small.atPort 3 { tc := { retryHold := true }, stage := { lowered := true }, pd := { contract := true } }).dev.port 3
     x.tc.retryHold = true ∧ x.stage.lowered = true ∧ x.pd.contract = true) ∧
    (let s : State := { dev := Small.dev }
     s.Serves (.can 0) ∧ (s.dev.pg 0).stop = false ∧ s.dev.gesso.forceSafeN = true ∧ s.dev.sys.alertLow = false ∧ s.dev.gesso.level = 0) ∧
    ({ Small.dev with gesso := { forceSafeN := false } } : Dev).gesso.forceSafeN = false := by
  unfold State.Serves
  refine ⟨?_, ?_, ?_, ?_, ?_⟩
  · decide +kernel
  · decide +kernel
  · decide +kernel
  · decide +kernel
  · decide +kernel

theorem wit_EaselRowsComplete :
    (let s : State := { dev := { Small.dev with cores := [(0, { st := 1 }), (1, { st := 1, cur := some { dws := [0xFF000000, 0, 0, 0], slot := 0, gen := 0 } }), (2, { st := 1, cur := some { dws := [0x01000000, 0, 0, 0], slot := 1, gen := 0 } }), (3, { st := 2 })] } }
     s.dev.coreUp 0 = true ∧ (s.dev.core 0).cur = none ∧ ((s.dev.core 1).cur.map (fun t => t.slice)) = some 255 ∧
      ((s.dev.core 2).cur.map (fun t => t.slice)) = some 1 ∧ isBuilder 2 = false ∧ (s.dev.core 0).st = 1 ∧ isBuilder 0 = false ∧
      s.dev.update.st ≠ 1 ∧ (s.dev.core 3).st = 2 ∧ isBuilder 3 = false ∧
      s.dev.postInvalid 0 [0xFF000000, 0, 0, 0] = false ∧ s.dev.postFull 0 [0xFF000000, 0, 0, 0] = false ∧
      bitsOf (dwAt [0xFF000000, 0, 0, 0] 1) 23 0 = 0 ∧ s.dev.postInvalid 0 [0, 0, 0, 0] = true) ∧
    (let t : Task := { dws := [0xFF000000, 0, 0, 0], slot := 0, gen := 0 }
     let s : State := { dev := { Small.dev with cores := [(0, { st := 1 })], halves := [(0, { easel := { delay := List.replicate 128 t } })] } }
     s.dev.coreUp 0 = true ∧ s.dev.postInvalid 0 t.dws = false ∧ s.dev.postFull 0 [0xFF000000, 0x03000000, 0, 0] = false ∧
      (s.dev.half (0 / 6)).easel.delay.any (fun t => t.handle == 0) = true) ∧
    (let w : List Dword := [0xFF000000, 0x03000000, 0, 0]
     let t : Task := { dws := w, slot := 0, gen := 0 }
     let s : State := { dev := { Small.dev with cores := [(0, { st := 1 })], halves := [(0, { easel := { ready := List.replicate 128 t } })] } }
     s.dev.coreUp 0 = true ∧ s.dev.postInvalid 0 w = false ∧ s.dev.postFull 0 w = true) ∧
    (let s : State := { dev := { Small.dev with flash := { stB := 3 }, start := { st := 0, sCount := 4, part := 0 } } }
     s.Owned (.can 0) ∧ s.dev.update.st ≠ 1 ∧ (∀ k < 12, (s.dev.core k).st ≠ 2 ∧ (s.dev.core k).st ≠ 3) ∧
      s.dev.flash.st s.dev.inactive = 3 ∧ s.dev.flash.minVersion.toNat ≤ s.dev.start.fwVersion.toNat) ∧
    (let s : State := { dev := { Small.dev with update := { st := 1, core := 0 }, cores := [(0, { st := 3 }), (5, { st := 1 })] } }
     s.dev.update.st = 1 ∧ s.dev.update.core = 0 ∧ (s.dev.core 0).st = 3 ∧ isBuilder 5 = true ∧ s.dev.coreUp 5 = true ∧
      (s.dev.core 5).dictReq = none ∧ 240 ≤ bitsOf (0xF0 : Dword) 7 0) ∧
    (let s : State := { dev := { Small.dev with update := { fwd := some (.can 0, 0x8000, 1, [1]) }, cores := [(5, { st := 1 })] } }
     s.dev.update.fwd = some (.can 0, 0x8000, 1, [1]) ∧ isBuilder 5 = true ∧ s.dev.coreUp 5 = true ∧ 0x80 ≤ (0x81 : Byte).toNat) := by
  unfold State.Owned State.Serves
  refine ⟨?_, ?_, ?_, ?_, ?_, ?_⟩
  all_goals decide +kernel

theorem wit_IntegrityRowsComplete :
    (let s : State := { dev := Small.dev }
     s.dev.unitServes (.generator 0 3) = true ∧ s.dev.unitServes (.fresco 1) = true ∧ bitOf (s.dev.half 0).genOut 3 = false ∧
      tabFind s.dev.sys.scrubAt 2 = none) := by decide +kernel

theorem wit_DictionaryRowsComplete :
    (let s : State := { dev := Small.dev }
     let p : Path := .can 0
     (∃ o, s.Accepts p 0x6105 3 [1] o ∧ o.cls ≠ .act) ∧ s.Serves p ∧
      s.dev.writeBad (s.dev.isOwner p) 0x7777 1 [1] = some (0x18, 1) ∧
      s.dev.dictRead 0x6105 3 = .ok [0] ∧ s.dev.dictRead 0x7777 1 = .error 1 ∧
      (∃ o, s.Accepts p 0x2005 1 [0xA5] o ∧ o.cls = .act) ∧ (∃ o, s.Accepts p 0x2005 2 [0xA5] o ∧ o.cls = .act) ∧
      s.dev.flash.saving = none) ∧
    (let s : State := { dev := Small.slice { st := .active } }
     let p : Path := .can 0
     (∃ o, s.Accepts p 0x6000 2 (leBytes 2 (5 : BitVec 16).toNat) o ∧ o.cls = .act) ∧
      (∃ o, s.Accepts p 0x1220 1 (leBytes 4 (1 : Dword).toNat) o ∧ o.cls = .act) ∧
      (∃ o, s.Accepts p 0x1220 2 [1] o ∧ o.cls = .act) ∧ (∃ o, s.Accepts p 0x1220 3 [1] o ∧ o.cls = .act) ∧
      (∃ o, s.Accepts p 0x1220 4 [0xA5] o ∧ o.cls = .act) ∧ (∃ o, s.Accepts p 0x1220 5 [0xA5] o ∧ o.cls = .act)) ∧
    (∀ op ∈ [1, 2, 3], let d : Dev := { Small.dev with cores := [(0, { st := 1 })], mbox := { op := op } }
      d.isManager 0 = true ∧ d.gesso.level = 0 ∧ d.start.st ≠ 2 ∧ (d.half 0).inReset = false ∧ d.mbox.busy = false ∧
      d.serverOut = false ∧ d.mbox.op = op) ∧
    ({ Small.dev with flash := { saving := some (true, .can 0) } } : Dev).flash.saving = some (true, .can 0) := by
  unfold State.Accepts State.Serves
  refine ⟨⟨⟨_, ⟨by decide +kernel, by decide +kernel, rfl, by decide +kernel⟩, by decide +kernel⟩, by decide +kernel, by decide +kernel, by decide +kernel, by decide +kernel,
    ⟨_, ⟨by decide +kernel, by decide +kernel, rfl, by decide +kernel⟩, by decide +kernel⟩,
    ⟨_, ⟨by decide +kernel, by decide +kernel, rfl, by decide +kernel⟩, by decide +kernel⟩, by decide +kernel⟩,
    ⟨⟨_, ⟨by decide +kernel, by decide +kernel, rfl, by decide +kernel⟩, by decide +kernel⟩,
     ⟨_, ⟨by decide +kernel, by decide +kernel, rfl, by decide +kernel⟩, by decide +kernel⟩,
     ⟨_, ⟨by decide +kernel, by decide +kernel, rfl, by decide +kernel⟩, by decide +kernel⟩,
     ⟨_, ⟨by decide +kernel, by decide +kernel, rfl, by decide +kernel⟩, by decide +kernel⟩,
     ⟨_, ⟨by decide +kernel, by decide +kernel, rfl, by decide +kernel⟩, by decide +kernel⟩,
     ⟨_, ⟨by decide +kernel, by decide +kernel, rfl, by decide +kernel⟩, by decide +kernel⟩⟩, by decide +kernel, by decide +kernel⟩

theorem wit_HerobRowsComplete :
    (let fr : HFrame := { txn := 1, index := 0x1000, sub := 4 }
     let s : State := { dev := { Small.dev with cores := [(0, { st := 1 })] } }
     s.Hears 0 fr ∧ (s.noted 0 0x10 fr).pathBusy (.can 0) = false ∧ fr.seq = 0 ∧ (s.noted 0 0x10 fr).unserved fr.index.toNat = false ∧
      (s.noted 0 0x10 fr).dictRead fr.index.toNat fr.sub.toNat = .ok (leBytes 4 s.dev.start.fwVersion.toNat)) ∧
    (let fr : HFrame := { txn := 1, index := 0x6105, sub := 3, data := [1] }
     let st : HFrame := { txn := 1, index := 0x6105, sub := 3, data := [57, 0, 0, 0] }
     let s : State := { dev := { Small.dev with cores := [(0, { st := 1 })] } }
     s.Hears 0 fr ∧ (s.noted 0 0x20 fr).pathBusy (.can 0) = false ∧ fr.seq = 0 ∧ fr.data ≠ [] ∧ fr.data.length ≤ 56 ∧
      s.Hears 0 st ∧ (s.noted 0 0x22 st).pathBusy (.can 0) = false ∧ st.seq = 0 ∧ 4 ≤ st.data.length ∧
      57 ≤ ofBytes (st.data.take 4) ∧ ofBytes (st.data.take 4) ≤ 4096) ∧
    (∀ w ∈ [true, false],
      let x : Seg := { isWrite := w, txn := 1, index := 0x1201, sub := 1, total := 57, next := 2, data := [] }
      let fr : HFrame := { txn := 1, index := 0x1201, sub := 1, seq := 2, data := [7] }
      let s : State := { dev := { Small.dev with cores := [(0, { st := 1 })], cans := [(0, { seg := some x })] } }
      s.Hears 0 fr ∧ (s.dev.can 0).seg = some x ∧ x.owns fr = true ∧ x.isWrite = w ∧ fr.seq = x.next ∧
       fr.data.length = min 56 (x.total - 56 * (fr.seq - 1))) ∧
    (let x : Seg := { isWrite := false, txn := 1, index := 0x1201, sub := 1, total := 57, next := 2, data := [] }
     let s : State := { dev := { Small.dev with cans := [(0, { mini := some x })] } }
     (s.dev.can 0).seg = none ∧ (s.dev.can 0).mini = some x) ∧
    (let fr : HFrame := { txn := 1, index := 0x1000, sub := 1 }
     let s : State := { dev := { Small.dev with gesso := { vdd := true, clock := true, loop := true } } }
     s.dev.miniUp 0 = true ∧ repeats (s.dev.can 0).lastMini fr = false ∧
      (s.dev.modCan 0 (fun x => { x with lastMini := some (0x10, fr) })).miniBusy 0 = false ∧ fr.seq = 0 ∧
      miniServes fr.index.toNat fr.sub.toNat = true ∧ s.dev.gesso.vdd = true ∧ s.dev.gesso.clock = true ∧ s.dev.gesso.level ≠ 3 ∧
      s.dev.cfg 0x1100 5 ≠ 0 ∧ s.dev.linkEnabled 0 = true ∧ (s.dev.can 0).busOff = false ∧ (s.dev.can 0).overflow = []) ∧
    (({ Small.dev with cans := [(0, { busOff := true })] } : Dev).can 0).busOff = true := by
  unfold State.Hears
  refine ⟨?_, ?_, ?_, ?_, ?_, ?_⟩
  all_goals decide +kernel

theorem wit_StartRowsComplete :
    (let s : State := { dev := { start := { st := 1, type := 1, trigger := 1 } } }
     s.dev.start.half = none ∧ s.dev.starting = true ∧ s.dev.firstPart = 0) ∧
    (let s : State := { dev := { Small.dev with start := { st := 0, half := some 1 }, sinopia := { up := true } } }
     s.dev.start.half = some 1 ∧ s.dev.sinopia.up = true) ∧
    (let s : State := { dev := { start := { st := 2, retryDue := true } } }
     s.dev.start.retryDue = true ∧ s.dev.gesso.locked = false ∧ s.dev.canStart = true) ∧
    (let s : State := { dev := Small.dev }
     s.Owned (.can 0) ∧ s.dev.startBusy = false ∧ s.dev.gesso.resetN = true ∧ s.dev.gesso.railsGood = true ∧ s.dev.gesso.level = 0 ∧
      s.dev.gesso.clock = true ∧ s.dev.gesso.refclk = true) ∧
    (let s : State := { dev := { Small.dev with update := { st := 1 } } }
     s.Owned (.can 0) ∧ s.dev.startBusy = true) ∧
    (let s : State := { dev := { gesso := { resetN := false } } }
     s.dev.gesso.resetN = false ∧ ({ s.dev with gesso := { s.dev.gesso with resetN := true } } : Dev).canStart = true) ∧
    (let s : State := { dev := { gesso := { railsGood := false }, halves := [(0, { inReset := true })] } }
     s.dev.gesso.level = 0 ∧ (s.dev.half 0).inReset = true ∧ s.dev.start.retryDue = false ∧ s.dev.start.waitTrigger = 0 ∧
      ({ s.dev with gesso := { s.dev.gesso with railsGood := true } } : Dev).canStart = true) ∧
    (let s : State := { dev := { gesso := { clock := false } } }
     s.dev.gesso.clock = false ∧ s.dev.gesso.vdd = true) ∧
    (let s : State := { dev := { gesso := { refclk := false }, halves := [(0, { inReset := true })] } }
     s.dev.gesso.refclk = false ∧ (s.dev.half 0).inReset = true ∧ s.dev.start.retryDue = false ∧ s.dev.start.waitTrigger = 0 ∧
      ({ s.dev with gesso := { s.dev.gesso with refclk := true } } : Dev).canStart = true) ∧
    (let s : State := { dev := { gesso := { vdd := false, vsrv := false } } }
     s.dev.gesso.vdd = false ∧ s.dev.gesso.vsrv = false) := by
  unfold State.Owned State.Serves
  decide +kernel

theorem wit_StandbyRowsComplete :
    (let s : State := { dev := Small.dev }
     s.Owned (.can 0) ∧ s.dev.sliceActive = false ∧ s.dev.startBusy = false ∧ s.dev.flash.busy = false ∧ s.dev.gesso.level = 0 ∧
      (s.dev.half 0).inReset = false) ∧
    (let s : State := { dev := Small.slice { st := .active } }
     s.Owned (.can 0) ∧ s.dev.sliceActive = true) ∧
    (let g (l : Nat) : Gesso := { level := l, loop := true }
     let s (l : Nat) : State := { dev := { Small.dev with gesso := g l, dict := { inUse := [(okey 0x2101 3, 0x3F)] } } }
     (s 3).dev.gesso.level = 3 ∧ (s 2).dev.gesso.level = 2 ∧ (∀ b < 6, (s 2).dev.cfg 0x2101 3 / 2 ^ b % 2 = 1) ∧
      (∀ b < 6, (s 3).dev.cfg 0x2101 3 / 2 ^ b % 2 = 1) ∧ (s 3).dev.gesso.waking = false ∧ (s 2).dev.gesso.waking = false ∧
      (s 3).dev.linkEnabled 0 = true ∧ (s 3).dev.gesso.loop = true ∧ (s 3).dev.gesso.vdd = true) ∧
    (let s : State := { dev := { gesso := { vdd := false, vsrv := false } } }
     s.dev.gesso.vdd = false ∧ s.dev.gesso.vsrv = false) ∧
    (let s : State := { dev := { Small.dev with
       gesso := { level := 2 }, dict := { inUse := [(okey 0x2101 3, 0x3F)] }
       ports := [(3, { stage := { present := true }, tc := { st := .unattachedSrc } }), (4, { bus := { usb2 := .suspended } })] } }
     s.dev.gesso.level = 2 ∧ s.dev.watches 3 = true ∧ s.dev.busWatches 4 = true ∧
      (∀ b < 6, s.dev.cfg 0x2101 3 / 2 ^ b % 2 = 1) ∧ s.dev.gesso.waking = false) ∧
    (let s (l : Nat) : State := { dev := { Small.dev with gesso := { level := l, waking := true, wakeLow := true } } }
     (s 2).dev.gesso.waking = true ∧ (s 2).dev.gesso.wakeLow = true ∧ (s 2).dev.gesso.level = 2 ∧ (s 3).dev.gesso.level = 3) ∧
    (let s (x : Nat) : State := { dev := { Small.dev with flash := { stage := x } } }
     (s 1).dev.flash.stage = 1 ∧ (s 3).dev.flash.stage = 3 ∧ (s 1).dev.inactive = 1 ∧ (s 3).dev.inactive = 1) ∧
    ((1149 : BitVec 16).toInt < 1150 ∧ 1150 ≤ (1150 : BitVec 16).toInt ∧ (List.replicate 4096 (0 : Byte)).length = 4096) ∧
    (let s : State := { dev := { Small.dev with gesso := { thermalWait := true, locked := true } } }
     s.dev.gesso.thermalWait = true ∧ s.dev.gesso.locked = true) := by
  unfold State.Owned State.Serves
  refine ⟨?_, ?_, ?_, ?_, ?_, ?_, ?_, ⟨by decide, by decide, List.length_replicate ..⟩, ?_⟩
  all_goals decide +kernel

theorem wit_CompletionPhase : (3 : Nat) < 32 ∧ (31 : Nat) < 32 := by decide

theorem wit_PeriodicCosts : ((4 : Nat) = 4 ∨ (4 : Nat) = 5) ∧ ((5 : Nat) = 4 ∨ (5 : Nat) = 5) ∧ 0 < (1024 : Nat) := by decide

theorem wit_SharesAndBudgets : (192, [147500, 147500, 320000, 80000, 24000, 375, 10000]) ∈
    [(96, [295000, 295000, 640000, 160000, 48000, 750, 20000]), (192, [147500, 147500, 320000, 80000, 24000, 375, 10000])] := by decide

theorem wit_LockClear :
    (let s : State := { dev := Small.dev }
     ∃ o, s.Accepts (.can 0) 0x1220 4 [0xA5] o ∧ o.cls = .act ∧ s.dev.gesso.locked = false) ∧
    (let d : Dev := { gesso := { locked := true, frFatal := none }, start := { st := 2 } }
     d.gesso.locked = true ∧ (raise { c := 5 } { d with
       gesso := { d.gesso with locked := false, failedStarts := 0, frFatal := none }
       start := { d.start with st := 1, type := 1, waitTrigger := 9 } }).canStart = true) ∧
    (let d : Dev := { gesso := { locked := true, railsGood := false }, start := { st := 2 } }
     d.gesso.locked = true ∧ (raise { c := 5 } { d with
       gesso := { d.gesso with locked := false, failedStarts := 0, frFatal := none }
       start := { d.start with st := 1, type := 1, waitTrigger := 9 } }).canStart = false) := by
  unfold State.Accepts State.Serves
  exact ⟨⟨_, ⟨by decide +kernel, by decide +kernel, rfl, by decide +kernel⟩, by decide +kernel, by decide +kernel⟩,
    by decide +kernel, by decide +kernel⟩

theorem wit_EventsAndFaultRecords : Config.causeSeverity ({ c := 1 } : Ev).c = 0 ∧ Config.causeSeverity ({ c := 4 } : Ev).c = 3 ∧
    Config.causeSeverity ({ c := 16 } : Ev).c ≠ 0 ∧ Config.causeSeverity ({ c := 16 } : Ev).c ≠ 3 ∧ (1 : Nat) ≠ ({ c := 4 } : Ev).c ∧
    State.reset.dev.gesso.frFatal = none ∧ (1 : Nat) ≠ State.reset.dev.gesso.frNext := by decide

theorem wit_FragmentCuts : 0 < (512 : Nat) ∧ (1, 511) ∈ cuts 512 1 1000 ∧ (512, 489) ∈ cuts 512 1 1000 := by decide +kernel

theorem wit_LocalPortNumbers :
    (let d : Dev := { ports := [(3, { owner := 1 }), (7, { owner := 1 })] }
     (1 ≤ 2 ∧ 2 ≤ (d.portsOf 1).length) ∧ (d.portsOf 1).length < 3 ∧ (3 : Nat) < 7 ∧ (7 : Nat) < 192 ∧ d.owner 3 = d.owner 7) := by
  decide +kernel

theorem wit_PathChoice :
    (let d (pin : Nat) (fs : Tab Func) : Dev := { Small.dev with
       dict := { inUse := [(okey 0x2010 1, 0), (okey 0x2010 2, 2), (okey 0x4001 0x11, pin)] }
       slices := [(1, { st := .active, group := 0 })], funcs := fs, sinopia := { up := true } }
     let both : Tab Func := [(0, { linkUp := true }), (2, { linkUp := true })]
     let ok (d : Dev) (f : Nat) : Bool := d.carries 1 f && d.reach 0 f
     (2 ∈ (d 2 both).members 0 ∧ ok (d 2 both) 2 = true ∧ (d 2 both).cfg 0x4001 0x11 = 2) ∧
     (¬((d 0xFF both).cfg 0x4001 0x11 ∈ (d 0xFF both).members 0) ∧
       (((d 0xFF both).members 0).filter (fun f => halfOfFunc f == 0)).find? (ok (d 0xFF both)) = some 0) ∧
     (∀ f ∈ (d 0xFF [(2, { linkUp := true })]).members 0, halfOfFunc f = 0 → ok (d 0xFF [(2, { linkUp := true })]) f = false) ∧
     (d 0xFF []).pickLink 1 0 = none) := by decide +kernel

theorem wit_HandshakeReturn :
    (let d (st : HgSt) : Dev := { Small.dev with
       dict := { inUse := [(okey 0x2010 1, 0), (okey 0x2010 2, 2), (okey 0x2012 1, 0xFF)] }
       groups := [(0, { st := st, startPort := 0, nonce := some 0x500000007 })], funcs := [(2, { retLo := 7 })]
       sinopia := { up := st == .pending } }
     let p := d .pending
     let s : State := { dev := p }
     halfOfFunc (0 : FuncId) = 0 ∧ p.sinopia.up = true ∧ p.groupOf (0 : FuncId) = some 0 ∧ p.groupOf (2 : FuncId) = some 0 ∧ p.hgSt 0 = .pending ∧
     (0 : FuncId).val = (s.dev.group 0).startPort.toNat ∧ (2 : FuncId).val ≠ (s.dev.group 0).startPort.toNat ∧
     (p.group 0).nonce = some ((5 : Dword) ++ (p.func 2).retLo) ∧ (p.group 0).nonce ≠ some ((6 : Dword) ++ (p.func 2).retLo) ∧
     (d .proven).groupOf 2 = some 0 ∧ (d .proven).hgSt 0 ≠ .pending ∧ halfOfFunc (2 : FuncId) = 1 ∧ (d .proven).sinopia.up = false) := by
  decide +kernel

theorem wit_FieldClasses : (0x6105 : Nat) < 0x10000 ∧ (3 : Nat) < 256 ∧ (∀ o, State.reset.dev.objOf 0x6105 3 = some o → o.acc ≠ .wo) ∧
    okey 0x6105 3 ∉ State.reset.dev.dict.dirty ∧ okey 0x6106 3 ≠ okey 0x6105 3 := by
  refine ⟨by decide, by decide, ?_, by decide, by decide⟩
  have h : (State.reset.dev.objOf 0x6105 3).all (fun o => o.acc != .wo) = true := by decide +kernel
  intro o ho
  rw [ho] at h
  simpa using h

theorem wit_OnlyTheOwnerConfigures :
    (let s : State := { dev := { Small.dev with dict := { inUse := [(okey 0x2004 1, 0)] } } }
     s.Serves (.can 0) ∧ s.dev.isOwner (.can 0) = false) ∧
    (let s : State := { dev := Small.dev }
     s.Serves .admin ∧ s.dev.isOwner .admin = false) := by
  unfold State.Serves; decide +kernel

theorem wit_SafeHold : 1150 ≤ (1150 : BitVec 16).toInt ∧ 1150 ≤ (1200 : BitVec 16).toInt ∧
    2 ≤ ({ gesso := { failedStarts := 2 } } : Dev).gesso.failedStarts ∧ ({ gesso := { failedStarts := 1 } } : Dev).gesso.failedStarts < 2 := by
  decide

theorem wit_DoorbellsStayInTheSlice : (∃ v, Instr.epDoorbell 0 1 5 = .epDoorbell 0 1 v) ∧ (2 : Nat) ≠ (1 : SliceId).val := ⟨⟨5, rfl⟩, by decide⟩

theorem wit_PaletteRenewal :
    (let d : Dev := { Small.dev with slices := [(1, { st := .active })] }
     1 ∈ d.notFree ∧ 2 ∉ d.notFree ∧ d.S ≠ 1 ∧ (0 : Nat) = 0) ∧
    (let d : Dev := { slices := [(0, { st := .active })] }
     0 ∈ d.notFree ∧ d.S = 1) := by decide +kernel

theorem wit_HerobFrames : ([1, 2, 3, 4, 5, 6, 7, 8, 9] : List Byte).length ≤ 64 ∧
    (let d : Dev := { Small.dev with gesso := { Small.dev.gesso with level := 0 }, cans := [(0, { lastFrame := some (0x10, { txn := 7, index := 0x2100, sub := 1 }) })] }
     let s : State := { dev := d }
     let fr : HFrame := { txn := 7, index := 0x2100, sub := 1 }
     d.canServes 0 = true ∧ (d.can (0 : LinkId)).lastFrame = some (0x10, fr) ∧ (d.can (0 : LinkId)).cur = none ∧
     (d.can (0 : LinkId)).waiting = [] ∧ Instr.read 0 fr ∈ [Instr.read 0 fr, .segGet 0 fr, .writeSegStart 0 fr] ∧
     Instr.segPut 0 fr [] ∈ [Instr.write 0 fr, .segPut 0 fr []]) := by decide +kernel

theorem wit_StagedBytes :
    (let d (st : Nat) : Dev := { Small.dev with flash := { Small.dev.flash with stage := st } }
     let s : State := { dev := d 0 }
     s.Settled ∧ s.Owned (.can 0) ∧ (List.replicate 4096 (7 : Byte)).length = 4096 ∧ (d 0).flash.busy = false ∧ (d 1).flash.busy = true ∧
     (State.Owned { dev := d 1 } (.can 0)) ∧ (State.Settled { dev := d 1 })) := by
  refine ⟨rfl, ⟨⟨?_, ?_, ?_, ?_⟩, ?_⟩, List.length_replicate .., rfl, rfl, ⟨⟨?_, ?_, ?_, ?_⟩, ?_⟩, rfl⟩ <;> decide +kernel

theorem wit_ObjectAccessCompletes :
    (let s : State := { dev := Small.dev }
     let p : Path := .can 0
     (∃ o, s.Accepts p 0x6105 3 [1] o ∧ o.acc ≠ .wo ∧ o.cls = .l) ∧ (∃ o, s.Accepts p 0x2002 1 [1] o ∧ o.acc ≠ .wo ∧ o.cls = .b) ∧
     (∃ o, s.Accepts p 0x4001 0x10 [1] o ∧ o.acc ≠ .wo ∧ o.cls = .q) ∧
     s.Serves p ∧ s.dev.idxExists 0x6105 = true ∧ (∃ o, s.dev.objOf 0x6105 3 = some o ∧ o.acc ≠ .wo)) := by
  unfold State.Accepts State.Serves
  refine ⟨⟨_, ⟨by decide +kernel, by decide +kernel, rfl, by decide +kernel⟩, by decide +kernel, by decide +kernel⟩,
    ⟨_, ⟨by decide +kernel, by decide +kernel, rfl, by decide +kernel⟩, by decide +kernel, by decide +kernel⟩,
    ⟨_, ⟨by decide +kernel, by decide +kernel, rfl, by decide +kernel⟩, by decide +kernel, by decide +kernel⟩,
    by decide +kernel, by decide +kernel, ⟨_, rfl, by decide +kernel⟩⟩

/-- The request buffer with a SLICE_QUIESCE block for slice 1. -/
def quiesceBlock : List Byte := [0x41, 1] ++ List.replicate 62 0
theorem wit_MailboxRequestsComplete :
    (let d (op len idx sub : Nat) : Dev := { Small.dev with
       cores := [(0, { st := 1 })], dict := { inUse := [(okey 0x2004 1, 0)] }
       mbox := { op := BitVec.ofNat 8 op, index := BitVec.ofNat 16 idx, sub := BitVec.ofNat 8 sub, length := BitVec.ofNat 16 len } }
     let go (d : Dev) : Dev := { d with mbox := { d.mbox with busy := true, done := false, overrun := false, rseq := d.mbox.seq } }
     (∀ op ∈ [1, 2, 3], (d op 1 0 0).isManager 0 = true ∧ (d op 1 0 0).gesso.level = 0 ∧ (d op 1 0 0).start.st ≠ 2 ∧
       ((d op 1 0 0).half 0).inReset = false ∧ (d op 1 0 0).mbox.busy = false ∧ (d op 1 0 0).serverOut = false ∧
       (d op 1 0 0).mbox.op = op) ∧
     (let r := d 1 0 0x6105 3
      (go r).idxExists 0x6105 = true ∧ ((go r).objOf 0x6105 3).any (fun o => o.acc != .wo) = true) ∧
     (let w := d 2 1 0x6105 3
      let bs := memRead [(0, 1)] 0 1
      (go w).writeBad ((go w).isOwner .admin) 0x6105 3 bs = none ∧ isBuilderIdx 0x6105 = false ∧
        ((go w).objOf 0x6105 3).any (fun o => o.cls == .l && o.acc != .wo) = true) ∧
     (let w := d 3 64 0 0
      (go w).writeBad ((go w).isOwner .admin) 0x2030 1 quiesceBlock = none ∧ blockOp (bytesDw quiesceBlock) = 0x41 ∧
        blockReserved (bytesDw quiesceBlock) = false)) := by decide +kernel

theorem wit_ActionObjectsComplete :
    (let s : State := { dev := Small.dev }
     let p : Path := .can 0
     (∃ o, s.Accepts p 0x2005 1 [0xA5] o ∧ o.cls = .act) ∧ (∃ o, s.Accepts p 0x2005 2 [0xA5] o ∧ o.cls = .act) ∧
      s.dev.flash.saving = none) ∧
    (let s : State := { dev := Small.slice { st := .active } }
     let p : Path := .can 0
     (∃ o, s.Accepts p 0x6000 2 (leBytes 2 (5 : BitVec 16).toNat) o ∧ o.cls = .act) ∧ (5 : BitVec 16).toNat < 256 ∧
      (∃ o, s.Accepts p 0x1220 1 (leBytes 4 (1 : Dword).toNat) o ∧ o.cls = .act) ∧
      (∃ o, s.Accepts p 0x1220 2 [1] o ∧ o.cls = .act) ∧ (∃ o, s.Accepts p 0x1220 3 [1] o ∧ o.cls = .act) ∧
      (∃ o, s.Accepts p 0x1220 5 [0xA5] o ∧ o.cls = .act)) ∧
    (let s : State := { dev := { Small.dev with gesso := { locked := true } } }
     let p : Path := .can 0
     (∃ o, s.Accepts p 0x1220 4 [0xA5] o ∧ o.cls = .act) ∧ (accept p s.dev).gesso.locked = true) ∧
    ({ Small.dev with flash := { saving := some (true, .can 0) } } : Dev).flash.saving = some (true, .can 0) := by
  unfold State.Accepts State.Serves
  refine ⟨⟨⟨_, ⟨by decide +kernel, by decide +kernel, rfl, by decide +kernel⟩, by decide +kernel⟩,
      ⟨_, ⟨by decide +kernel, by decide +kernel, rfl, by decide +kernel⟩, by decide +kernel⟩, by decide +kernel⟩,
    ⟨⟨_, ⟨by decide +kernel, by decide +kernel, rfl, by decide +kernel⟩, by decide +kernel⟩, by decide,
     ⟨_, ⟨by decide +kernel, by decide +kernel, rfl, by decide +kernel⟩, by decide +kernel⟩,
     ⟨_, ⟨by decide +kernel, by decide +kernel, rfl, by decide +kernel⟩, by decide +kernel⟩,
     ⟨_, ⟨by decide +kernel, by decide +kernel, rfl, by decide +kernel⟩, by decide +kernel⟩,
     ⟨_, ⟨by decide +kernel, by decide +kernel, rfl, by decide +kernel⟩, by decide +kernel⟩⟩,
    ⟨⟨_, ⟨by decide +kernel, by decide +kernel, rfl, by decide +kernel⟩, by decide +kernel⟩, by decide +kernel⟩, by decide +kernel⟩

theorem wit_StandbyLevelsComplete :
    (let s : State := { dev := Small.dev }
     s.Owned (.can 0) ∧ s.dev.sliceActive = false ∧ s.dev.startBusy = false) ∧
    (let g (l : Nat) : Gesso := { level := l, loop := true }
     let s (l : Nat) : State := { dev := { Small.dev with gesso := g l, dict := { inUse := [(okey 0x2101 3, 0x3F)] } } }
     (s 3).dev.gesso.level = 3 ∧ (s 2).dev.gesso.level = 2 ∧ (∀ b < 6, (s 2).dev.cfg 0x2101 3 / 2 ^ b % 2 = 1) ∧
      (∀ b < 6, (s 3).dev.cfg 0x2101 3 / 2 ^ b % 2 = 1) ∧ (s 3).dev.gesso.waking = false ∧ (s 2).dev.gesso.waking = false ∧
      (s 3).dev.linkEnabled 0 = true ∧ (s 3).dev.gesso.loop = true ∧ (s 3).dev.gesso.vdd = true) ∧
    (let s : State := { dev := { Small.dev with
       gesso := { level := 2 }, dict := { inUse := [(okey 0x2101 3, 0x3F)] }
       ports := [(3, { stage := { present := true }, tc := { st := .unattachedSrc } }), (4, { bus := { usb2 := .suspended } })] } }
     s.dev.gesso.level = 2 ∧ s.dev.watches 3 = true ∧ s.dev.busWatches 4 = true ∧
      (∀ b < 6, s.dev.cfg 0x2101 3 / 2 ^ b % 2 = 1) ∧ s.dev.gesso.waking = false) ∧
    (let s (l : Nat) : State := { dev := { Small.dev with gesso := { level := l, waking := true, wakeLow := true } } }
     (s 2).dev.gesso.waking = true ∧ (s 2).dev.gesso.wakeLow = true ∧ (s 2).dev.gesso.level = 2 ∧ (s 3).dev.gesso.level = 3) := by
  unfold State.Owned State.Serves
  refine ⟨?_, ?_, ?_, ?_⟩
  all_goals decide +kernel

theorem wit_StagingAndTripComplete :
    (let s : State := { dev := Small.dev }
     s.Settled ∧ s.Owned (.can 0) ∧ s.dev.flash.busy = false) ∧
    (let s (x : Nat) : State := { dev := { Small.dev with flash := { stage := x } } }
     (s 1).Settled ∧ (s 3).Settled ∧ (s 1).dev.flash.stage = 1 ∧ (s 3).dev.flash.stage = 3 ∧ (s 1).dev.inactive = 1 ∧ (s 3).dev.inactive = 1) ∧
    ((1149 : BitVec 16).toInt < 1150 ∧ 1150 ≤ (1150 : BitVec 16).toInt) ∧
    (let s : State := { dev := { Small.dev with gesso := { thermalWait := true, locked := true } } }
     s.dev.gesso.thermalWait = true ∧ s.dev.gesso.locked = true) := by
  unfold State.Owned State.Serves State.Settled
  refine ⟨?_, ?_, ⟨by decide, by decide⟩, ?_⟩
  all_goals decide +kernel

theorem wit_BoundaryPushAlertComplete :
    (let s : State := { dev := Small.dev }
     s.dev.gesso.level = 0 ∧ (s.dev.half 0).inReset = false) ∧
    (let d := (Small.works (Small.entry 1 0 0 0 0) { st := .addressed, port := 3, eps := [(1, {
       st := .running, cfg := { type := .bulk, maxPacket := 512 }, rings := [(0, { loaded := true, fetch := 0x1000, fcyc := true })] })] } Small.onHs).dev
     let e : List Dword := [0x9000, 0, 0x200, 0, 0, 0, 0, 0x101, 0x10005, 0, 0x1000, 0, 0, 0, 0, 0]
     let r := d.ring 1 5 1 0
     bitsOf (qwAt e 8) 12 0 = 5 ∧ bitsOf (qwAt e 8) 20 16 = 1 ∧ bitsOf (qwAt e 8) 40 32 = 0 ∧
     d.shows 0 1 = true ∧ d.epAccepts 1 5 1 0 = true ∧ (d.ep 1 5 1).cfg.streams = false ∧ r.loaded = true ∧ r.rdOut = false ∧
     r.bad = none ∧ r.failed = none ∧ r.held.length < 8 ∧ (qwAt e 10).toNat = r.fetch ∧ teCycle (e.take 8) = r.fcyc ∧
     (∀ i < 4, dwAt e (12 + i) = 0) ∧ teType (e.take 8) ≠ 5 ∧
     teReason (d.ep 1 5 1).cfg r.fetch { first := r.cFirst, due := r.cDue, setup := r.cSetup, sum := r.cSum, links := r.cLinks } (e.take 8) = 0) ∧
    (let d : Dev := { Small.dev with ports := [(15, { stage := { present := true } })] }
     (d.port (8 * 1 + 7)).stage.present = true ∧ (d.pg 1).st ≠ 3) := by
  refine ⟨?_, ?_, ?_⟩
  all_goals decide +kernel
end

section
/-! PROOFS. The frame of the rows that do not configure the part, from the frame of each row. -/
namespace Sys2Proof.Machine

/-- Every row that `Instr.configures` does not name has its own frame lemma in Laws/Frame. -/
theorem exec_frame {i : Instr} {s t : State} (hi : i.configures = false) (hs : s.Settled) (h : exec i s = .next t) : Frame s t := by
  cases i with
  | objectRead => exact execObjectRead_frame hs h
  | badRegisterAccess => exact execBadRegisterAccess_frame hs h
  | evtCauseClear => exact execEvtCauseClear_frame hs h
  | vectorUnmask => exact execVectorUnmask_frame hs h
  | msixEnableChange => exact execMsixEnableChange_frame hs h
  | upstreamLinkUp => exact execUpstreamLinkUp_frame hs h
  | wqDoorbell => exact execWqDoorbell_frame hs h
  | epDoorbell => exact execEpDoorbell_frame hs h
  | cqDoorbell => exact execCqDoorbell_frame hs h
  | wqPush => exact execWqPush_frame hs h
  | epPush => exact execEpPush_frame hs h
  | qSelect => exact execQSelect_frame hs h
  | piReadComplete => exact execPiReadComplete_frame hs h
  | workEntryReadComplete => exact execWorkEntryReadComplete_frame hs h
  | wqArbitrationTurn => exact execWqArbitrationTurn_frame hs h
  | nop => exact execNop_frame hs h
  | openDevice => exact execOpenDevice_frame hs h
  | assignAddress => exact execAssignAddress_frame hs h
  | assignAddressRecoveryEnd => exact execAssignAddressRecoveryEnd_frame hs h
  | updateDevice => exact execUpdateDevice_frame hs h
  | closeDevice => exact execCloseDevice_frame hs h
  | admitEndpoints => exact execAdmitEndpoints_frame hs h
  | retireEndpoints => exact execRetireEndpoints_frame hs h
  | stopEndpoint => exact execStopEndpoint_frame hs h
  | clearHalt => exact execClearHalt_frame hs h
  | moveDequeue => exact execMoveDequeue_frame hs h
  | portReset => exact execPortReset_frame hs h
  | portSuspend => exact execPortSuspend_frame hs h
  | portResume => exact execPortResume_frame hs h
  | portPowerCycle => exact execPortPowerCycle_frame hs h
  | pdRequest => exact execPdRequest_frame hs h
  | carvePool => exact execCarvePool_frame hs h
  | releasePool => exact execReleasePool_frame hs h
  | queryPlan => exact execQueryPlan_frame hs h
  | queryBudget => exact execQueryBudget_frame hs h
  | hostStructureReadComplete => exact execHostStructureReadComplete_frame hs h
  | modTimeExpiry => exact execModTimeExpiry_frame hs h
  | ciWriteDeadline => exact execCiWriteDeadline_frame hs h
  | transferEntryReadComplete => exact execTransferEntryReadComplete_frame hs h
  | fragmentTableReadComplete => exact execFragmentTableReadComplete_frame hs h
  | streamContextReadComplete => exact execStreamContextReadComplete_frame hs h
  | contextLoadComplete => exact execContextLoadComplete_frame hs h
  | dataReadComplete => exact execDataReadComplete_frame hs h
  | hostReadFailure _ _ k => exact execHostReadFailure_frame (k := k) hs h
  | completionTimeout => exact execCompletionTimeout_frame hs h
  | confirmReadIssue => exact execConfirmReadIssue_frame hs h
  | confirmReadComplete => exact execConfirmReadComplete_frame hs h
  | flushReadIssue => exact execFlushReadIssue_frame hs h
  | funnelHoldExpiry => exact execFunnelHoldExpiry_frame hs h
  | usb2TransactionResponse => exact execUsb2TransactionResponse_frame hs h
  | periodicTransactionResponse => exact execPeriodicTransactionResponse_frame hs h
  | splitResponse => exact execSplitResponse_frame hs h
  | transactionTimeout => exact execTransactionTimeout_frame hs h
  | nonperiodicTurn => exact execNonperiodicTurn_frame hs h
  | repollIntervalExpiry => exact execRepollIntervalExpiry_frame hs h
  | portBabble => exact execPortBabble_frame hs h
  | nrdyReceived _ _ _ stream => exact execNrdyReceived_frame (stream := stream) hs h
  | erdyReceived => exact execErdyReceived_frame hs h
  | functionWakeReceived => exact execFunctionWakeReceived_frame hs h
  | pullupSeen => exact execPullupSeen_frame hs h
  | connectDebounceEnd => exact execConnectDebounceEnd_frame hs h
  | usb2Disconnect => exact execUsb2Disconnect_frame hs h
  | resetDriveEnd => exact execResetDriveEnd_frame hs h
  | recoveryEnd => exact execRecoveryEnd_frame hs h
  | resumeDriveEnd => exact execResumeDriveEnd_frame hs h
  | suspendReached => exact execSuspendReached_frame hs h
  | partnerKDetected => exact execPartnerKDetected_frame hs h
  | lpmAnswer => exact execLpmAnswer_frame hs h
  | ssTerminationsDetected => exact execSsTerminationsDetected_frame hs h
  | rxDetectProbe => exact execRxDetectProbe_frame hs h
  | ssTrainingComplete => exact execSsTrainingComplete_frame hs h
  | pollingTimeout => exact execPollingTimeout_frame hs h
  | u1U2InactivityTimeout => exact execU1U2InactivityTimeout_frame hs h
  | partnerLgo => exact execPartnerLgo_frame hs h
  | partnerU1U2Exit => exact execPartnerU1U2Exit_frame hs h
  | lauReceived => exact execLauReceived_frame hs h
  | u3EntryTimeout => exact execU3EntryTimeout_frame hs h
  | u3ExitLfps => exact execU3ExitLfps_frame hs h
  | ssRecoveryFailed => exact execSsRecoveryFailed_frame hs h
  | ssTerminationsLost => exact execSsTerminationsLost_frame hs h
  | ssResetEnd => exact execSsResetEnd_frame hs h
  | powerCycleOffEnd => exact execPowerCycleOffEnd_frame hs h
  | sinopiaDown w => exact execSinopiaDown_frame (w := w) hs h
  | sinopiaRetrainAttempt => exact execSinopiaRetrainAttempt_frame hs h
  | sinopiaLinkUp => exact execSinopiaLinkUp_frame hs h
  | sinopiaHoldExpiry => exact execSinopiaHoldExpiry_frame hs h
  | sinopiaSyncReceived => exact execSinopiaSyncReceived_frame hs h
  | sinopiaDataMessage => exact execSinopiaDataMessage_frame hs h
  | sinopiaFenceMessage dst _ => exact execSinopiaFenceMessage_frame (dst := dst) hs h
  | sinopiaFlitCrcError => exact execSinopiaFlitCrcError_frame hs h
  | sinopiaLaneRetire => exact execSinopiaLaneRetire_frame hs h
  | arbiterTurn => exact execArbiterTurn_frame hs h
  | quiesceDrainEnd => exact execQuiesceDrainEnd_frame hs h
  | quiesceTimeoutExpiry => exact execQuiesceTimeoutExpiry_frame hs h
  | fenceBusResetTimeout => exact execFenceBusResetTimeout_frame hs h
  | fenceReq => exact execFenceReq_frame hs h
  | fenceReqAll => exact execFenceReqAll_frame hs h
  | pgDrainEnd => exact execPgDrainEnd_frame hs h
  | ccChange => exact execCcChange_frame hs h
  | tdrpToggle => exact execTdrpToggle_frame hs h
  | tccdebounceExpiry => exact execTccdebounceExpiry_frame hs h
  | tpddebounceExpiry => exact execTpddebounceExpiry_frame hs h
  | ttryccdebounceExpiry => exact execTtryccdebounceExpiry_frame hs h
  | tdrptryExpiry => exact execTdrptryExpiry_frame hs h
  | ttrytimeoutExpiry => exact execTtrytimeoutExpiry_frame hs h
  | terrorrecoveryExpiry => exact execTerrorrecoveryExpiry_frame hs h
  | vsnsSample => exact execVsnsSample_frame hs h
  | vddCcRise => exact execVddCcRise_frame hs h
  | pdMessageReceived => exact execPdMessageReceived_frame hs h
  | pdGoodcrcReceived => exact execPdGoodcrcReceived_frame hs h
  | treceiveExpiry => exact execTreceiveExpiry_frame hs h
  | hardResetReceived => exact execHardResetReceived_frame hs h
  | cableResetReceived => exact execCableResetReceived_frame hs h
  | tsinktxExpiry => exact execTsinktxExpiry_frame hs h
  | ppeAutoAnswer => exact execPpeAutoAnswer_frame hs h
  | tsenderresponseExpiry => exact execTsenderresponseExpiry_frame hs h
  | tsrctransitionExpiry => exact execTsrctransitionExpiry_frame hs h
  | tpssourceoffExpiry => exact execTpssourceoffExpiry_frame hs h
  | tpssourceonExpiry => exact execTpssourceonExpiry_frame hs h
  | tswapsourcestartExpiry => exact execTswapsourcestartExpiry_frame hs h
  | ttypecsendsourcecapExpiry => exact execTtypecsendsourcecapExpiry_frame hs h
  | tfirstsourcecapExpiry => exact execTfirstsourcecapExpiry_frame hs h
  | tdiscoveridentityExpiry => exact execTdiscoveridentityExpiry_frame hs h
  | tvconnsourceonExpiry => exact execTvconnsourceonExpiry_frame hs h
  | tsinkrequestExpiry => exact execTsinkrequestExpiry_frame hs h
  | tnoresponseExpiry => exact execTnoresponseExpiry_frame hs h
  | tpshardresetExpiry => exact execTpshardresetExpiry_frame hs h
  | tsrcrecoverExpiry => exact execTsrcrecoverExpiry_frame hs h
  | thardresetcompleteExpiry => exact execThardresetcompleteExpiry_frame hs h
  | tchunksenderresponseExpiry => exact execTchunksenderresponseExpiry_frame hs h
  | tppstimeoutExpiry => exact execTppstimeoutExpiry_frame hs h
  | tsourceeprkeepaliveExpiry => exact execTsourceeprkeepaliveExpiry_frame hs h
  | tvbusonExpiry => exact execTvbusonExpiry_frame hs h
  | ppeRestart => exact execPpeRestart_frame hs h
  | pslResponse => exact execPslResponse_frame hs h
  | pslWatchPoll => exact execPslWatchPoll_frame hs h
  | pslAlert => exact execPslAlert_frame hs h
  | faultRetryExpiry => exact execFaultRetryExpiry_frame hs h
  | forceSafeNFall => exact execForceSafeNFall_frame hs h
  | forceSafeNRise => exact execForceSafeNRise_frame hs h
  | ilimitClipTimer => exact execIlimitClipTimer_frame hs h
  | supplyAlertFall => exact execSupplyAlertFall_frame hs h
  | supplyAlertRise => exact execSupplyAlertRise_frame hs h
  | alertHoldExpiry => exact execAlertHoldExpiry_frame hs h
  | allocationRun => exact execAllocationRun_frame hs h
  | taskTake => exact execTaskTake_frame hs h
  | taskPost => exact execTaskPost_frame hs h
  | easelTick => exact execEaselTick_frame hs h
  | eventRaise => exact execEventRaise_frame hs h
  | gessoVote => exact execGessoVote_frame hs h
  | abort => exact execAbort_frame hs h
  | segTimeoutExpiry => exact execSegTimeoutExpiry_frame hs h
  | heartbeat => exact execHeartbeat_frame hs h
  | canBusOff => exact execCanBusOff_frame hs h
  | eventFrameQueueDrain => exact execEventFrameQueueDrain_frame hs h
  | failedStartWindowExpiry => exact execFailedStartWindowExpiry_frame hs h
  | watchPeriod => exact execWatchPeriod_frame hs h
  | wakeNLow => exact execWakeNLow_frame hs h
  | canWakePattern => exact execCanWakePattern_frame hs h
  | canDominantEdge => exact execCanDominantEdge_frame hs h
  | gessoLoopIdleStop => exact execGessoLoopIdleStop_frame hs h
  | attachWake => exact execAttachWake_frame hs h
  | perstWake => exact execPerstWake_frame hs h
  | usb2BusWake => exact execUsb2BusWake_frame hs h
  | ppeRestartEnd => exact execPpeRestartEnd_frame hs h
  | canBusOffRecovery => exact execCanBusOffRecovery_frame hs h
  | _ => cases hi

/-- Settles O6: each row that does not configure the part has the frame `exec_frame` gives, and `Dev.keep` names the parts. -/
theorem ordinaryRowsFrame : Obligations.OrdinaryRowsFrame := by
  intro i s t hi hs h
  obtain ⟨hk, hp, hr, ha, hb⟩ := exec_frame hi hs h
  simp only [Dev.keep, Prod.mk.injEq] at hk
  obtain ⟨hdict, hgroups, hstart, hflash, hupdate, -⟩ := hk
  exact ⟨hdict, hgroups, hstart, hflash, hupdate, hp, hr, fun _ => by rw [ha], fun _ => by rw [hb]⟩
end Sys2Proof.Machine
end

section
/-! PROOFS. What the rows of an upstream function do: register accesses, the handshake, vectors, and links. -/
namespace Sys2Proof.Machine

/-! ### Register accesses (R7, R21, R22, R54) -/

theorem execRegisterWrite_eq (f : FuncId) (bar off size : Nat) (v : Qword) (s : State) :
    exec (.registerWrite f bar off size v) s = .next (s.afterPd (registerWrite f bar off size v s.mem s.dev)) := rfl

/-- The lower word of a quadword has its low 32 bits. -/
theorem bitOf_lowWord (v : Qword) {i : Nat} (h : i < 32) : bitOf (w32 (v.toNat % 2 ^ 32)) i = bitOf v i := by
  simp [bitOf, w32, BitVec.getLsbD, -Nat.reducePow, Nat.testBit_mod_two_pow, h]

theorem registerWrite_evtEn (f : Nat) (v : Qword) (m : Memory) (d : Dev) :
    registerWrite f 0 0x1000 4 v m d = d.modFunc f (fun x => { x with evtEnSh := bitOf v 0 }) := by
  rw [← bitOf_lowWord v (by decide : 0 < 32)]
  rfl

theorem registerWrite_devControl (f off size : Nat) (v : Qword) (m : Memory) (d : Dev) :
    registerWrite f 15 off size v m d = devControl f (w32 (v.toNat % 2 ^ 32)) d := rfl

theorem registerWrite_badSize (f off : Nat) {bar size : Nat} (v : Qword) (m : Memory) (d : Dev) (hbar : bar ≠ 15) (h4 : size ≠ 4)
    (h8 : size ≠ 8) : registerWrite f bar off size v m d = badAccess f bar off size true d := by
  simp [registerWrite, hbar, h4, h8]

/-- A page of BAR2 that the function does not show takes no write. -/
theorem registerWrite_hiddenPage (f : Nat) {off size : Nat} (v : Qword) (m : Memory) (d : Dev) (hok : accessOk 2 off size = true)
    (hpage : d.shows f (off / 4096) = false) : registerWrite f 2 off size v m d = d := by
  have haccess : (size = 4 ∨ size = 8) ∧ off % size = 0 := by
    simpa [accessOk] using hok
  obtain ⟨hsize, haligned⟩ := haccess
  rcases hsize with rfl | rfl <;> simp [registerWrite, haligned, hpage]

theorem badAccess_read (f : FuncId) (bar off size : Nat) (d : Dev) :
    badAccess f bar off size false d = emit (.regRead f 0) (raise { c := 16, inst := f, half := halfOfFunc f } d) := by
  have hf : toFunc f = f := Fin.ext (Nat.mod_eq_of_lt f.isLt)
  simp [badAccess, hf]

/-! ### The handshake (R26, R249) -/

/-- The handshake logic hears a return on H0, and one on H1 while Sinopia is up. -/
theorem hgReturn_heard {f : Nat} {d : Dev} (h : halfOfFunc f = 0 ∨ d.sinopia.up = true) (upper : Dword) :
    hgReturn f upper d = returnNonce f (d.func f).retLo upper d := by
  have hlost : (halfOfFunc f = 1 && !d.sinopia.up) = false := by rcases h with h | h <;> simp [h]
  simp [hgReturn, hlost]

/-- What a return does to a Pending handshake: REASON 3 on the start's own port, Proven with the right nonce, else REASON 2. -/
theorem hgReturn_pending {f g : Nat} {d : Dev} (h : halfOfFunc f = 0 ∨ d.sinopia.up = true) (hg : d.groupOf f = some g)
    (hp : d.hgSt g = .pending) (upper : Dword) :
    hgReturn f upper d =
      if f = (d.group g).startPort.toNat then setHg g .failed 3 d
      else if (d.group g).nonce = some (upper ++ (d.func f).retLo) then prove g d
      else setHg g .failed 2 d := by
  simp [hgReturn_heard h, returnNonce, hg, hp]

theorem execHgReturn_eq (f : FuncId) (upper : Dword) (s : State) :
    exec (.hgReturn f upper) s = .next (s.after (hgReturn f upper s.dev)) := rfl

theorem execHsTimeoutExpiry_pending {g : HgId} {s : State} (h : s.dev.hgSt g = .pending) :
    exec (.hsTimeoutExpiry g) s = .next (s.after (setHg g .failed 1 s.dev)) := by
  show execHsTimeoutExpiry g s = _
  simp [execHsTimeoutExpiry, run_eq, h]

/-! ### Vectors and MSI-X (R41) -/

theorem unmaskVec_shown {f n v : Nat} {d : Dev} (hs : d.shows f n = true) (hv : v < Config.shareVectors d.S) :
    unmaskVec f n v d =
      releaseVectors n (d.modSlice n (fun x => { x with vecs := tabPut x.vecs v { tabGet {} x.vecs v with mask := false } })) := by
  simp [unmaskVec, hs, Nat.not_le.2 hv]

/-- With no bound slice and no message pending on the function's own vectors, nothing is released. -/
theorem setMsix_idle {f : Nat} {d : Dev} (en mask : Bool) (hb : d.boundSlices = []) (hv : (d.func f).vecs = []) :
    setMsix f en mask d = d.modFunc f (fun x => { x with msixEn := en, msixMask := mask }) := by
  have hown : releaseOwn f (d.modFunc f (fun x => { x with msixEn := en, msixMask := mask })) =
      d.modFunc f (fun x => { x with msixEn := en, msixMask := mask }) := by simp [releaseOwn, hv]
  have hbound : (d.modFunc f (fun x => { x with msixEn := en, msixMask := mask })).boundSlices = [] := hb
  simp [setMsix, hown, hbound, forEach]

/-! ### Links of a function (R26, R246, R445) -/

theorem linkDown_up {f : Nat} {d : Dev} (h : (d.func f).linkUp = true) :
    linkDown f d = raise { c := 67, inst := f, half := halfOfFunc f } (loseFunc f d) := by
  simp [linkDown, h]

theorem linkUp_powered {f : Nat} {d : Dev} (hl : (d.func f).linkUp = false) (hu : (d.func f).upState = 0) (hst : d.start.st ≠ 2) :
    linkUp f d = repath (fun d =>
      forEach d.boundSlices (fun n => Dev.modEng n (fun x => { x with lost := x.lost.filter (fun k => k != f) }))
        (d.modFunc f (fun x => { x with linkUp := true, perstHigh := true }))) d := by
  simp only [linkUp, hl, hu, hst]
  rfl

theorem perst_linkDown {f : Nat} {d : Dev} (fundamental : Bool) (h : (d.func f).linkUp = false) :
    perst f fundamental d = lapse f (d.modFunc f (fun x => {
      linkUp := false, perstHigh := !fundamental, upReq := x.upReq, upState := x.upState, upPath := x.upPath })) := by
  simp [perst, h, Dev.modFunc]

/-- Settles O7: each row is its operation's case, by the lemmas above. -/
theorem functionRowsComplete : Obligations.FunctionRowsComplete := by
  refine ⟨?evtEn, ?devControl, ?hiddenPage, ?badSize, ?badRead, ?proven, ?wrongNonce, ?ownPort, ?timeout, fun _ _ _ _ => rfl, ?unmask,
    ?msix, ?linkDown, ?linkUp, ?perst⟩
  case evtEn =>
    intro s f v
    rw [execRegisterWrite_eq, registerWrite_evtEn]
  case devControl =>
    intro s f off size v
    rw [execRegisterWrite_eq, registerWrite_devControl]
  case hiddenPage =>
    intro s f off size v hok hpage
    rw [execRegisterWrite_eq, registerWrite_hiddenPage f v s.mem s.dev hok hpage]
  case badSize =>
    intro s f bar off size v hbar h4 h8
    rw [execRegisterWrite_eq, registerWrite_badSize f off v s.mem s.dev hbar h4 h8]
  case badRead =>
    intro s f bar off size
    rw [← badAccess_read f bar off size]
    rfl
  case proven =>
    intro s f g upper h hg hp hport hnonce
    rw [execHgReturn_eq, hgReturn_pending h hg hp, if_neg hport, if_pos hnonce]
  case wrongNonce =>
    intro s f g upper h hg hp hport hnonce
    rw [execHgReturn_eq, hgReturn_pending h hg hp, if_neg hport, if_neg hnonce]
  case ownPort =>
    intro s f g upper h hg hp hport
    rw [execHgReturn_eq, hgReturn_pending h hg hp, if_pos hport]
  case timeout => exact fun _ _ => execHsTimeoutExpiry_pending
  case unmask =>
    intro s f n v hs hv
    rw [← unmaskVec_shown hs hv]
    rfl
  case msix =>
    intro s f en mask hb hv
    rw [← setMsix_idle en mask hb hv]
    rfl
  case linkDown =>
    intro s f h
    rw [← linkDown_up h]
    rfl
  case linkUp =>
    intro s f hl hu hst
    rw [← linkUp_powered hl hu hst]
    rfl
  case perst =>
    intro s f fundamental h
    rw [← perst_linkDown fundamental h]
    rfl

end Sys2Proof.Machine
end

section
/-! PROOFS. Object writes that pass R401, and object reads. -/
namespace Sys2Proof.Machine

/-! ### The power settlement of a row leaves the configuration as the row left it -/

section
variable (s : State) (d : Dev)

@[simp] theorem State.afterPd_dict : (s.afterPd d).dev.dict = d.dict := congrArg (fun k => k.1) (settlePd_keep d)
@[simp] theorem State.afterPd_groups : (s.afterPd d).dev.groups = d.groups := congrArg (fun k => k.2.1) (settlePd_keep d)
@[simp] theorem State.afterPd_start : (s.afterPd d).dev.start = d.start := congrArg (fun k => k.2.2.1) (settlePd_keep d)
@[simp] theorem State.afterPd_flash : (s.afterPd d).dev.flash = d.flash := congrArg (fun k => k.2.2.2.1) (settlePd_keep d)
@[simp] theorem State.afterPd_update : (s.afterPd d).dev.update = d.update := congrArg (fun k => k.2.2.2.2.1) (settlePd_keep d)
@[simp] theorem State.afterPd_stored (idx sub : Nat) : (s.afterPd d).dev.stored idx sub = d.stored idx sub := by simp [Dev.stored]
@[simp] theorem State.afterPd_cfg (idx sub : Nat) : (s.afterPd d).dev.cfg idx sub = d.cfg idx sub := by simp [Dev.cfg]

end

/-! ### Answers -/

section
variable (p : Path) (d : Dev)

@[simp] theorem accept_dict : (accept p d).dict = d.dict := congrArg (fun k => k.1) (accept_keep p d)
@[simp] theorem accept_groups : (accept p d).groups = d.groups := congrArg (fun k => k.2.1) (accept_keep p d)
@[simp] theorem accept_start : (accept p d).start = d.start := congrArg (fun k => k.2.2.1) (accept_keep p d)
@[simp] theorem accept_flash : (accept p d).flash = d.flash := congrArg (fun k => k.2.2.2.1) (accept_keep p d)
@[simp] theorem accept_update : (accept p d).update = d.update := congrArg (fun k => k.2.2.2.2.1) (accept_keep p d)
@[simp] theorem accept_stored (idx sub : Nat) : (accept p d).stored idx sub = d.stored idx sub := by simp [Dev.stored]
@[simp] theorem accept_cfg (idx sub : Nat) : (accept p d).cfg idx sub = d.cfg idx sub := by simp [Dev.cfg]

end

/-- On a free path no frame and no mailbox request waits: the answer goes out as it is. -/
theorem answer_idle {p : Path} {d : Dev} (h : d.pathBusy p = false) (code reason : Nat) (bs : List Byte) :
    answer p code reason bs d = emit (.answer p code reason bs) d := by
  cases p with
  | can l =>
    have hcur : (d.can l.val).cur = none := by
      simp only [Dev.pathBusy, Bool.or_eq_false_iff, Option.isSome_eq_false_iff, Option.isNone_iff_eq_none] at h
      exact h.1
    simp [answer, hcur]
  | admin =>
    have hbusy : d.mbox.busy = false := h
    simp [answer, hbusy]

/-! ### The store of a field's class (R5 to R8) -/

section
variable (idx sub v : Nat) (d : Dev)

@[simp] theorem storeObj_stored (c : Cls) : (storeObj c idx sub v d).stored idx sub = v := by
  cases c <;> simp [Dev.stored, storeObj]
@[simp] theorem storeObj_groups (c : Cls) : (storeObj c idx sub v d).groups = d.groups := rfl
@[simp] theorem storeObj_start (c : Cls) : (storeObj c idx sub v d).start = d.start := rfl
@[simp] theorem storeObj_flash (c : Cls) : (storeObj c idx sub v d).flash = d.flash := rfl
@[simp] theorem storeObj_update (c : Cls) : (storeObj c idx sub v d).update = d.update := rfl
theorem storeObj_l_dirty : okey idx sub ∈ (storeObj .l idx sub v d).dict.dirty := List.mem_cons_self ..
theorem storeObj_l_inUse : (storeObj .l idx sub v d).dict.inUse = d.dict.inUse := rfl
@[simp] theorem storeObj_q_cfg : (storeObj .q idx sub v d).cfg idx sub = v := by simp [Dev.cfg, storeObj]
theorem storeObj_q_dirty : (storeObj .q idx sub v d).dict.dirty = d.dict.dirty := rfl
theorem storeObj_b_inUse : (storeObj .b idx sub v d).dict.inUse = d.dict.inUse := rfl
theorem storeObj_b_dirty : (storeObj .b idx sub v d).dict.dirty = d.dict.dirty := rfl

end

/-- A readable object that is neither a group's member nor a port's FIXED_MASK goes to the store of its class as it is. -/
theorem storeWrite_plain {o : Obj} {idx sub : Nat} (hwo : o.acc ≠ .wo) (hgroup : ¬(0x2010 ≤ idx ∧ idx ≤ 0x2013))
    (hmask : ¬(0x3100 ≤ idx ∧ idx < 0x31C0 ∧ sub = 4)) (v : Nat) (d : Dev) :
    storeWrite o idx sub v d = storeObj o.cls idx sub v d := by
  have h1 : (o.acc == .wo) = false := by simpa using hwo
  have h2 : (o.cls == .q && 0x2010 ≤ idx && idx ≤ 0x2013) = false := by
    simpa [and_assoc] using fun _ => not_and.1 hgroup
  have h3 : (0x3100 ≤ idx && idx < 0x31C0 && sub = 4) = false := by
    simpa [and_assoc] using not_and.1 hmask
  simp [storeWrite, h1, h2, h3]

/-! ### The rows -/

theorem execObjectWrite_stored {s : State} {p : Path} {idx : BitVec 16} {sub : Byte} {v : List Byte} {o : Obj}
    (h : s.Accepts p idx.toNat sub.toNat v o) (ha : o.cls ≠ .act) (image : List Dword) :
    exec (.objectWrite p idx sub v image) s =
      .next (s.afterPd (accept p (storeWrite o idx.toNat sub.toNat (ofBytes v) s.dev))) := by
  show writeRow p idx.toNat sub.toNat v image s = _
  rw [writeRow, runP_eq, entered_serves h.1, dictWrite_store h ha]

theorem dictAnswer_readable {p : Path} {idx sub : Nat} {o : Obj} {d : Dev} (hidx : d.idxExists idx = true)
    (ho : d.objOf idx sub = some o) (hwo : o.acc ≠ .wo) : dictAnswer p idx sub d = answer p cOk 0 (d.objRead idx sub o) d := by
  simp [dictAnswer, Dev.dictRead, hidx, ho, hwo]

theorem execObjectRead_answered {s : State} {p : Path} {idx : BitVec 16} {sub : Byte} {o : Obj} (h : s.Serves p)
    (hidx : s.dev.idxExists idx.toNat = true) (ho : s.dev.objOf idx.toNat sub.toNat = some o) (hwo : o.acc ≠ .wo) :
    exec (.objectRead p idx sub) s =
      .next (s.after (emit (.answer p cOk 0 (s.dev.objRead idx.toNat sub.toNat o)) s.dev)) := by
  show execObjectRead p idx sub s = _
  rw [execObjectRead, run_eq, entered_serves h, dictAnswer_readable hidx ho hwo, answer_idle h.1]

/-- Settles O48: an accepted write of class L, Q or B is the store of that class, answered and settled; a read only answers. -/
theorem objectAccessCompletes : Obligations.ObjectAccessCompletes := by
  refine ⟨?write, fun s p idx sub o => execObjectRead_answered⟩
  intro s p idx sub v image o hacc hplain hwo hcls
  obtain ⟨hgroup, hmask⟩ := hplain
  have hact : o.cls ≠ .act := by rcases hcls with h | h | h <;> simp [h]
  refine ⟨_, execObjectWrite_stored hacc hact image, ?_⟩
  rw [storeWrite_plain hwo hgroup hmask]
  refine ⟨by simp, fun h => ?l, fun h => ?q, fun h => ?b, ?_, ?_, ?_, ?_⟩
  case l => simp [h, storeObj_l_dirty, storeObj_l_inUse]
  case q => simp [h, storeObj_q_dirty]
  case b => simp [h, storeObj_b_inUse, storeObj_b_dirty]
  all_goals simp

end Sys2Proof.Machine
end

section
/-! PROOFS. The microframe boundary, a push on an endpoint, and the alert of a power group. -/
namespace Sys2Proof.Machine

/-! ### The microframe boundary (R128) -/

/-- One change of every half of a list reaches exactly those halves. -/
theorem forEach_modHalf_half (f : Half → Half) {l : List Nat} (hl : l.Nodup) (d : Dev) (h : Nat) :
    (forEach l (fun k => Dev.modHalf k f) d).half h = if h ∈ l then f (d.half h) else d.half h := by
  induction l generalizing d with
  | nil => simp [forEach]
  | cons k r ih =>
    obtain ⟨hk, hr⟩ := List.nodup_cons.1 hl
    have hrest : (forEach (k :: r) (fun k => Dev.modHalf k f) d).half h =
        if h ∈ r then f ((d.modHalf k f).half h) else (d.modHalf k f).half h := ih hr (d.modHalf k f)
    rw [hrest]
    by_cases hh : h = k
    · subst hh
      simp [hk]
    · simp [hh, Dev.modHalf_other _ _ _ _ hh]

/-- The counter of each half that counts rises by 1. -/
theorem countHalves_mf (c : Nat → Bool) (d : Dev) {h : Nat} (hh : h < 2) :
    ((forEach ([0, 1].filter c) (fun k => Dev.modHalf k (fun x => { x with mf := x.mf + 1 })) d).half h).mf =
      (d.half h).mf + (if c h then 1 else 0) := by
  have hmem : h ∈ [0, 1] := by simp; omega
  rw [forEach_modHalf_half _ (List.Nodup.filter c (by decide))]
  cases hc : c h <;> simp [List.mem_filter, hmem, hc]

theorem microframe_running {d : Dev} (hlevel : d.gesso.level = 0) (hreset : (d.half 0).inReset = false) : microframe d = boundary d := by
  simp [microframe, hlevel, hreset]

theorem execMicroframeBoundary_running {s : State} (hlevel : s.dev.gesso.level = 0) (hreset : (s.dev.half 0).inReset = false) :
    exec .microframeBoundary s = .next (s.afterPd (boundary s.dev)) := by
  rw [← microframe_running hlevel hreset]
  rfl

/-! ### A push on an endpoint (R70, R109) -/

section
variable (r : Ring) (e : List Dword)

/-- Noting a held entry changes only where validation stands. -/
theorem Ring.note_shape : ∃ first due setup sum links tag, r.note e = { r with
    cFirst := first, cDue := due, cSetup := setup, cSum := sum, cLinks := links, cTag := tag } := by
  unfold Ring.note
  dsimp only
  split_ifs <;> exact ⟨_, _, _, _, _, _, rfl⟩

@[simp] theorem Ring.note_fetch : (r.note e).fetch = r.fetch := by obtain ⟨_, _, _, _, _, _, h⟩ := r.note_shape e; rw [h]
@[simp] theorem Ring.note_fcyc : (r.note e).fcyc = r.fcyc := by obtain ⟨_, _, _, _, _, _, h⟩ := r.note_shape e; rw [h]
@[simp] theorem Ring.note_rdOut : (r.note e).rdOut = r.rdOut := by obtain ⟨_, _, _, _, _, _, h⟩ := r.note_shape e; rw [h]
@[simp] theorem Ring.note_bad : (r.note e).bad = r.bad := by obtain ⟨_, _, _, _, _, _, h⟩ := r.note_shape e; rw [h]

end

/-- A well-formed entry of the expected cycle that is no Link is held at the fetch point, which moves on by its 32 bytes. -/
theorem holdEntries_one {c : EpCfg} {mf : Nat} {slow : Bool} {e : List Dword} {r : Ring} (hcyc : teCycle e = r.fcyc)
    (hok : teReason c r.fetch { first := r.cFirst, due := r.cDue, setup := r.cSetup, sum := r.cSum, links := r.cLinks } e = 0)
    (hlink : teType e ≠ 5) :
    (holdEntries c mf slow [e] r).2 = { r.note e with
      held := r.held ++ [{ addr := r.fetch, dws := e, mf := mf, links := r.cLinks, slow := slow }], fetch := r.fetch + 32 } := by
  simp [holdEntries, hcyc, hok, hlink]

/-- The ring once the pushed entry e is held. -/
def pushedRing (c : EpCfg) (mf : Nat) (e : List Dword) (r : Ring) : Ring :=
  let t := holdEntries c mf false [e] r
  { t.2 with full := t.2.full && 8 ≤ t.2.held.length }

/-- The device once a push on the endpoint is taken: its bus wakes, it runs, its context is used, and its ring is x. -/
def pushTaken (n h k st : Nat) (x : Ring) (d : Dev) : Dev :=
  Dev.modRing n h k st (fun _ => x) (useCtx n h k
    ((wakeBus (d.handle n h).port (speedSs (d.handle n h).speed) false (pgWake (d.handle n h).port d)).modEp n h k
      (fun x => { x with st := .running })))

@[simp] theorem pushTaken_ring (n h k st : Nat) (x : Ring) (d : Dev) : (pushTaken n h k st x d).ring n h k st = x :=
  Dev.modRing_same ..

/-- The conditions of R70 under which a push is taken and is no doorbell. -/
structure TakesPush (n h k st : Nat) (e : List Dword) (d : Dev) : Prop where
  accepts : d.epAccepts n h k st = true
  live : (d.ep n h k).cfg.streams = false ∨ (d.ep n h k).bus.curStream = st
  loaded : (d.ring n h k st).loaded = true
  idle : (d.ring n h k st).rdOut = false
  wellFormed : (d.ring n h k st).bad = none
  read : (d.ring n h k st).failed = none
  room : (d.ring n h k st).held.length < 8
  slot : (qwAt e 10).toNat = (d.ring n h k st).fetch
  cycle : teCycle (e.take 8) = (d.ring n h k st).fcyc
  zero : ∀ i < 4, dwAt e (12 + i) = 0

theorem pushEp_taken {n : Nat} {e : List Dword} {d : Dev}
    (hp : TakesPush n (bitsOf (qwAt e 8) 12 0) (bitsOf (qwAt e 8) 20 16) (bitsOf (qwAt e 8) 40 32) e d) :
    pushEp n e d =
      (let h := bitsOf (qwAt e 8) 12 0
       let k := bitsOf (qwAt e 8) 20 16
       let st := bitsOf (qwAt e 8) 40 32
       pump n h k st false (pushTaken n h k st
         (pushedRing (d.ep n h k).cfg (d.mf (d.epHalf n h)) (e.take 8) (d.ring n h k st)) d)) := by
  obtain ⟨haccepts, hlive, hloaded, hidle, hbad, hfailed, hroom, hslot, hcycle, hzero⟩ := hp
  have hzero' : (List.range 4).all (fun i => dwAt e (12 + i) == 0) = true := by
    simpa [List.all_eq_true] using hzero
  have hlive' : (!(d.ep n (bitsOf (qwAt e 8) 12 0) (bitsOf (qwAt e 8) 20 16)).cfg.streams ||
      (d.ep n (bitsOf (qwAt e 8) 12 0) (bitsOf (qwAt e 8) 20 16)).bus.curStream == bitsOf (qwAt e 8) 40 32) = true := by
    simpa using hlive
  unfold pushEp
  simp only [haccepts, hlive', hloaded, hidle, hbad, hfailed, hroom, hslot, hcycle, hzero', beq_self_eq_true, decide_true,
    Bool.not_false, Option.isNone_none, Bool.and_self, if_true]
  rfl

/-! ### The alert of a power group (R340, R342) -/

theorem mem_insertFrame {f x : Dword} {l : List Dword} : x ∈ insertFrame f l ↔ x = f ∨ x ∈ l := by
  induction l with
  | nil => simp [insertFrame]
  | cons y r ih =>
    simp only [insertFrame]
    split
    · simp
    · simp [ih, or_left_comm]

theorem pslSend_ports (g : Nat) (f : Dword) (d : Dev) : (pslSend g f d).ports = d.ports := by
  unfold pslSend
  split
  · rfl
  · split
    · rfl
    · split <;> rfl

/-- Sending a frame changes the group's queue alone: what waits goes on waiting, and while the domain is powered the frame waits. -/
theorem pslSend_pg (g : Nat) (f : Dword) (d : Dev) : ∃ fr, (pslSend g f d).pg g = { d.pg g with frames := fr } ∧
    (∀ x ∈ (d.pg g).frames, x ∈ fr) ∧ ((d.pg g).st ≠ 3 → f ∈ fr) := by
  unfold pslSend
  split
  next hoff => exact ⟨_, rfl, fun _ hx => hx, fun hon => by simp [Dev.pslOn, hon] at hoff⟩
  next =>
    split
    next hempty => exact ⟨[f], by simp, by simp [hempty], fun _ => List.mem_singleton.2 rfl⟩
    next y r hqueue =>
      split
      next hqueued =>
        simp only [Bool.and_eq_true, List.contains_iff_mem] at hqueued
        exact ⟨_, rfl, fun _ hx => hx, fun _ => hqueue ▸ hqueued.2⟩
      next =>
        refine ⟨y :: insertFrame f r, by simp, fun x hx => ?_, fun _ => ?_⟩
        · rw [hqueue] at hx
          rcases List.mem_cons.1 hx with rfl | hx
          · exact List.mem_cons_self ..
          · exact List.mem_cons_of_mem _ (mem_insertFrame.2 (.inr hx))
        · exact List.mem_cons_of_mem _ (mem_insertFrame.2 (.inl rfl))

/-- The read of the fault channel of stage k of group g, where one is present. -/
def readFaults (g k : Nat) (d : Dev) : Dev :=
  if (d.port (8 * g + k)).stage.present then pslSend g (pslFrame k 8 3) d else d

theorem readFaults_ports (g k : Nat) (d : Dev) : (readFaults g k d).ports = d.ports := by
  unfold readFaults
  split
  · exact pslSend_ports ..
  · rfl

theorem readFaults_pg (g k : Nat) (d : Dev) : ∃ fr, (readFaults g k d).pg g = { d.pg g with frames := fr } ∧
    (∀ x ∈ (d.pg g).frames, x ∈ fr) ∧
    ((d.pg g).st ≠ 3 → (d.port (8 * g + k)).stage.present = true → pslFrame k 8 3 ∈ fr) := by
  unfold readFaults
  split
  next hpresent =>
    obtain ⟨fr, hpg, hold, hnew⟩ := pslSend_pg g (pslFrame k 8 3) d
    exact ⟨fr, hpg, hold, fun hon _ => hnew hon⟩
  next habsent => exact ⟨_, rfl, fun _ hx => hx, fun _ hpresent => absurd hpresent habsent⟩

/-- The same for the stages of a list, one after the other. -/
theorem forEach_readFaults_pg (g : Nat) (l : List Nat) (d : Dev) : ∃ fr,
    (forEach l (readFaults g) d).pg g = { d.pg g with frames := fr } ∧ (∀ x ∈ (d.pg g).frames, x ∈ fr) ∧
    ((d.pg g).st ≠ 3 → ∀ k ∈ l, (d.port (8 * g + k)).stage.present = true → pslFrame k 8 3 ∈ fr) := by
  induction l generalizing d with
  | nil => exact ⟨_, rfl, fun _ hx => hx, fun _ k hk => absurd hk List.not_mem_nil⟩
  | cons j r ih =>
    obtain ⟨fr1, hpg1, hold1, hnew1⟩ := readFaults_pg g j d
    obtain ⟨fr, hpg, hold, hnew⟩ := ih (readFaults g j d)
    rw [hpg1] at hpg hold hnew
    refine ⟨fr, hpg, fun x hx => hold x (hold1 x hx), fun hon k hk hpresent => ?_⟩
    rcases List.mem_cons.1 hk with rfl | hk
    · exact hold _ (hnew1 hon hpresent)
    · refine hnew hon k hk ?_
      rw [Dev.port, readFaults_ports]
      exact hpresent

theorem execPslAlert_eq (g : GroupId) (s : State) : exec (.pslAlert g) s =
    .next (s.afterPd (forEach (List.range 8) (readFaults g) (s.dev.modPg g (fun x => { x with alerts := x.alerts + 1 })))) := rfl

/-- Settles O53: the boundary is `boundary` part by part, the push is taken by R70's conditions, and the alert asks every stage. -/
theorem boundaryPushAlertComplete : Obligations.BoundaryPushAlertComplete := by
  refine ⟨?boundary, ?push, ?alert⟩
  case boundary =>
    intro s hlevel hreset
    exact ⟨_, execMicroframeBoundary_running hlevel hreset, fun h hh => countHalves_mf s.dev.counts s.dev hh, rfl⟩
  case push =>
    rintro s f n e _ _ _ _ rfl rfl rfl rfl hshows haccepts hlive hloaded hidle hbad hfailed hroom hslot hcycle hzero hlink hok
    have hexec : exec (.epPush f n e) s = .next (s.after (pushEp n e s.dev)) := by
      show execEpPush f n e s = _
      rw [execEpPush, run_eq, if_pos hshows]
    refine ⟨_, hexec.trans (by
      rw [pushEp_taken ⟨haccepts, hlive, hloaded, hidle, hbad, hfailed, hroom, hslot, hcycle, hzero⟩]), ?_⟩
    rw [pushTaken_ring]
    simp [pushTaken, pushedRing, holdEntries_one hcycle hok hlink, hidle, hbad]
  case alert =>
    intro s g k hk hpresent hon
    obtain ⟨fr, hpg, -, hnew⟩ := forEach_readFaults_pg g (List.range 8) (s.dev.modPg g (fun x => { x with alerts := x.alerts + 1 }))
    refine ⟨_, execPslAlert_eq g s, ?_, ?_⟩
    · rw [hpg]
      simp
    · rw [hpg]
      exact hnew (by simpa using hon) k (List.mem_range.2 hk) hpresent

end Sys2Proof.Machine
end

section
/-! PROOFS. What the rows of the Sinopia link and of Palette's arbiters do. -/
namespace Sys2Proof.Machine

/-- A row that always completes ends in what its operation leaves. -/
theorem exec_next_of_run {i : Instr} {s : State} {f : Dev → Dev} {e : Dev} (hrow : exec i s = run f s) (hleaves : f s.dev = e) :
    exec i s = .next (s.after e) := by
  rw [hrow, run_eq, hleaves]

/-! ### The link goes down and comes up (R244 to R246) -/

/-- Bound slices hang on the slices and on how many of them exist. -/
theorem boundSlices_congr {d e : Dev} (hS : e.S = d.S) (hslice : ∀ n, e.slice n = d.slice n) : e.boundSlices = d.boundSlices := by
  simp [Dev.boundSlices, Dev.sliceNums, hS, hslice]

@[simp] theorem raise_boundSlices (e : Ev) (d : Dev) : (raise e d).boundSlices = d.boundSlices :=
  boundSlices_congr (raise_S e d) (raise_slice e d)

/-- With no slice bound, a loss of the link has nothing in doubt. -/
theorem sinopiaLost_unbound {d : Dev} (hup : d.sinopia.up = true) (hbound : d.boundSlices = []) :
    sinopiaLost d = raise { c := 65, inst := 0 } { d with
      sinopia := { d.sinopia with up := false, training := false, downCount := d.sinopia.downCount + 1, holdRunning := true } } := by
  have hbound' (x : Sinopia) : ({ d with sinopia := x } : Dev).boundSlices = [] := hbound
  simp [sinopiaLost, hup, hbound', forEach]

theorem sinopiaLost_down {d : Dev} (h : d.sinopia.up = false) : sinopiaLost d = d := by
  simp [sinopiaLost, h]

theorem retrain_down {d : Dev} (h : d.sinopia.up = false) :
    retrain d = emit (.sinopiaTrain 1) (emit (.sinopiaTrain 0) { d with sinopia := { d.sinopia with training := true } }) := by
  simp [retrain, h]

/-- H0 sends SYNC unless it waits for the counter of H1. -/
theorem sinopiaUp_trained {d : Dev} (htrain : d.sinopia.training = true) (hsync : (d.half 0).takeFromSync = false) :
    sinopiaUp d =
      (let e := repath (fun d => raise { c := 66, inst := 0 } { d with sinopia := { d.sinopia with up := true, training := false } })
         (emit (.sinopiaSync 0 (d.half 0).mf) d)
       forEach e.boundSlices tellMirror e) := by
  simp only [sinopiaUp, htrain, hsync]
  rfl

theorem execSinopiaHoldExpiry_running {s : State} (h : s.dev.sinopia.holdRunning = true) :
    exec .sinopiaHoldExpiry s = .next (s.after (forEach s.dev.boundSlices pathBack
      { s.dev with sinopia := { s.dev.sinopia with holdRunning := false } })) := by
  refine exec_next_of_run rfl ?_
  simp only [h]
  rfl

/-! ### Messages (R13, R182, R226, R231, R258) -/

/-- A SYNC changes no counter while neither half waits for one. -/
theorem sync_counted {ns : BitVec 16} {d : Dev} (hup : d.sinopia.up = true) (h0 : (d.half 0).takeFromSync = false)
    (h1 : (d.half 1).takeFromSync = false) :
    sync ns d =
      if 20 < ns.toInt.natAbs then raise { c := 17, inst := 1, half := 1 } { d with sinopia := { d.sinopia with syncOffset := ns } }
      else { d with sinopia := { d.sinopia with syncOffset := ns } } := by
  have hwaits (x : Sinopia) : (({ d with sinopia := x } : Dev).half 0).takeFromSync = false ∧
      (({ d with sinopia := x } : Dev).half 1).takeFromSync = false := ⟨h0, h1⟩
  simp [sync, hup, forEach, hwaits]

/-- A grant to a far arbiter moves up to 4,096 bytes, and none out of an empty counter. -/
theorem Pal.credit_eq (p : Pal) : p.credit = if p.counter ≤ 0 then p else { p with
    counter := p.counter - min 4096 p.counter, far := p.far + min 4096 p.counter
    reached := p.reached || decide (p.counter ≤ 4096) } := by
  have hall : p.counter ≤ min 4096 p.counter ↔ p.counter ≤ 4096 := by simp
  simp [Pal.credit, hall]

section
variable {dst : Nat} {n : SliceId} {d : Dev}

theorem ctrlMsg_creditRequest (hup : d.sinopia.up = true) (hS : d.S ≠ 1) (hhome : (d.slice n).half = dst) (r : Nat) :
    ctrlMsg dst (.creditRequest n r) d = d.modPal n r Pal.credit := by
  simp [ctrlMsg, hup, hS, hhome]

theorem ctrlMsg_completion {cq : Nat} {dws : List Dword} (hup : d.sinopia.up = true) (hlen : dws.length = 8)
    (hhome : d.cqHalf n cq = dst) (irq : Bool) :
    ctrlMsg dst (.completion n cq dws irq) d = post n cq { dws := dws, irq := irq } d := by
  simp [ctrlMsg, hup, hhome, List.take_of_length_le hlen.le]

theorem ctrlMsg_hgReturn (hup : d.sinopia.up = true) (f : FuncId) (lower upper : Dword) :
    ctrlMsg 0 (.hgReturn f lower upper) d = returnNonce f lower upper d := by
  simp [ctrlMsg, hup]

theorem dataMsg_upstream {f : FuncId} (hup : d.sinopia.up = true) (hhalf : halfOfFunc f = dst) (hn : n.val < d.S)
    (hquiet : (d.slice n).quiet = false) (hcarries : d.carries n f = true) (a : Qword) (bytes : List Byte) (data : Bool) :
    dataMsg dst (.upstream f n a bytes data) d = sendWrite n (1 - dst) f 0 a.toNat bytes data d := by
  simp [dataMsg, hup, hhalf, hn, hquiet, hcarries]

theorem dataMsg_pool {p : PortId} {h ep : Nat} (hup : d.sinopia.up = true) (howner : d.owner p < d.S)
    (hport : (d.handle (d.owner p) h).port = p.val) (hhalf : d.epHalf (d.owner p) h = dst) (bytes : List Byte) :
    dataMsg dst (.pool p h ep bytes) d = takeIn (d.owner p) h ep 0 bytes d := by
  simp [dataMsg, hup, howner, hport, hhalf]

end

theorem execSinopiaFenceMessage_up {s : State} {n : SliceId} (hup : s.dev.sinopia.up = true) (hn : n.val < s.dev.S)
    (hst : (s.dev.slice n).st ≠ .free) (dst : HalfId) :
    exec (.sinopiaFenceMessage dst n) s = .next (s.after (fence [n.val] none s.dev)) := by
  refine exec_next_of_run rfl ?_
  simp [hup, hn, hst]

/-! ### Flits and lanes (R243) -/

theorem execSinopiaFlitCrcError_up {s : State} (hup : s.dev.sinopia.up = true) (src : HalfId) :
    exec (.sinopiaFlitCrcError src) s = .next (s.after (emit (.replay src) { s.dev with
      sinopia := { s.dev.sinopia with crcErrors := s.dev.sinopia.crcErrors + 1, replays := s.dev.sinopia.replays + 1 } })) := by
  refine exec_next_of_run rfl ?_
  simp [hup]

theorem laneRetire_spareA {d : Dev} (hup : d.sinopia.up = true) (hspare : d.sinopia.sparesA < 8) :
    laneRetire 0 d = raise { c := 64, inst := 0 } { d with sinopia := { d.sinopia with sparesA := d.sinopia.sparesA + 1 } } := by
  simp [laneRetire, hup, sinopiaSpares, Nat.not_le.2 hspare, b2n]

theorem laneRetire_noSpareB {d : Dev} (hup : d.sinopia.up = true) (hspare : 8 ≤ d.sinopia.sparesB) :
    laneRetire 1 d = sinopiaLost d := by
  simp [laneRetire, hup, sinopiaSpares, hspare]

/-- Settles O11: each row is its operation's case, by the lemmas above. -/
theorem sinopiaRowsComplete : Obligations.SinopiaRowsComplete := by
  refine ⟨?lost, ?lostDown, ?retrain, ?linkUp, ?hold, ?sync, ?credit, ?completion, ?hgReturn, ?upstream, ?pool, ?fence, ?flit,
    ?spareA, ?noSpareB, ?turn⟩
  case lost => exact fun s w hup hbound => exec_next_of_run rfl (sinopiaLost_unbound hup hbound)
  case lostDown => exact fun s w hdown => exec_next_of_run rfl (sinopiaLost_down hdown)
  case retrain => exact fun s hdown => exec_next_of_run rfl (retrain_down hdown)
  case linkUp => exact fun s htrain hsync => exec_next_of_run rfl (sinopiaUp_trained htrain hsync)
  case hold => exact fun s => execSinopiaHoldExpiry_running
  case sync => exact fun s ns hup h0 h1 => exec_next_of_run rfl (sync_counted hup h0 h1)
  case credit =>
    intro s dst n r hup hS hhome
    simp only [← Pal.credit_eq]
    exact exec_next_of_run rfl (ctrlMsg_creditRequest hup hS hhome r)
  case completion => exact fun s dst n cq dws irq hup hlen hhome => exec_next_of_run rfl (ctrlMsg_completion hup hlen hhome irq)
  case hgReturn => exact fun s f lower upper hup => exec_next_of_run rfl (ctrlMsg_hgReturn hup f lower upper)
  case upstream =>
    exact fun s dst f n a bytes data hup hhalf hn hquiet hcarries =>
      exec_next_of_run rfl (dataMsg_upstream hup hhalf hn hquiet hcarries a bytes data)
  case pool =>
    exact fun s dst p h ep bytes hup howner hport hhalf => exec_next_of_run rfl (dataMsg_pool hup howner hport hhalf bytes)
  case fence => exact fun s dst n hup hn hst => execSinopiaFenceMessage_up hup hn hst dst
  case flit => exact fun s src hup => execSinopiaFlitCrcError_up hup src
  case spareA => exact fun s hup hspare => exec_next_of_run rfl (laneRetire_spareA hup hspare)
  case noSpareB => exact fun s hup hspare => exec_next_of_run rfl (laneRetire_noSpareB hup hspare)
  case turn => exact fun s a n c per hn hok => exec_next_of_run rfl (arbTurn_one a n c per s.dev hn hok)

end Sys2Proof.Machine
end

section
/-! PROOFS. The local numbers of a slice's ports, and the shares of a slice. -/
namespace Sys2Proof.Machine

/-! ### Local port numbers (R44) -/

theorem mem_portsOf {d : Dev} {n p : Nat} : p ∈ d.portsOf n ↔ p < 192 ∧ d.owner p = n := by
  simp [Dev.portsOf, allPorts]

theorem portsOf_nodup (d : Dev) (n : Nat) : (d.portsOf n).Nodup := List.nodup_range.filter _

/-- The local number of p counts the lower ports of its owner. -/
theorem localPort_eq {d : Dev} {p : Nat} (hp : p < 192) :
    d.localPort p = ((List.range p).filter (fun q => d.owner q == d.owner p)).length + 1 := by
  simp [Dev.localPort, allPorts, List.take_range, Nat.min_eq_left hp.le]

/-- The owner's ports are those below p, then p, then those above. -/
theorem portsOf_owner_split {d : Dev} {p : Nat} (hp : p < 192) : ∃ above,
    d.portsOf (d.owner p) = (List.range p).filter (fun q => d.owner q == d.owner p) ++ p :: above := by
  obtain ⟨k, hk⟩ := Nat.exists_eq_add_of_lt hp
  have hall : allPorts = List.range p ++ p :: (List.range k).map (p + 1 + ·) := by
    rw [allPorts, hk, Nat.add_right_comm, List.range_add, List.range_succ]
    simp
  exact ⟨_, by rw [Dev.portsOf, hall, List.filter_append, List.filter_cons_of_pos (by simp)]⟩

theorem physPort_succ (d : Dev) (n k : Nat) : d.physPort n (k + 1) = (d.portsOf n)[k]? := rfl

theorem physPort_localPort {d : Dev} {p : Nat} (hp : p < 192) : d.physPort (d.owner p) (d.localPort p) = some p := by
  obtain ⟨above, hsplit⟩ := portsOf_owner_split (d := d) hp
  rw [localPort_eq hp, physPort_succ, hsplit]
  simp

theorem localPort_le {d : Dev} {p : Nat} (hp : p < 192) : d.localPort p ≤ (d.portsOf (d.owner p)).length := by
  obtain ⟨above, hsplit⟩ := portsOf_owner_split (d := d) hp
  rw [localPort_eq hp, hsplit]
  simp

theorem physPort_none {d : Dev} {n lp : Nat} (h : lp = 0 ∨ (d.portsOf n).length < lp) : d.physPort n lp = none := by
  rcases h with rfl | h
  · rfl
  · obtain ⟨k, rfl⟩ := Nat.exists_eq_succ_of_ne_zero (by omega : lp ≠ 0)
    rw [Nat.succ_eq_add_one, physPort_succ, List.getElem?_eq_none (by omega)]

/-- No port stands at two places of its owner's list, so the local number is the place at which it is found. -/
theorem localPort_of_physPort {d : Dev} {n k p : Nat} (h : d.physPort n (k + 1) = some p) :
    p < 192 ∧ d.owner p = n ∧ d.localPort p = k + 1 := by
  rw [physPort_succ] at h
  obtain ⟨hp, rfl⟩ := mem_portsOf.1 (List.mem_of_getElem? h)
  have hback := physPort_localPort (d := d) hp
  rw [localPort_eq hp] at hback ⊢
  rw [physPort_succ, ← h] at hback
  have hlt := (List.getElem?_eq_some_iff.1 h).1
  exact ⟨hp, rfl, congrArg (· + 1) ((List.getElem?_inj hlt (portsOf_nodup ..)).1 hback.symm).symm⟩

theorem localPort_lt {d : Dev} {p q : Nat} (hpq : p < q) (hq : q < 192) (howner : d.owner p = d.owner q) :
    d.localPort p < d.localPort q := by
  have hsub : (List.range (p + 1)).Sublist (List.range q) := List.range_sublist.2 hpq
  have hlen := (hsub.filter (fun k => d.owner k == d.owner q)).length_le
  rw [List.range_succ, List.filter_append] at hlen
  rw [localPort_eq (by omega), localPort_eq hq, howner]
  simpa [howner] using hlen

/-- Settles O38: the place of a port in its owner's ascending list is its local number, both ways. -/
theorem localPortNumbers : Obligations.LocalPortNumbers := by
  refine ⟨?number, ?port, fun d n lp => physPort_none, fun d p q => localPort_lt⟩
  case number =>
    intro d p hp
    exact ⟨Nat.le_add_left .., localPort_le hp, physPort_localPort hp⟩
  case port =>
    intro d n lp hpos hle
    obtain ⟨k, rfl⟩ := Nat.exists_eq_add_of_le' hpos
    have hfound : d.physPort n (k + 1) = some ((d.portsOf n)[k]'hle) := List.getElem?_eq_getElem hle
    exact ⟨_, hfound, localPort_of_physPort hfound⟩

/-! ### Shares and budgets (R31, R251) -/

/-- Settles O34: each row of the tables is a closed computation of `Config`. -/
theorem sharesAndBudgets : Obligations.SharesAndBudgets := by
  refine ⟨?shares, ?budgets⟩
  case shares => decide
  case budgets => decide

end Sys2Proof.Machine
end

section
/-! PROOFS. The handshake of a two-port group: what a return leaves of the group's record. -/
namespace Sys2Proof.Machine

/-! ### The handshake's return (R26, R249) -/

/-- What follows a change of paths leaves the configuration as the change left it. -/
theorem repath_keep_of_change (g : Dev → Dev) (d : Dev) : (repath g d).keep = (g d).keep := by
  unfold repath
  refine fold_keep _ _ _ (fun e n => ?_)
  simp only [pathBack_keep, pathChanged_keep, tellMirror_keep, doIf_keep, implies_true]

theorem groupChanged_groups (g : Nat) (fs : List Nat) (d : Dev) : (groupChanged g fs d).groups = d.groups :=
  congrArg (fun k => k.2.1) (groupChanged_keep g fs d)
theorem groupChanged_dict (g : Nat) (fs : List Nat) (d : Dev) : (groupChanged g fs d).dict = d.dict :=
  congrArg (fun k => k.1) (groupChanged_keep g fs d)

theorem setHg_groups (g : Nat) (st : HgSt) (cause : Nat) (d : Dev) : (setHg g st cause d).groups =
    (d.modGroup g (fun x => { x with st := st, cause := cause, nonce := if st = .pending then x.nonce else none })).groups := by
  unfold setHg
  dsimp only
  split
  · rfl
  · exact groupChanged_groups ..
theorem setHg_dict (g : Nat) (st : HgSt) (cause : Nat) (d : Dev) : (setHg g st cause d).dict = d.dict := by
  unfold setHg
  dsimp only
  split
  · rfl
  · exact groupChanged_dict ..

theorem setHg_group (g : Nat) (st : HgSt) (cause : Nat) (d : Dev) : (setHg g st cause d).group g =
    { d.group g with st := st, cause := cause, nonce := if st = .pending then (d.group g).nonce else none } := by
  rw [Dev.group, setHg_groups]
  exact Dev.modGroup_same ..

theorem twoPort_of_pending {g : Nat} {d : Dev} (h : d.hgSt g = .pending) : d.twoPort g = true := by
  by_contra htwo
  simp [Dev.hgSt, htwo] at h

/-- HG_STATE of a two-port group is the state of its record, but for Single. -/
theorem hgSt_twoPort {g : Nat} {d : Dev} (h : d.twoPort g = true) (hst : (d.group g).st ≠ .single) : d.hgSt g = (d.group g).st := by
  simp [Dev.hgSt, h, hst]

theorem twoPort_congr {d e : Dev} (hdict : e.dict = d.dict) (g : Nat) : e.twoPort g = d.twoPort g := by
  have hcfg : e.cfg = d.cfg := by
    funext idx sub
    rw [Dev.cfg, Dev.cfg, hdict]
  rw [Dev.twoPort, Dev.twoPort, Dev.members, Dev.members, hcfg]

/-- A handshake that fails takes the cause given, and its nonce is retired. -/
theorem setHg_failed {g : Nat} {d : Dev} (h : d.hgSt g = .pending) (cause : Nat) :
    (setHg g .failed cause d).hgSt g = .failed ∧ ((setHg g .failed cause d).group g).cause = cause ∧
    ((setHg g .failed cause d).group g).nonce = none := by
  have hgroup := setHg_group g .failed cause d
  have htwo := (twoPort_congr (setHg_dict g .failed cause d) g).trans (twoPort_of_pending h)
  refine ⟨(hgSt_twoPort htwo (by simp [hgroup])).trans (by rw [hgroup]), by rw [hgroup], by simp [hgroup]⟩

theorem prove_groups (g : Nat) (d : Dev) :
    (prove g d).groups = ((setHg g .proven 0 d).modGroup g (fun x => { x with lost := [] })).groups :=
  congrArg (fun k => k.2.1) (repath_keep_of_change _ d)
theorem prove_dict (g : Nat) (d : Dev) : (prove g d).dict = d.dict := by
  have hchange : (prove g d).dict = ((setHg g .proven 0 d).modGroup g (fun x => { x with lost := [] })).dict :=
    congrArg (fun k => k.1) (repath_keep_of_change _ d)
  rw [hchange, Dev.modGroup_dict, setHg_dict]

theorem prove_group (g : Nat) (d : Dev) :
    (prove g d).group g = { d.group g with st := .proven, cause := 0, nonce := none, lost := [] } := by
  rw [Dev.group, prove_groups]
  exact (Dev.modGroup_same ..).trans (by simp [setHg_group])

/-- A handshake that is proven is Proven also after the slices have taken the new path, and its nonce is retired. -/
theorem prove_proven {g : Nat} {d : Dev} (h : d.hgSt g = .pending) :
    (prove g d).hgSt g = .proven ∧ ((prove g d).group g).nonce = none := by
  have hgroup := prove_group g d
  have htwo := (twoPort_congr (prove_dict g d) g).trans (twoPort_of_pending h)
  exact ⟨(hgSt_twoPort htwo (by simp [hgroup])).trans (by rw [hgroup]), by rw [hgroup]⟩

/-- A return that meets no Pending group, or is lost with Sinopia, changes nothing. -/
theorem hgReturn_unheard {f : Nat} {d : Dev}
    (h : (∀ g, d.groupOf f = some g → d.hgSt g ≠ .pending) ∨ (halfOfFunc f = 1 ∧ d.sinopia.up = false)) (upper : Dword) :
    hgReturn f upper d = d := by
  unfold hgReturn
  rcases h with hnone | ⟨hhalf, hdown⟩
  · split
    · rfl
    · unfold returnNonce
      split
      next => rfl
      next g hg => simp [hnone g hg]
  · simp [hhalf, hdown]

/-- The ends of a Pending handshake: REASON 3 on the start's own port, else Proven with the right nonce and REASON 2 with a wrong one. -/
theorem hgReturn_ends {f g : Nat} {d : Dev} (h : halfOfFunc f = 0 ∨ d.sinopia.up = true) (hg : d.groupOf f = some g)
    (hp : d.hgSt g = .pending) (upper : Dword) :
    let e := hgReturn f upper d
    (e.group g).nonce = none ∧
    (f = (d.group g).startPort.toNat → e.hgSt g = .failed ∧ (e.group g).cause = 3) ∧
    (f ≠ (d.group g).startPort.toNat → (d.group g).nonce = some (upper ++ (d.func f).retLo) → e.hgSt g = .proven) ∧
    (f ≠ (d.group g).startPort.toNat → (d.group g).nonce ≠ some (upper ++ (d.func f).retLo) →
      e.hgSt g = .failed ∧ (e.group g).cause = 2) := by
  rw [hgReturn_pending h hg hp]
  by_cases hport : f = (d.group g).startPort.toNat
  · obtain ⟨hst, hcause, hnonce⟩ := setHg_failed hp 3
    rw [if_pos hport]
    exact ⟨hnonce, fun _ => ⟨hst, hcause⟩, fun hother => absurd hport hother, fun hother => absurd hport hother⟩
  · rw [if_neg hport]
    by_cases hright : (d.group g).nonce = some (upper ++ (d.func f).retLo)
    · obtain ⟨hst, hnonce⟩ := prove_proven hp
      rw [if_pos hright]
      exact ⟨hnonce, fun hown => absurd hown hport, fun _ _ => hst, fun _ hwrong => absurd hright hwrong⟩
    · obtain ⟨hst, hcause, hnonce⟩ := setHg_failed hp 2
      rw [if_neg hright]
      exact ⟨hnonce, fun hown => absurd hown hport, fun _ hr => absurd hr hright, fun _ _ => ⟨hst, hcause⟩⟩

/-- Settles O40: `hgReturn_ends` for a Pending group that hears the return, `hgReturn_unheard` for every other. -/
theorem handshakeReturn : Obligations.HandshakeReturn := by
  refine ⟨fun s f g upper h hg hp => ⟨_, execHgReturn_eq f upper s, hgReturn_ends h hg hp upper⟩, fun s f upper h => ?_⟩
  rw [execHgReturn_eq, hgReturn_unheard h]

end Sys2Proof.Machine
end

section
/-! PROOFS. Doorbells stay in their slice: what each operation of a doorbell leaves alone. -/
namespace Sys2Proof.Machine

/-- Everything but slice n's own definition and engines, the ports, what leaves the part, and what every command may draw or count. -/
def Dev.beside (n : Nat) (d : Dev) : (Nat → Slice × SliceEng) × Tab PGroup × Tab Func × Tab HostGroup × Tab Half × Tab Core ×
    Tab CanLink × Mbox × Events × Dict × Gesso :=
  (fun m => if m = n then ({}, {}) else (d.slice m, d.eng m), d.pgs, d.funcs, d.groups, d.halves, d.cores, d.cans, d.mbox, d.events,
    d.dict, d.gesso)

/-- The context cache of slice n with a place for one more: the least recent unpinned context is written back and leaves (R93). -/
def makeRoom (n : Nat) (d : Dev) : Dev :=
  if (d.eng n).cached.length < Config.shareContexts d.S then d else
  match (d.eng n).cached.find? (fun v => !(d.pinned n v)) with
  | none => d
  | some v =>
    let d := d.modEng n (fun x => { x with cached := x.cached.erase v })
    if v.2 = 0 then writeHeader n v.1 d else writeCtx n v.1 v.2 d

/-- A context that is not on chip takes a place of the cache, and is read unless it is fresh. -/
theorem touch_eq (n h e : Nat) (fresh : Bool) (d : Dev) : touch n h e fresh d =
    if (d.eng n).cached.contains (h, e) then d.modEng n (fun x => { x with cached := x.cached.erase (h, e) ++ [(h, e)] }) else
    let d := (makeRoom n d).modEng n (fun x => { x with cached := x.cached ++ [(h, e)] })
    if fresh then d else
    hostRead n (d.pageHalf n (d.handle n h).port) ((d.handle n h).ctxAddr + 64 * e) 64 (.context h e)
      (if e = 0 then d else d.modEp n h e (fun x => { x with reload := true })) := rfl

/-! ### The updates of a doorbell -/

section
variable (n : Nat) (d : Dev)

@[simp] theorem modSlice_beside (g : Slice → Slice) : (d.modSlice n g).beside n = d.beside n := by
  have hother : (fun m => if m = n then (({}, {}) : Slice × SliceEng) else ((d.modSlice n g).slice m, d.eng m)) =
      fun m => if m = n then ({}, {}) else (d.slice m, d.eng m) := by
    funext m
    split
    · rfl
    next hm => rw [Dev.modSlice_other _ _ _ _ hm]
  exact congrArg (fun f => (f, (d.beside n).2)) hother

@[simp] theorem modEng_beside (g : SliceEng → SliceEng) : (d.modEng n g).beside n = d.beside n := by
  have hother : (fun m => if m = n then (({}, {}) : Slice × SliceEng) else (d.slice m, (d.modEng n g).eng m)) =
      fun m => if m = n then ({}, {}) else (d.slice m, d.eng m) := by
    funext m
    split
    · rfl
    next hm => rw [Dev.modEng_other _ _ _ _ hm]
  exact congrArg (fun f => (f, (d.beside n).2)) hother

@[simp] theorem modWq_beside (q : Nat) (g : WQ → WQ) : (d.modWq n q g).beside n = d.beside n := modSlice_beside ..
@[simp] theorem modEp_beside (h e : Nat) (g : Ep → Ep) : (d.modEp n h e g).beside n = d.beside n := modEng_beside ..
@[simp] theorem modRing_beside (h e st : Nat) (g : Ring → Ring) : (d.modRing n h e st g).beside n = d.beside n := modEng_beside ..
@[simp] theorem emit_beside (o : Output) : (emit o d).beside n = d.beside n := rfl
@[simp] theorem modBus_beside (p : Nat) (g : PortBus → PortBus) : (d.modBus p g).beside n = d.beside n := rfl
@[simp] theorem dbIgnored_beside : (dbIgnored n d).beside n = d.beside n := modSlice_beside ..

/-! ### Host writes and reads -/

@[simp] theorem sendWrite_beside (h f tag addr : Nat) (bytes : List Byte) (data : Bool) :
    (sendWrite n h f tag addr bytes data d).beside n = d.beside n := by
  simp [sendWrite]
@[simp] theorem issueWrite_beside (h f tag addr : Nat) (bytes : List Byte) (data : Bool) :
    (issueWrite n h f tag addr bytes data d).beside n = d.beside n := by
  rw [issueWrite, sendWrite_beside, doIf]
  split <;> rfl
@[simp] theorem hostWrite_beside (h tag addr : Nat) (bytes : List Byte) : (hostWrite n h tag addr bytes d).beside n = d.beside n := by
  unfold hostWrite writeOn
  split
  · exact issueWrite_beside ..
  · exact modEng_beside ..

@[simp] theorem issueRead_beside (h f addr len off tag : Nat) (r : ReadRef) :
    (issueRead n h f addr len off tag r d).beside n = d.beside n := by
  simp [issueRead]
@[simp] theorem hostRead_beside (h addr len : Nat) (r : ReadRef) : (hostRead n h addr len r d).beside n = d.beside n := by
  unfold hostRead hostReadOff
  dsimp only
  split
  · exact modEng_beside ..
  · split
    · exact issueRead_beside ..
    · exact modEng_beside ..

/-! ### The doorbell of a work queue (R65) -/

@[simp] theorem readPi_beside (q : Nat) : (readPi n q d).beside n = d.beside n := by
  simp [readPi]
@[simp] theorem doorbellWq_beside (q : Nat) : (doorbellWq n q d).beside n = d.beside n := by
  unfold doorbellWq ringWq
  split_ifs <;> simp

/-! ### Contexts (R89, R93) -/

@[simp] theorem writeHeader_beside (h : Nat) : (writeHeader n h d).beside n = d.beside n := hostWrite_beside ..
@[simp] theorem writeCtx_beside (h e : Nat) : (writeCtx n h e d).beside n = d.beside n := by
  have hctx (hf a : Nat) (bs : List Byte) (k : Nat) : (hostWrite n hf 0 a bs { d with freeCtr := k }).beside n = d.beside n :=
    hostWrite_beside ..
  unfold writeCtx
  dsimp only
  split
  · refine (fold_same (Dev.beside n) _ _ _ fun e r => ?_).trans (hctx ..)
    split
    · rfl
    · exact hostWrite_beside ..
  · exact hctx ..

@[simp] theorem makeRoom_beside : (makeRoom n d).beside n = d.beside n := by
  unfold makeRoom
  split
  · rfl
  · split
    · rfl
    · split <;> simp
@[simp] theorem touch_beside (h e : Nat) (fresh : Bool) : (touch n h e fresh d).beside n = d.beside n := by
  rw [touch_eq]
  dsimp only
  split_ifs <;> simp
@[simp] theorem useCtx_beside (h e : Nat) : (useCtx n h e d).beside n = d.beside n := by
  unfold useCtx
  dsimp only
  split_ifs <;> simp

/-! ### The doorbell of an endpoint (R98, R110) -/

@[simp] theorem pokeRing_beside (h e st : Nat) : (pokeRing n h e st d).beside n = d.beside n := by
  unfold pokeRing readRing
  dsimp only
  split_ifs <;> simp
@[simp] theorem wakeBus_beside (p : Nat) (ss partner : Bool) : (wakeBus p ss partner d).beside n = d.beside n := by
  unfold wakeBus
  dsimp only
  split_ifs <;> simp

/-- Past the wake condition, an accepted doorbell stays in its slice. -/
theorem ringEp_beside (h e st : Nat) : (ringEp n h e st d).beside n = (pgWake (d.handle n h).port d).beside n := by
  unfold ringEp
  dsimp only
  split_ifs <;> simp

end

/-! ### The rows -/

/-- What a doorbell in a page of slice n may change: what `beside` leaves out, and a power group from Port Sleep to waking. -/
structure StaysIn (n : Nat) (d e : Dev) : Prop where
  slices : ∀ m, m ≠ n → e.slice m = d.slice m ∧ e.eng m = d.eng m
  wakes : ∀ g, e.pg g = d.pg g ∨ ((d.pg g).st = 1 ∧ e.pg g = { d.pg g with st := 4 })
  rest : e.funcs = d.funcs ∧ e.groups = d.groups ∧ e.halves = d.halves ∧ e.cores = d.cores ∧ e.cans = d.cans ∧ e.mbox = d.mbox ∧
    e.events = d.events ∧ e.dict = d.dict ∧ e.gesso = d.gesso

/-- A wake condition on port p wakes its group from Port Sleep, and no other. -/
theorem pgWake_pg (p : Nat) (d : Dev) (g : Nat) :
    (pgWake p d).pg g = d.pg g ∨ ((d.pg g).st = 1 ∧ (pgWake p d).pg g = { d.pg g with st := 4 }) := by
  unfold pgWake
  split
  next hsleep =>
    by_cases hg : g = p / 8
    · subst hg
      exact .inr ⟨hsleep, Dev.modPg_same ..⟩
    · exact .inl (Dev.modPg_other _ _ _ _ hg)
  next => exact .inl rfl

/-- A device that is beside the slice as d is, but for power groups that wake from Port Sleep. -/
theorem staysIn_of_pgs {n : Nat} {d e : Dev} {pgs : Tab PGroup} (h : e.beside n = ({ d with pgs := pgs } : Dev).beside n)
    (hwakes : ∀ g, tabGet {} pgs g = d.pg g ∨ ((d.pg g).st = 1 ∧ tabGet {} pgs g = { d.pg g with st := 4 })) : StaysIn n d e := by
  simp only [Dev.beside, Prod.mk.injEq] at h
  obtain ⟨hslices, hpgs, hrest⟩ := h
  refine ⟨fun m hm => ?_, fun g => ?_, hrest⟩
  · have hm' := congrFun hslices m
    simp only [if_neg hm] at hm'
    exact Prod.mk.inj hm'
  · rw [Dev.pg, hpgs]
    exact hwakes g

theorem staysIn_of_beside {n : Nat} {d e : Dev} (h : e.beside n = d.beside n) : StaysIn n d e :=
  staysIn_of_pgs (pgs := d.pgs) h fun _ => .inl rfl

theorem staysIn_of_wake {n p : Nat} {d e : Dev} (h : e.beside n = (pgWake p d).beside n) : StaysIn n d e := by
  have hwakes := pgWake_pg p d
  obtain ⟨pgs, hwake⟩ := pgWake_shape p d
  rw [hwake] at h hwakes
  exact staysIn_of_pgs h hwakes

theorem doorbellWq_staysIn (n q : Nat) (d : Dev) : StaysIn n d (doorbellWq n q d) := staysIn_of_beside (doorbellWq_beside ..)

theorem epRing_staysIn (n : Nat) (v : Qword) (d : Dev) : StaysIn n d (epRing n v d) := by
  unfold epRing
  dsimp only
  split
  · exact staysIn_of_wake (ringEp_beside ..)
  · exact staysIn_of_beside (dbIgnored_beside ..)

/-- A row of a slice's page acts only where the function shows the page. -/
theorem staysIn_shown {f n : Nat} {d : Dev} {g : Dev → Dev} (h : StaysIn n d (g d)) :
    StaysIn n d (if d.shows f n then g d else d) := by
  split
  · exact h
  · exact staysIn_of_beside rfl

/-- Settles O44: each of the three rows stays in its slice, and only an accepted endpoint doorbell wakes a power group. -/
theorem doorbellsStayInTheSlice : Obligations.DoorbellsStayInTheSlice := by
  intro s f n i hi
  have hrow : ∃ e, exec i s = .next (s.after e) ∧ StaysIn n s.dev e := by
    rcases hi with ⟨v, rfl⟩ | ⟨v, rfl⟩ | ⟨v, rfl⟩
    · exact ⟨_, rfl, staysIn_shown (doorbellWq_staysIn ..)⟩
    · exact ⟨_, rfl, staysIn_shown (epRing_staysIn ..)⟩
    · exact ⟨_, rfl, staysIn_shown (staysIn_of_beside (modSlice_beside ..))⟩
  obtain ⟨e, hexec, hslices, hwakes, hrest⟩ := hrow
  exact ⟨_, hexec, hslices, hwakes, hrest⟩

end Sys2Proof.Machine
end

section
/-! PROOFS. The manager's operations on slices and ports, from the owner of the configuration. -/
namespace Sys2Proof.Machine

/-! ### The checks before an operation (R269, R270, R413) -/

/-- The operation on one slice that R413 numbers op, once every check has passed. -/
def sliceOp (p : Path) (op : Nat) (b : OpBlock) (image : List Dword) : Dev → Dev :=
  match op with
  | 0x40 => createOp p b
  | 0x41 => quiesceOp p b
  | 0x42 => fenceOp p b
  | 0x43 => freezeOp p b
  | 0x44 => rehomeOp p b
  | 0x45 => thawOp p b
  | 0x46 => exportOp p b
  | 0x47 => importOp p b image
  | 0x48 => resetOp p b
  | _ => removeOp p b

/-- An operation that R270 refuses nothing of is carried out; a fence by any path. -/
theorem managerOp_permitted {p : Path} {op : Nat} {b : OpBlock} {d : Dev} (hop : 0x40 ≤ op ∧ op ≤ 0x49)
    (howner : d.isOwner p = true ∨ op = 0x42) (hused : blockUnused op b = false) (hone : op = 0x42 → b.all = false)
    (hcode : opCode op b d = (0, 0)) (image : List Dword) : managerOp p op b image d = sliceOp p op b image d := by
  obtain ⟨hlo, hhi⟩ := hop
  have howner' : (!(d.isOwner p) && op != 0x42) = false := by rcases howner with h | h <;> simp [h]
  have hall : (op = 0x42 && b.all) = false := by
    by_cases h : op = 0x42 <;> simp [h, hone]
  unfold managerOp
  simp only [howner', hused, hall, hcode]
  interval_cases op <;> rfl

theorem managerOp_fenceAll {p : Path} {b : OpBlock} (hused : blockUnused 0x42 b = false) (hall : b.all = true) (image : List Dword)
    (d : Dev) : managerOp p 0x42 b image d = fenceOp p b d := by
  simp [managerOp, hused, hall]

theorem managerOp_assign {p : Path} {b : OpBlock} {d : Dev} (howner : d.isOwner p = true) (hused : blockUnused 0x4A b = false)
    (image : List Dword) : managerOp p 0x4A b image d = assignOp p b d := by
  simp [managerOp, howner, hused]

/-- A row of a manager operation, where the path is free and the server runs. -/
theorem runP_managerOp {s : State} {p : Path} (h : s.Serves p) {op : Nat} {b : OpBlock} {image : List Dword} {e : Dev}
    (hop : managerOp p op b image s.dev = e) : runP (entered p false (managerOp p op b image)) s = .next (s.afterPd e) := by
  rw [runP_eq, entered_serves h, hop]

/-- The same for an operation of the owner that R270 refuses nothing of. -/
theorem runP_sliceOp {s : State} {p : Path} (h : s.Owned p) {op : Nat} (hop : 0x40 ≤ op ∧ op ≤ 0x49) (hfence : op ≠ 0x42)
    {b : OpBlock} {image : List Dword} (hused : blockUnused op b = false) (hcode : opCode op b s.dev = (0, 0)) {e : Dev}
    (hleaves : sliceOp p op b image s.dev = e) : runP (entered p false (managerOp p op b image)) s = .next (s.afterPd e) :=
  runP_managerOp h.1 ((managerOp_permitted hop (.inl h.2) hused (absurd · hfence) hcode image).trans hleaves)

/-! ### What the operations do -/

section
variable {p : Path} {b : OpBlock} {d : Dev}

theorem quiesceOp_active (h : (d.slice b.slice).st = .active) : quiesceOp p b d =
    stopAll b.slice (setSliceSt b.slice .quiescing ((opStart b.slice p 0x41 b.tag d).modSlice b.slice (fun x => { x with
      deferOps := (d.slice b.slice).deferrable, deferred := (d.slice b.slice).deferrable.length, stall := 0
      qPath := d.pathCode b.slice + 1 }))) := by
  simp [quiesceOp, h]

/-- A quiesce of a slice that is no longer Active answers Success and changes nothing (R269, log entry 15). -/
theorem quiesceOp_begun (h : (d.slice b.slice).st ≠ .active) : quiesceOp p b d = opDone p 0x41 b.slice b.tag cOk 0 0 0 0 d := by
  simp [quiesceOp, h]

theorem fenceOp_one (h : b.all = false) : fenceOp p b d =
    fence [b.slice] (some (.op p false b.slice b.tag)) (d.modSlice b.slice (fun x => { x with lastCode := 1 })) := by
  simp [fenceOp, h, forEach, cOk]

theorem fenceOp_all (h : b.all = true) : fenceOp p b d =
    fence d.notFree (some (.op p true b.slice b.tag)) (forEach d.notFree (fun n => Dev.modSlice n (fun x => { x with lastCode := 1 })) d) := by
  simp [fenceOp, h, cOk]

/-- Every check of R289 has passed: the slice is bound anew, its vectors masked, its pin free, and its plan on the new path. -/
theorem rehomeOp_fits (h : d.rehomeBad b.slice b.hostGroup = none) : rehomeOp p b d =
    (let d := d.modSlice b.slice (fun x => { x with
       group := b.hostGroup, pasid := b.pasid, vecs := tabMap (fun _ v => { v with mask := true }) x.vecs
       cqs := tabMap (fun _ c => { c with lastF := none, flush := 0 }) x.cqs })
     let d := setObj (0x4000 + b.slice) 0x11 0xFF (d.modEng b.slice (fun x => { x with lost := [] }))
     opDone p 0x44 b.slice b.tag cOk 0 0 0 0 (forEach (d.portsOf b.slice) (fun q d =>
       d.modPort q (fun x => { x with plan := x.plan.map (d.onGroup b.slice b.hostGroup q) })) d)) := by
  rw [rehomeOp, h]

/-- The image fits, nothing is deferred or held, and a link carries it (R291). -/
theorem exportOp_fits {f : Nat} (hdeferred : (d.slice b.slice).deferred = 0) (hheld : ∀ q ∈ (d.slice b.slice).wqs, q.2.held = [])
    (haddr : b.imageAddr.toNat % 8 = 0) (hlen : 4 * (imageWords d b.slice d.start.exportSeq.toNat).length ≤ b.length)
    (hlink : d.imageLink (d.slice b.slice).group (if d.S = 1 then 0 else (d.slice b.slice).half) = some f) : exportOp p b d =
    (let w := imageWords d b.slice d.start.exportSeq.toNat
     let a := b.imageAddr.toNat
     let d := (cuts (d.wWrite f) a (4 * w.length)).foldl (fun d c =>
       emit (.memWrite (toFunc f) b.imagePasid c.1 (((dwBytes w).drop (c.1 - a)).take c.2) false) d) d
     opDone p 0x46 b.slice b.tag cOk 0 (4 * w.length) 0 0 { d with start := { d.start with exportSeq := d.start.exportSeq + 1 } }) := by
  have hheld' : (d.slice b.slice).wqs.any (fun w => w.2.held.length != 0) = false := by
    simpa using hheld
  unfold exportOp
  simp only [hdeferred, hheld', haddr, hlink, Nat.not_lt.2 hlen]
  rfl

/-- The image was read, breaks no rule of R293, and R270 refuses no binding. -/
theorem importOp_fits {image : List Dword}
    (hlink : (d.imageLink b.hostGroup (if d.S = 1 then 0 else d.homeHalf b.slice)).isSome = true) (hread : image ≠ [])
    (hgood : imageBad d.S b.length image = none) (hbind : d.bindBad b.slice b.hostGroup b.pasid true = false) :
    importOp p b image d =
    (let m := parseImage image
     let d' := d.modSlice b.slice (fun y => { sliceOfImage m with
       group := b.hostGroup, pasid := b.pasid, half := d.homeHalf b.slice, lastCode := y.lastCode })
     opDone p 0x47 b.slice b.tag cOk 0 (b2n (d.homeHalf b.slice == 1)) 0 0 (setSliceSt b.slice .frozen
       (d'.modEng b.slice (fun _ => { handles := handlesOfImage m, cseq := m.held.length })))) := by
  have hread' : ((d.imageLink b.hostGroup (if d.S = 1 then 0 else d.homeHalf b.slice)).isNone || image.isEmpty) = false := by
    simp [Option.isNone_eq_false_iff.2 hlink, hread]
  unfold importOp
  simp only [hread', hgood, hbind]
  rfl

/-- A port without an owner goes to a Quiesced slice (R45). -/
theorem assignOp_unowned (hport : b.port < 192) (hfree : d.S ≤ d.owner b.port) (htarget : b.target < d.S)
    (hst : (d.slice b.target).st = .quiesced) : assignOp p b d =
    (let e := d.modPort b.port (fun x => { x with
       owner := b.target, pd := { x.pd with sliceLimit := 0 }
       bus := { x.bus with resetRequired := true, evPending := false, evBits := 0, evDetach := false, evPgOff := false } })
     let e := e.modEng b.target (fun x => { x with
       portsChanged := true, gained := x.gained.filter (fun k => k != b.port) ++ [b.port] })
     opDone p 0x4A b.target b.tag cOk 0
       (b2n (decide (1 < d.S) && halfOfPort b.port != (d.slice b.target).half)) 0 0 (openBuses b.port e)) := by
  have hother : d.owner b.port ≠ b.target := by omega
  simp [assignOp, Nat.not_le.2 hport, Nat.not_lt.2 hfree, htarget, Nat.not_le.2 htarget, hst, hother]

end

/-- Settles O22: each row passes its checks and carries out its operation, by the lemmas above. Success for a slice that already
quiesces is the model's choice of log entry 15; the image in one step, with EXPORT_SEQ before its count, that of log entry 18. -/
theorem sliceOperationRowsComplete : Obligations.SliceOperationRowsComplete := by
  refine ⟨?create, ?quiesce, ?quiesced, ?fence, ?fenceAll, ?freeze, ?rehome, ?thaw, ?exported, ?imported, ?reset, ?remove, ?assign⟩
  case create => exact fun s p b h hused hcode => runP_sliceOp h (by decide) (by decide) hused hcode rfl
  case quiesce => exact fun s p b h hused hcode hst => runP_sliceOp h (by decide) (by decide) hused hcode (quiesceOp_active hst)
  case quiesced => exact fun s p b h hused hcode hst => runP_sliceOp h (by decide) (by decide) hused hcode (quiesceOp_begun hst)
  case fence =>
    exact fun s p b h hused hone hcode => runP_managerOp h
      ((managerOp_permitted (by decide) (.inr rfl) hused (fun _ => hone) hcode []).trans (fenceOp_one hone))
  case fenceAll =>
    exact fun s p b h hused hall => runP_managerOp h ((managerOp_fenceAll hused hall [] s.dev).trans (fenceOp_all hall))
  case freeze => exact fun s p b h hused hcode => runP_sliceOp h (by decide) (by decide) hused hcode rfl
  case rehome => exact fun s p b h hused hcode hfits => runP_sliceOp h (by decide) (by decide) hused hcode (rehomeOp_fits hfits)
  case thaw => exact fun s p b h hused hcode => runP_sliceOp h (by decide) (by decide) hused hcode rfl
  case exported =>
    exact fun s p b f h hused hcode hdeferred hheld haddr hlen hlink =>
      runP_sliceOp h (by decide) (by decide) hused hcode (exportOp_fits hdeferred hheld haddr hlen hlink)
  case imported =>
    exact fun s p b image h hused hcode hlink hread hgood hbind =>
      runP_sliceOp h (by decide) (by decide) hused hcode (importOp_fits hlink hread hgood hbind)
  case reset => exact fun s p b h hused hcode => runP_sliceOp h (by decide) (by decide) hused hcode rfl
  case remove => exact fun s p b h hused hcode => runP_sliceOp h (by decide) (by decide) hused hcode rfl
  case assign =>
    exact fun s p b h hused hport hfree htarget hst _ =>
      runP_managerOp h.1 ((managerOp_assign h.2 hused []).trans (assignOp_unowned hport hfree htarget hst))

end Sys2Proof.Machine
end

section
/-! PROOFS. Starts, supplies and clocks. -/
namespace Sys2Proof.Machine

/-- A row after which power is allocated again ends in what its operation leaves. -/
theorem exec_nextPd_of_runP {i : Instr} {s : State} {f : Dev → Dev} {e : Dev} (hrow : exec i s = runP f s) (hleaves : f s.dev = e) :
    exec i s = .next (s.afterPd e) := by
  rw [hrow, runP_eq, hleaves]

section
variable {d : Dev}

/-! ### Ports ready, and failed starts (R388, R443, R447, R448) -/

/-- The check of step 6 has chosen a partition. -/
theorem portsReady_picked {okA okB calOk : Bool} {idents : List (PortId × BitVec 16)} {us : Dword} {part : Nat} {fallback : Bool} {e : Dev}
    (hhalf : d.start.half = none) (hstart : d.starting = true) (hpick : pickPart okA okB d = (some (part, fallback), e)) :
    portsReady okA okB calOk idents us d = reachReady part fallback calOk idents us e := by
  simp [portsReady, hhalf, hstart, hpick]

theorem pickPart_firstA (okB : Bool) (hfirst : d.firstPart = 0) : pickPart true okB d = (some (0, false), d) := by
  simp [pickPart, hfirst]

/-- Partition A fails its check and is marked, and B is the fallback. -/
theorem pickPart_fallbackB (hfirst : d.firstPart = 0) :
    pickPart false true d = (some (1, true), { d with flash := { d.flash with stA := 2 } }) := by
  simp [pickPart, hfirst, Flash.setSt]

theorem portsReady_half {h : HalfId} (hhalf : d.start.half = some h) (okA okB calOk : Bool) (idents : List (PortId × BitVec 16))
    (us : Dword) : portsReady okA okB calOk idents us d = halfReady h us d := by
  simp [portsReady, hhalf]

theorem startFailed_device (hhalf : d.start.half = none) (hstart : d.starting = true) (okA okB : Bool) (us : Dword) :
    startFailed okA okB us d = failStart okA okB us d := by
  simp [startFailed, hhalf, hstart]

theorem startFailed_half {h : HalfId} (hhalf : d.start.half = some h) (okA okB : Bool) (us : Dword) :
    startFailed okA okB us d = failHalf h us d := by
  simp [startFailed, hhalf]

/-! ### Beginning a start (R442, R445) -/

theorem beginCold_ready (h : d.canStart = true) (trig : Nat) : beginCold trig d = beginStart 1 trig d := if_pos h

theorem startCmd_idle (h : d.startBusy = false) (p : Path) (type trig : Nat) :
    startCmd p type trig d = beginStart type trig (accept p d) := by
  simp [startCmd, h]

theorem startCmd_busy (h : d.startBusy = true) (p : Path) (type trig : Nat) : startCmd p type trig d = refuse p cBusy 3 d := by
  simp [startCmd, h]

/-- A start that waits, with no trigger of its own, begins with the one given once its conditions hold. -/
theorem resumeStart_ready (hheld : (d.half 0).inReset = true) (hretry : d.start.retryDue = false) (hwait : d.start.waitTrigger = 0)
    (hcan : d.canStart = true) (trig : Nat) : resumeStart trig d = beginStart 1 trig d := by
  simp [resumeStart, hheld, hretry, hwait, beginCold_ready hcan]

/-! ### Supplies and clocks (R425, R430, R458) -/

theorem railFail_level0 (hgood : d.gesso.railsGood = true) (hlevel : d.gesso.level = 0) :
    railFail d = holdReset allGroups { d with gesso := { d.gesso with railsGood := false } } := by
  simp [railFail, hgood, hlevel]

theorem refclkLost_level0 {h : Nat} (hlevel : d.gesso.level = 0) (hclk : d.gesso.refclk = true) : refclkLost h d =
    (holdReset (allGroups.filter (fun g => g / 12 == h))
      (putRecord Config.refclkSeverity.toNat { c := Config.refclkCause.toNat, inst := h, half := h, unit := 7 }
        { d with gesso := { d.gesso with refclk := false } })).modHalf h (fun x => { x with clockLost := true }) := by
  simp [refclkLost, hlevel, hclk]

/-- The first supply of Gesso becomes good: nothing is retained, STOP_N goes low on every group and the halves are held. -/
theorem gessoPower_off (hvdd : d.gesso.vdd = false) (hvsrv : d.gesso.vsrv = false) (vsrv : Bool) (straps : BitVec 7) :
    gessoPower vsrv straps d = sampleNode (holdReset allGroups { d with
      start := { sCount := d.start.sCount, part := d.start.part }
      gesso := { vdd := !vsrv, vsrv := vsrv, clock := false, railsGood := false, resetN := d.gesso.resetN
                 forceSafeN := d.gesso.forceSafeN, refclk := d.gesso.refclk, calValid := false, straps := straps } }) := by
  simp [gessoPower, hvdd, hvsrv]

end

/-- Settles O30: each row is its operation's case, by the lemmas above. -/
theorem startRowsComplete : Obligations.StartRowsComplete := by
  refine ⟨?firstA, ?fallbackB, ?halfReady, ?failed, ?halfFailed, ?retry, fun _ => rfl, ?warm, ?cold, ?coldBusy, ?resetFall, ?resetRise,
    ?railFail, ?railsGood, ?clockStart, ?clockStop, ?refclkLoss, ?refclkReturn, ?supplyGood, fun _ => exec_nextPd_of_runP rfl rfl⟩
  case firstA =>
    exact fun s okB calOk idents us hhalf hstart hfirst =>
      exec_nextPd_of_runP rfl (portsReady_picked hhalf hstart (pickPart_firstA okB hfirst))
  case fallbackB =>
    exact fun s calOk idents us hhalf hstart hfirst =>
      exec_nextPd_of_runP rfl (portsReady_picked hhalf hstart (pickPart_fallbackB hfirst))
  case halfReady =>
    exact fun s okA okB calOk idents us h hhalf _ => exec_nextPd_of_runP rfl (portsReady_half hhalf okA okB calOk idents us)
  case failed =>
    exact fun s okA okB us hhalf hstart => exec_nextPd_of_runP rfl (startFailed_device hhalf hstart okA okB us)
  case halfFailed => exact fun s okA okB us h hhalf => exec_nextPd_of_runP rfl (startFailed_half hhalf okA okB us)
  case retry =>
    intro s hdue hlock hcan
    refine exec_nextPd_of_runP rfl ?_
    simp [hdue, hlock, beginCold_ready hcan]
  case warm => exact fun s p h hidle => exec_nextPd_of_runP rfl ((guarded_owned h _).trans (startCmd_idle hidle p 2 5))
  case cold => exact fun s p h hidle => exec_nextPd_of_runP rfl ((guarded_owned h _).trans (startCmd_idle hidle p 1 4))
  case coldBusy => exact fun s p h hbusy => exec_nextPd_of_runP rfl ((guarded_owned h _).trans (startCmd_busy hbusy p 1 4))
  case resetFall => exact fun s hhigh => exec_nextPd_of_runP rfl (if_pos hhigh)
  case resetRise =>
    intro s hlow hcan
    exact exec_nextPd_of_runP rfl ((if_neg (by simp [hlow])).trans (beginCold_ready hcan 2))
  case railFail => exact fun s hgood hlevel => exec_nextPd_of_runP rfl (railFail_level0 hgood hlevel)
  case railsGood =>
    intro s hlevel hheld hretry hwait hcan
    refine exec_nextPd_of_runP rfl ((if_neg (by simp [hlevel])).trans ?_)
    exact resumeStart_ready (d := { s.dev with gesso := { s.dev.gesso with railsGood := true } }) hheld hretry hwait hcan 1
  case clockStart => exact fun s hstopped hvdd => exec_nextPd_of_runP rfl (if_neg (by simp [hstopped, hvdd]))
  case clockStop => exact fun s hruns => exec_nextPd_of_runP rfl (if_neg (by simp [hruns]))
  case refclkLoss => exact fun s h hlevel hclk => exec_nextPd_of_runP rfl (refclkLost_level0 hlevel hclk)
  case refclkReturn =>
    intro s hlost hheld hretry hwait hcan
    refine exec_nextPd_of_runP rfl ((if_neg (by simp [hlost])).trans ?_)
    exact resumeStart_ready (d := { s.dev with gesso := { s.dev.gesso with refclk := true } }) hheld hretry hwait hcan 10
  case supplyGood => exact fun s vsrv straps hvdd hvsrv => exec_nextPd_of_runP rfl (gessoPower_off hvdd hvsrv vsrv straps)

end Sys2Proof.Machine
end

section
/-! PROOFS. The completion that goes to a completion queue: its PHASE bit, and what moving the queue's index leaves alone. -/
namespace Sys2Proof.Machine

/-! ### What writes and messages leave alone, and that they only add to what leaves the part -/

section
variable (n q : Nat) (d : Dev)

theorem Dev.modSlice_cq {g : Slice → Slice} (h : (g (d.slice n)).cqs = (d.slice n).cqs) : (d.modSlice n g).cq n q = d.cq n q := by
  simp [Dev.cq, Slice.cq, h]
@[simp] theorem Dev.modEng_cq (m : Nat) (g : SliceEng → SliceEng) : (d.modEng m g).cq n q = d.cq n q := rfl

@[simp] theorem issueWrite_slices (h f tag addr : Nat) (bytes : List Byte) (data : Bool) :
    (issueWrite n h f tag addr bytes data d).slices = d.slices := by
  rw [issueWrite, doIf]
  split <;> rfl
theorem issueWrite_cq (h f tag addr : Nat) (bytes : List Byte) (data : Bool) :
    (issueWrite n h f tag addr bytes data d).cq n q = d.cq n q := by simp [Dev.cq, Dev.slice]

/-- An issued write leaves the part through the slice's PASID, last of all. -/
theorem issueWrite_out (h f tag addr : Nat) (bytes : List Byte) :
    ∃ o, (issueWrite n h f tag addr bytes false d).out = .memWrite (toFunc f) (d.slice n).pasid addr bytes false :: o ∧
      d.out <:+ o := by
  rw [issueWrite, doIf]
  split
  · exact ⟨_, rfl, List.suffix_cons ..⟩
  · exact ⟨_, rfl, List.suffix_rfl⟩
theorem issueWrite_out_suffix (h f tag addr : Nat) (bytes : List Byte) : d.out <:+ (issueWrite n h f tag addr bytes false d).out := by
  obtain ⟨o, hout, hsuffix⟩ := issueWrite_out n d h f tag addr bytes
  rw [hout]
  exact hsuffix.trans (List.suffix_cons ..)
theorem issueWrite_mem_out (h f tag addr : Nat) (bytes : List Byte) :
    .memWrite (toFunc f) (d.slice n).pasid addr bytes false ∈ (issueWrite n h f tag addr bytes false d).out := by
  obtain ⟨o, hout, -⟩ := issueWrite_out n d h f tag addr bytes
  rw [hout]
  exact List.mem_cons_self ..

@[simp] theorem writeOn_slices (link : Option Nat) (h tag addr : Nat) (bytes : List Byte) :
    (writeOn link n h tag addr bytes d).slices = d.slices := by
  cases link
  · rfl
  · exact issueWrite_slices ..

/-- The CI write of a work queue changes the work queues alone of its slice. -/
theorem writeCiOn_slice (link : Option Nat) (w : Nat) : ∃ wqs, (writeCiOn link n w d).slice n = { d.slice n with wqs := wqs } := by
  unfold writeCiOn
  dsimp only
  rw [Dev.slice, writeOn_slices]
  exact ⟨_, Dev.modSlice_same ..⟩

@[simp] theorem countMissed_slices (c : Comp) : (countMissed n c d).slices = d.slices := by
  unfold countMissed
  split
  · split <;> rfl
  · rfl

/-- A message that waits is marked in its vector, which no completion queue holds. -/
@[simp] theorem sliceMessage_cq (p v : Nat) : (sliceMessage n p v d).cq n q = d.cq n q := by
  unfold sliceMessage
  dsimp only
  split
  · exact Dev.modSlice_cq n q d rfl
  · exact issueWrite_cq ..
theorem sliceMessage_out_suffix (p v : Nat) : d.out <:+ (sliceMessage n p v d).out := by
  unfold sliceMessage
  dsimp only
  split
  · exact List.suffix_rfl
  · exact issueWrite_out_suffix ..

/-- A fold of operations that only add to what leaves the part only adds to it. -/
theorem fold_out_suffix {α : Type} (l : List α) (f : Dev → α → Dev) (h : ∀ d a, d.out <:+ (f d a).out) :
    d.out <:+ (l.foldl f d).out := by
  induction l generalizing d with
  | nil => exact List.suffix_rfl
  | cons a r ih => exact (h d a).trans (ih (f d a))

@[simp] theorem releaseVectors_cq : (releaseVectors n d).cq n q = d.cq n q := by
  unfold releaseVectors
  refine fold_same (fun d => d.cq n q) _ _ d fun e v => ?_
  dsimp only
  split
  · exact (sliceMessage_cq ..).trans (Dev.modSlice_cq n q e rfl)
  · rfl
theorem releaseVectors_out_suffix : d.out <:+ (releaseVectors n d).out := by
  refine fold_out_suffix d _ _ fun e v => ?_
  dsimp only
  split
  · exact sliceMessage_out_suffix n (e.modSlice n _) _ _
  · exact List.suffix_rfl

@[simp] theorem cqMessage_cq : (cqMessage n q d).cq n q = { d.cq n q with armed := false, cnt := 0, modRun := false } := by
  simp [cqMessage]
theorem cqMessage_out_suffix : d.out <:+ (cqMessage n q d).out :=
  sliceMessage_out_suffix n (d.modCq n q _) _ _

end

/-! ### A completion is placed (R60, R74, R76) -/

/-- A completion that the other half made due crosses as a CTRL message (R233). -/
def announceComp (n q : Nat) (c : Comp) (d : Dev) : Dev :=
  doIf (d.compCrosses n q c) (emit (.sinopiaCtrl (toHalf (d.compHalf n q c)) (.completion (toSlice n) q c.dws c.irq))) d

/-- The CI write that covers the work entry of a completion goes before it on its link (R53). -/
def coverEntry (n f : Nat) (c : Comp) (d : Dev) : Dev :=
  match c.wqOf with
  | some w => if (d.wq n w).ciDirty || (d.wq n w).ciF != some f then writeCiOn (some f) n w d else d
  | none => d

/-- The address of the slot of a queue's PI (R57). -/
def CQ.slotAddr (c : CQ) : Nat := c.base.toNat + 32 * (c.pi.toNat % c.size)

/-- The words of a completion with the PHASE of a queue's PI (R60, R80). -/
def CQ.phased (cq : CQ) (dws : List Dword) : List Dword := dws.take 7 ++ [if bitOf cq.pi cq.sizeLog then 0 else 0x80000000]

/-- The completion c written to the slot of the queue's PI. -/
def writeComp (n q f : Nat) (c : Comp) (d : Dev) : Dev :=
  issueWrite n (d.cqHalf n q) f 0 (d.cq n q).slotAddr (dwBytes ((d.cq n q).phased c.dws)) false (countMissed n c d)

/-- The queue's PI past a completion of link f that lies at an address. -/
def advancePi (n q f addr : Nat) (d : Dev) : Dev :=
  (d.modCq n q (fun c => { c with
    pi := c.pi + 1, lastF := some f, lastAddr := addr, flush := 0, cnt := c.cnt + 1
    modRun := c.modRun || (c.lc.modTime != 0) })).modEng n (fun x => { x with linkInUse := f })

/-- Moderation after a completion: the messages that a change of link releases, and the queue's own (R41, R76). -/
def moderate (n q : Nat) (changed irq : Bool) (d : Dev) : Dev :=
  let d := doIf changed (releaseVectors n) d
  if (d.cq n q).armed && (irq || max 1 (d.cq n q).lc.modCount.toNat ≤ (d.cq n q).cnt) then cqMessage n q d else d

theorem placeComp_eq (n q f : Nat) (c : Comp) (d : Dev) : placeComp n q f c d =
    (let e := coverEntry n f c (announceComp n q c d)
     moderate n q ((e.cq n q).lastF != some f) c.irq (advancePi n q f (e.cq n q).slotAddr (writeComp n q f c e))) := by
  have hphase (b : Bool) : (if (!b) = true then (0x80000000 : Dword) else 0) = if b = true then 0 else 0x80000000 := by cases b <;> rfl
  unfold placeComp
  dsimp only
  rw [hphase]
  rfl

section
variable (n q f : Nat) (c : Comp) (d : Dev)

@[simp] theorem announceComp_slices : (announceComp n q c d).slices = d.slices := by
  unfold announceComp doIf
  split <;> rfl
@[simp] theorem announceComp_slice (m : Nat) : (announceComp n q c d).slice m = d.slice m := by simp [Dev.slice]
@[simp] theorem announceComp_cq : (announceComp n q c d).cq n q = d.cq n q := by simp [Dev.cq]
theorem coverEntry_slice : ∃ wqs, (coverEntry n f c d).slice n = { d.slice n with wqs := wqs } := by
  unfold coverEntry
  split
  · split
    · exact writeCiOn_slice ..
    · exact ⟨_, rfl⟩
  · exact ⟨_, rfl⟩
@[simp] theorem coverEntry_cq : (coverEntry n f c d).cq n q = d.cq n q := by
  obtain ⟨wqs, h⟩ := coverEntry_slice n f c d
  rw [Dev.cq, h]
  rfl
@[simp] theorem coverEntry_pasid : ((coverEntry n f c d).slice n).pasid = (d.slice n).pasid := by
  obtain ⟨wqs, h⟩ := coverEntry_slice n f c d
  rw [h]

@[simp] theorem writeComp_cq : (writeComp n q f c d).cq n q = d.cq n q := by simp [writeComp, Dev.cq, Dev.slice]
theorem writeComp_mem_out : .memWrite (toFunc f) (d.slice n).pasid (d.cq n q).slotAddr (dwBytes ((d.cq n q).phased c.dws)) false ∈
    (writeComp n q f c d).out := by
  have hpasid : ((countMissed n c d).slice n).pasid = (d.slice n).pasid := by simp [Dev.slice]
  rw [← hpasid]
  exact issueWrite_mem_out ..

@[simp] theorem advancePi_out (addr : Nat) : (advancePi n q f addr d).out = d.out := rfl
@[simp] theorem advancePi_pi (addr : Nat) : ((advancePi n q f addr d).cq n q).pi = (d.cq n q).pi + 1 := by simp [advancePi]

@[simp] theorem moderate_pi (changed irq : Bool) : ((moderate n q changed irq d).cq n q).pi = (d.cq n q).pi := by
  unfold moderate doIf
  dsimp only
  split_ifs <;> simp
theorem moderate_out_suffix (changed irq : Bool) : d.out <:+ (moderate n q changed irq d).out := by
  have hreleased : d.out <:+ (doIf changed (releaseVectors n) d).out := by
    unfold doIf
    split
    · exact releaseVectors_out_suffix ..
    · exact List.suffix_rfl
  unfold moderate
  dsimp only
  split
  · exact hreleased.trans (cqMessage_out_suffix ..)
  · exact hreleased

theorem placeComp_pi : ((placeComp n q f c d).cq n q).pi = (d.cq n q).pi + 1 := by simp [placeComp_eq]
theorem placeComp_mem_out : .memWrite (toFunc f) (d.slice n).pasid (d.cq n q).slotAddr (dwBytes ((d.cq n q).phased c.dws)) false ∈
    (placeComp n q f c d).out := by
  rw [placeComp_eq]
  refine (moderate_out_suffix ..).mem ?_
  simpa using writeComp_mem_out n q f c (coverEntry n f c (announceComp n q c d))

end

/-- Adding 2 ^ k inverts bit k, across the wrap of the index too. -/
theorem bitOf_add_twoPow (pi : Dword) {k : Nat} (hk : k < 32) : bitOf (pi + BitVec.ofNat 32 (2 ^ k)) k = !(bitOf pi k) := by
  have hpow : 2 ^ k % 2 ^ 32 = 2 ^ k := Nat.mod_eq_of_lt (Nat.pow_lt_pow_right (by decide) hk)
  simp only [bitOf, BitVec.getLsbD, BitVec.toNat_add, BitVec.toNat_ofNat, hpow, Nat.testBit_mod_two_pow, hk, decide_true, Bool.true_and]
  rw [Nat.add_comm, Nat.testBit_two_pow_add_eq]

/-- Settles O32: the slot of PI is written with the PHASE of PI, and a lap adds 2 ^ k to the index. -/
theorem completionPhase : Obligations.CompletionPhase :=
  ⟨fun n q f c d => ⟨placeComp_mem_out n q f c d, placeComp_pi n q f c d⟩, fun pi _ hk => bitOf_add_twoPow pi hk⟩

end Sys2Proof.Machine
end

section
/-! PROOFS. Doorbells and pushes, served or counted as ignored, and Q_SELECT. -/
namespace Sys2Proof.Machine

/-- A row of a slice's page acts on the page that the function shows. -/
theorem exec_next_of_shown {i : Instr} {s : State} {f n : Nat} {g : Dev → Dev} {e : Dev} (hshows : s.dev.shows f n = true)
    (hrow : exec i s = run (fun d => if d.shows f n then g d else d) s) (hleaves : g s.dev = e) : exec i s = .next (s.after e) :=
  exec_next_of_run hrow ((if_pos hshows).trans hleaves)

/-- On a page that the function does not show it changes nothing. -/
theorem exec_next_of_hidden {i : Instr} {s : State} {f n : Nat} {g : Dev → Dev} (hhidden : s.dev.shows f n = false)
    (hrow : exec i s = run (fun d => if d.shows f n then g d else d) s) : exec i s = .next (s.after s.dev) :=
  exec_next_of_run hrow (if_neg (by simp [hhidden]))

/-! ### The doorbell of a work queue (R56, R65) -/

section
variable {n q : Nat} {d : Dev}

theorem doorbellWq_served (hshare : q < d.share) (hslice : (d.slice n).st = .active) (hwq : (d.wq n q).st = .active) :
    doorbellWq n q d = ringWq n q d := by
  simp [doorbellWq, Slice.accepts, hslice, hwq, Nat.not_le.2 hshare]

theorem doorbellWq_ignored (h : d.share ≤ q ∨ (d.slice n).st ≠ .active ∨ (d.wq n q).st ≠ .active) :
    doorbellWq n q d = dbIgnored n d := by
  refine if_pos ?_
  simpa [Slice.accepts, or_assoc] using h

theorem ringWq_idle (h : (d.wq n q).piOut = false) : ringWq n q d = readPi n q d := if_neg (by simp [h])
theorem ringWq_reading (h : (d.wq n q).piOut = true) : ringWq n q d = d.modWq n q (fun w => { w with piAgain := true }) := if_pos h

end

/-! ### The doorbell of an endpoint (R56, R110) -/

section
variable {n : Nat} {v : Qword} {d : Dev}

theorem epRing_accepted (h : d.epAccepts n (bitsOf v 12 0) (bitsOf v 20 16) (bitsOf v 40 32) = true) :
    epRing n v d = ringEp n (bitsOf v 12 0) (bitsOf v 20 16) (bitsOf v 40 32) d := if_pos h
theorem epRing_ignored (h : d.epAccepts n (bitsOf v 12 0) (bitsOf v 20 16) (bitsOf v 40 32) = false) : epRing n v d = dbIgnored n d :=
  if_neg (by simp [h])

/-- A push on an endpoint that takes no doorbell becomes the doorbell (R70). -/
theorem pushEp_refused {e : List Dword}
    (h : d.epAccepts n (bitsOf (qwAt e 8) 12 0) (bitsOf (qwAt e 8) 20 16) (bitsOf (qwAt e 8) 40 32) = false) :
    pushEp n e d = epRing n (qwAt e 8) (d.modSlice n (fun x => { x with pushFallback := x.pushFallback + 1 })) := by
  simp [pushEp, h]

end

/-! ### The doorbell of a completion queue (R56, R59, R77) -/

section
variable {n : Nat} {v : Qword} {d : Dev}

/-- A served doorbell asks only whether CI lies within the queue. -/
theorem cqRing_served (hshare : bitsOf v 43 32 < d.share) (hslice : (d.slice n).st = .active)
    (hcq : (d.cq n (bitsOf v 43 32)).st = .active) :
    cqRing n v d =
      (let q := bitsOf v 43 32
       let ci := w32 (bitsOf v 31 0)
       if (d.cq n q).size < ((d.cq n q).pi - ci).toNat then
         d.modCq n q (fun c => { c with st := .error, errCode := 0x14, errIndex := ci, ci := ci, armPend := c.armPend || bitOf v 48 })
       else
         let e := d.modCq n q (fun c => { c with ci := ci, armed := c.armed || bitOf v 48 })
         spaceBack n q (if bitOf v 48 && (d.cq n q).pi != ci then cqMessage n q e else e)) := by
  have hserved : (decide (d.share ≤ bitsOf v 43 32) || !(d.slice n).accepts || (d.cq n (bitsOf v 43 32)).st == .disabled ||
      (d.cq n (bitsOf v 43 32)).st == .stopped) = false := by
    simp [Slice.accepts, hslice, hcq, hshare]
  have hactive : ((d.cq n (bitsOf v 43 32)).st == .error) = false := by simp [hcq]
  simp only [cqRing, hserved, hactive]
  rfl

end

/-! ### A push on a work queue (R69) -/

/-- The conditions of R69 under which a push of SEQ seq in slot k is taken. -/
structure WqTakesPush (n q k : Nat) (seq : Dword) (d : Dev) : Prop where
  slice : (d.slice n).st = .active
  share : q < d.share
  enabled : (d.wq n q).lc.pushEn = true
  active : (d.wq n q).st = .active
  sound : (d.wq n q).errPend = none
  next : seq = (d.wq n q).lim
  slot : k = seq.toNat % 4
  pushes : ((d.wq n q).held.filter (fun x => x.pushed)).length < 4
  window : (d.wq n q).window < 8
  room : (seq + 1 - (d.wq n q).ci).toNat ≤ (d.wq n q).size

section
variable {n q k : Nat} {e : List Dword} {d : Dev}

theorem pushWq_taken (h : WqTakesPush n q k (dwAt e 3) d) : pushWq n q k e d =
    fetchWq n q (takeEntry n q (dwAt e 3) true e (d.modWq n q (fun w => { w with
      lim := dwAt e 3 + 1, f := if w.f = dwAt e 3 then dwAt e 3 + 1 else w.f }))) := by
  obtain ⟨hslice, hshare, hen, hactive, hsound, hnext, hslot, hpushes, hwindow, hroom⟩ := h
  simp only [pushWq]
  refine (if_pos ?_).trans ?_
  · simpa [Slice.accepts, hslice, hshare, hen, hactive, hsound, ← hnext, ← hslot, hpushes, hwindow] using hroom
  · simp

/-- A push out of order, beyond the window, or without PUSH_EN becomes the doorbell. -/
theorem pushWq_refused (h : (d.wq n q).lc.pushEn = false ∨ dwAt e 3 ≠ (d.wq n q).lim ∨ 8 ≤ (d.wq n q).window) : pushWq n q k e d =
    doorbellWq n q (d.modSlice n (fun x => { x with pushFallback := x.pushFallback + 1 })) := by
  simp only [pushWq]
  refine if_neg fun hok => ?_
  simp only [Bool.and_eq_true, decide_eq_true_eq, beq_iff_eq] at hok
  obtain ⟨⟨⟨⟨⟨⟨⟨⟨⟨-, -⟩, hen⟩, -⟩, -⟩, hnext⟩, -⟩, -⟩, hwindow⟩, -⟩ := hok
  rcases h with h | h | h
  · simp [h] at hen
  · exact h hnext
  · omega

end

/-- Settles O8: each row is its operation's case, by the lemmas above. -/
theorem doorbellRowsComplete : Obligations.DoorbellRowsComplete := by
  refine ⟨?wqRead, ?wqReading, ?wqIgnored, ?ep, ?epIgnored, ?cqOutside, ?cqTaken, ?cqMessage, ?push, ?pushFallback, ?epFallback, ?select,
    ?hidden⟩
  case wqRead =>
    exact fun s f n v hshows hshare hslice hwq hidle =>
      exec_next_of_shown hshows rfl ((doorbellWq_served hshare hslice hwq).trans (ringWq_idle hidle))
  case wqReading =>
    exact fun s f n v hshows hshare hslice hwq hreading =>
      exec_next_of_shown hshows rfl ((doorbellWq_served hshare hslice hwq).trans (ringWq_reading hreading))
  case wqIgnored => exact fun s f n v hshows hnot => exec_next_of_shown hshows rfl (doorbellWq_ignored hnot)
  case ep => exact fun s f n v hshows haccepts => exec_next_of_shown hshows rfl (epRing_accepted haccepts)
  case epIgnored => exact fun s f n v hshows hnot => exec_next_of_shown hshows rfl (epRing_ignored hnot)
  case cqOutside =>
    exact fun s f n v hshows hshare hslice hcq hout =>
      exec_next_of_shown hshows rfl ((cqRing_served hshare hslice hcq).trans (if_pos hout))
  case cqTaken =>
    intro s f n v hshows hshare hslice hcq hin hquiet
    have hnone : (bitOf v 48 && (s.dev.cq n (bitsOf v 43 32)).pi != w32 (bitsOf v 31 0)) = false := by
      rcases hquiet with h | h <;> simp [h]
    refine exec_next_of_shown hshows rfl ((cqRing_served hshare hslice hcq).trans ((if_neg (Nat.not_lt.2 hin)).trans ?_))
    simp only [hnone]
    rfl
  case cqMessage =>
    intro s f n v hshows hshare hslice hcq hin harm hnew
    refine exec_next_of_shown hshows rfl ((cqRing_served hshare hslice hcq).trans ((if_neg (Nat.not_lt.2 hin)).trans ?_))
    simp [harm, hnew]
  case push =>
    intro s f n q k e hshows hlen hslice hshare hen hactive hsound hnext hslot hpushes hwindow hroom
    refine exec_next_of_shown (g := pushWq n q k (e.take 16)) hshows rfl ?_
    rw [List.take_of_length_le hlen.le]
    exact pushWq_taken ⟨hslice, hshare, hen, hactive, hsound, hnext, hslot, hpushes, hwindow, hroom⟩
  case pushFallback =>
    intro s f n q k e hshows hlen hnot
    refine exec_next_of_shown (g := pushWq n q k (e.take 16)) hshows rfl ?_
    rw [List.take_of_length_le hlen.le]
    exact pushWq_refused hnot
  case epFallback => exact fun s f n e hshows hnot => exec_next_of_shown hshows rfl (pushEp_refused hnot)
  case select => exact fun s f n v hshows => exec_next_of_shown hshows rfl rfl
  case hidden =>
    intro s f n v u q k e hhidden
    refine ⟨?_, ?_, ?_, ?_, ?_, ?_⟩
    all_goals exact exec_next_of_hidden hhidden rfl

end Sys2Proof.Machine
end

section
/-! PROOFS. Reads of a work queue, arbitration turns and queue timers. -/
namespace Sys2Proof.Machine

/-! ### Returned reads (R239, R481) -/

theorem onRead_some {n : Nat} {r : ReadRef} {x : HRead} {d : Dev} (h : d.readOut n r = some x) (f : HRead → Dev → Dev) :
    onRead n r f d = if x.dead then returned n x d else f x (returned n x d) := by
  rw [onRead, h]

/-- A read that is not outstanding answers nothing. -/
theorem onRead_none {n : Nat} {r : ReadRef} {d : Dev} (h : d.readOut n r = none) (f : HRead → Dev → Dev) : onRead n r f d = d := by
  rw [onRead, h]

/-! ### Arbitration (R72) -/

/-- The numbers of the slice's work queues. -/
def Dev.wqNums (d : Dev) (n : Nat) : List Nat := (d.slice n).wqs.map (fun x => x.1)

/-- Queue q takes its turn: a run of entries starts, one turn is used, and the queue fetches on. -/
def takeTurn (n q : Nat) (d : Dev) : Dev :=
  fetchWq n q (((startRun n q ((d.wq n q).lc.burst.toNat + 1) d).modWq n q (fun w => { w with turns := w.turns - 1 })).modSlice n
    (fun x => { x with lastWq := q }))

theorem wqTurn_none {n : Nat} {d : Dev} (h : (d.wqNums n).any (fun q => d.startable n q) = false) : wqTurn n d = d := by
  unfold wqTurn
  exact if_pos (by simpa [Dev.wqNums] using h)

/-- While some startable queue has turns left, the next such queue in visiting order takes one; those before it forfeit theirs. -/
theorem wqTurn_taken {n q : Nat} {d : Dev} (hleft : (d.wqNums n).any (fun q => d.startable n q && (d.wq n q).turns != 0) = true)
    (hnext : (visitOrder (d.slice n).lastWq (d.wqNums n)).find? (fun q => d.startable n q &&
      ((forfeitTo n (fun q => d.startable n q) (visitOrder (d.slice n).lastWq (d.wqNums n)) d).wq n q).turns != 0) = some q) :
    wqTurn n d = takeTurn n q (forfeitTo n (fun q => d.startable n q) (visitOrder (d.slice n).lastWq (d.wqNums n)) d) := by
  have hready : (d.wqNums n).any (fun q => d.startable n q) = true := by
    obtain ⟨q, hq, hturn⟩ := List.any_eq_true.1 hleft
    exact List.any_eq_true.2 ⟨q, hq, (Bool.and_eq_true_iff.1 hturn).1⟩
  unfold Dev.wqNums at hready hleft hnext ⊢
  unfold wqTurn
  simp only [hready, hleft, Bool.not_true, Bool.false_eq_true, if_false, if_true, hnext]
  rfl

/-- Settles O9: each row is its operation's case, by the lemmas above. -/
theorem queueRowsComplete : Obligations.QueueRowsComplete := by
  refine ⟨?pi, ?entries, ?notOut, ?turn, ?noTurn, ?modTime, ?ciWrite⟩
  case pi => exact fun s n wq pi x hout => exec_next_of_run rfl (onRead_some hout _)
  case entries => exact fun s n wq data x hout => exec_next_of_run rfl (onRead_some hout _)
  case notOut =>
    exact fun s n wq pi data hpi hwork => ⟨exec_next_of_run rfl (onRead_none hpi _), exec_next_of_run rfl (onRead_none hwork _)⟩
  case turn => exact fun s n q hleft hnext => exec_next_of_run rfl (wqTurn_taken hleft hnext)
  case noTurn => exact fun s n hnone => exec_next_of_run rfl (wqTurn_none hnone)
  case modTime => exact fun s n cq harmed hrun => exec_next_of_run rfl (if_pos (by simp [harmed, hrun]))
  case ciWrite => exact fun s n wq hdirty => exec_next_of_run rfl (if_pos hdirty)

end Sys2Proof.Machine
end

section
/-! PROOFS. NOP and the opcodes on devices, on an executing entry. -/
namespace Sys2Proof.Machine

/-! ### The entry that a row names (R85, R93) -/

section
variable {s : State} {n q op : Nat} {i : Dword} {e : WEnt}

theorem onEntry_executes (h : s.Executes n q i op e) (f : List Dword → Dev → Dev) : onEntry op n q i f s.dev = f e.dws s.dev := by
  obtain ⟨hent, hop, hphase⟩ := h
  simp [onEntry, hent, hop, hphase]

/-- An opcode on a handle acts once the contexts of its handle and endpoint are in use. -/
theorem onHandle_executes (h : s.Executes n q i op e) (f : List Dword → Dev → Dev) :
    onHandle op n q i f s.dev = f e.dws (s.withCtx n e) := onEntry_executes h _

end

section
variable {n q : Nat} {i : Dword} {e : List Dword} {d : Dev}

/-! ### OPEN_DEVICE (R94) -/

theorem openAct_fits (h : openCode n e d = 0) : openAct n q i e d =
    hostRead n (d.wqHalf n q) ((qwAt e 4).toNat + 64) 64 (.struct q i) (waitEnt n q i 1 0 d) := by
  simp [openAct, h]
theorem openAct_refused (h : openCode n e d ≠ 0) : openAct n q i e d = finishWe n q i (openCode n e d) {} d := by
  simp [openAct, h]

/-! ### ASSIGN_ADDRESS (R95) -/

/-- The transfer that carries SET_ADDRESS a for entry i of queue q, with what the half gave it. -/
def setAddress (q : Nat) (i : Dword) (a half gen uid : Nat) : Xfer :=
  { first := 0, last := 0, control := true, assign := some (q, i, a), stage := 1, half := half, gen := gen, uid := uid
    setup := [0x00, 0x05, BitVec.ofNat 8 a, 0, 0, 0, 0, 0] }

/-- A Default handle with an idle endpoint 1 and a free address on its port gets SET_ADDRESS. -/
theorem assignAct_fits {a : Nat} (hcode : d.handleCode n (weHandle e) = 0) (hst : (d.handle n (weHandle e)).st = .default)
    (hidle : ((d.handle n (weHandle e)).ep 1).xfer = none) (hrun : ((d.handle n (weHandle e)).ep 1).st = .running)
    (hheld : (((d.handle n (weHandle e)).ep 1).ring 0).held = []) (hfree : d.freeAddr n (d.handle n (weHandle e)).port = some a) :
    assignAct n q i e d =
      (let hf := d.epHalf n (weHandle e)
       let gen := (d.half hf).pickUnit 0
       let nt := newTag n (genAdd hf gen true d)
       waitEnt n q i 2 a (nt.2.modEp n (weHandle e) 1 (fun y => { y with xfer := some (setAddress q i a hf gen nt.1) }))) := by
  simp [assignAct, hcode, hst, hidle, hrun, hheld, hfree, setAddress]

theorem assignEnd_addressed {w : WEnt} (hent : d.execEnt n q i = some w) (hop : weOp w.dws = 0x03) (hphase : w.phase = 3) :
    assignEnd n q i d = finishWe n q i cOk { r0 := w.aux } (writeHeader n (weHandle w.dws)
      (d.modHandle n (weHandle w.dws) (fun x => { x with st := .addressed, addr := w.aux }))) := by
  simp [assignEnd, hent, hop, hphase]

/-! ### UPDATE_DEVICE (R96) -/

theorem updateAct_open (h : d.handleCode n (weHandle e) = 0) : updateAct n q i e d =
    hostRead n (d.wqHalf n q) (qwAt e 4).toNat 64 (.struct q i) (waitEnt n q i 1 0 d) := by
  simp [updateAct, h]
theorem updateAct_refused (h : d.handleCode n (weHandle e) ≠ 0) : updateAct n q i e d =
    finishWe n q i (d.handleCode n (weHandle e)) {} d := by
  simp [updateAct, h]

/-- The fields of a handle that the flags of an UPDATE_DEVICE input name, each group at once. -/
def Handle.updated (x : Handle) (c : List Dword) : Handle :=
  { x with
    ep0Mps := if bitOf (dwAt c 0) 0 then bitsOf (dwAt c 1) 10 0 else x.ep0Mps
    isHub := if bitOf (dwAt c 0) 1 then bitOf (dwAt c 2) 0 else x.isHub
    hubMultiTt := if bitOf (dwAt c 0) 1 then bitOf (dwAt c 2) 1 else x.hubMultiTt
    ttThink := if bitOf (dwAt c 0) 1 then bitsOf (dwAt c 2) 3 2 else x.ttThink
    hubPorts := if bitOf (dwAt c 0) 1 then bitsOf (dwAt c 2) 11 4 else x.hubPorts
    besl := if bitOf (dwAt c 0) 2 then bitsOf (dwAt c 3) 3 0 else x.besl
    beslValid := if bitOf (dwAt c 0) 2 then bitOf (dwAt c 3) 4 else x.beslValid }

theorem updateRead_fits {data : List Dword} (hcode : d.handleCode n (weHandle e) = 0)
    (hgood : updateBad n (weHandle e) (data.take 16) d = none) (hidle : (d.ep n (weHandle e) 1).xfer = none) :
    updateRead n q i e data d = finishWe n q i cOk {} (d.modHandle n (weHandle e) (fun x => x.updated (data.take 16))) := by
  simp [updateRead, hcode, hgood, hidle, Handle.updated]

/-! ### CLOSE_DEVICE (R97) -/

theorem closeAct_open (hst : (d.handle n (weHandle e)).st ≠ .closed) (hbelow : d.hasBelow n (weHandle e) = false) :
    closeAct n q i e d = stopFor n q i (weHandle e) (d.handle n (weHandle e)).live d := by
  simp [closeAct, hst, hbelow]
theorem closeAct_closed (h : (d.handle n (weHandle e)).st = .closed) : closeAct n q i e d = finishWe n q i cNotPermitted {} d := by
  simp [closeAct, h]

/-! ### The read of an entry's structure (R484) -/

/-- The device once the read x of an entry's structure has returned: the writes before it are confirmed, and the entry's other reads
are done. -/
def structBack (n q : Nat) (i : Dword) (x : HRead) (d : Dev) : Dev :=
  releaseDue n (structReads n (fun y => y == .struct q i) (confirmBy x n d))

/-- What a structure does to the entry w that waits for it. -/
def structAct (n q : Nat) (i : Dword) (w : WEnt) (data : List Dword) (d : Dev) : Dev :=
  if weOp w.dws = 0x02 then carves n (openRead n q i w.dws data d)
  else if weOp w.dws = 0x04 then updateRead n q i w.dws data d
  else if weOp w.dws = 0x08 then carves n (admitRead n q i w.dws data d)
  else d

theorem structAct_open {w : WEnt} (h : weOp w.dws = 0x02) (data : List Dword) :
    structAct n q i w data d = carves n (openRead n q i w.dws data d) := if_pos h
theorem structAct_update {w : WEnt} (h : weOp w.dws = 0x04) (data : List Dword) :
    structAct n q i w data d = updateRead n q i w.dws data d := by
  simp [structAct, h]
theorem structAct_admit {w : WEnt} (h : weOp w.dws = 0x08) (data : List Dword) :
    structAct n q i w data d = carves n (admitRead n q i w.dws data d) := by
  simp [structAct, h]

theorem structArrived_waited {x : HRead} {w : WEnt} (hout : d.readOut n (.struct q i) = some x)
    (hent : (structBack n q i x d).execEnt n q i = some w) (hphase : w.phase = 1) (data : List Dword) :
    structArrived n q i data d = structAct n q i w data (structBack n q i x d) := by
  unfold structBack at hent
  simp only [structArrived, hout, hent, hphase]
  rfl
theorem structArrived_notOut (h : d.readOut n (.struct q i) = none) (data : List Dword) : structArrived n q i data d = d := by
  rw [structArrived, h]

end

/-- Settles O12: each row is its operation's case, by the lemmas above. -/
theorem deviceRowsComplete : Obligations.DeviceRowsComplete := by
  refine ⟨?nop, ?opened, ?openRefused, ?assign, ?assignEnd, ?update, ?updateRefused, ?close, ?closed, ?struct, ?notOut⟩
  case nop => exact fun s n q i e h => exec_next_of_run rfl (onEntry_executes h _)
  case opened =>
    exact fun s n q i e h hcode => exec_next_of_run rfl (congrArg (carves n) ((onEntry_executes h _).trans (openAct_fits hcode)))
  case openRefused =>
    exact fun s n q i e h hcode => exec_next_of_run rfl (congrArg (carves n) ((onEntry_executes h _).trans (openAct_refused hcode)))
  case assign =>
    exact fun s n q i e a h hcode hst hidle hrun hheld hfree =>
      exec_next_of_run rfl ((onHandle_executes h _).trans (assignAct_fits hcode hst hidle hrun hheld hfree))
  case assignEnd => exact fun s n q i e hent hop hphase => exec_next_of_run rfl (assignEnd_addressed hent hop hphase)
  case update => exact fun s n q i e h hcode => exec_next_of_run rfl ((onHandle_executes h _).trans (updateAct_open hcode))
  case updateRefused =>
    exact fun s n q i e h hcode => exec_next_of_run rfl ((onHandle_executes h _).trans (updateAct_refused hcode))
  case close =>
    exact fun s n q i e h hst hbelow => exec_next_of_run rfl ((onHandle_executes h _).trans (closeAct_open hst hbelow))
  case closed => exact fun s n q i e h hst => exec_next_of_run rfl ((onHandle_executes h _).trans (closeAct_closed hst))
  case struct =>
    intro s n q i data x e hout d hent hphase
    have harrived := structArrived_waited hout hent hphase data
    exact ⟨fun hop => exec_next_of_run rfl (harrived.trans (structAct_open hop data)),
      fun hop => exec_next_of_run rfl (harrived.trans (structAct_admit hop data)),
      fun hop hcode hgood hidle =>
        exec_next_of_run rfl (harrived.trans ((structAct_update hop data).trans (updateRead_fits hcode hgood hidle)))⟩
  case notOut => exact fun s n q i data hout => exec_next_of_run rfl (structArrived_notOut hout data)

end Sys2Proof.Machine
end

section
/-! PROOFS. Host reads of rings, contexts and data, confirm and flush reads, and completion timeouts. -/
namespace Sys2Proof.Machine

section
variable {n : Nat} {d : Dev} {x : HRead}

/-! ### The read that a completion answers (R219, R239, R481) -/

theorem readOut_ref {r : ReadRef} (h : d.readOut n r = some x) : x.r = r := by
  simpa using List.find?_some h

/-- Data of the read's own length needs neither cutting nor padding. -/
theorem dataCompleted_full {h ep st off : Nat} {bytes : List Byte} (hout : d.dataRead n h ep st off = some x)
    (hlen : bytes.length = x.len) (bad : Nat) : dataCompleted n h ep st off bytes bad d =
      if x.dead then returned n x d else goStop n h ep (resumeEp n h ep (dataArrived n h ep off bytes bad x (returned n x d))) := by
  simp [dataCompleted, hout, padTo, ← hlen]

/-- Every failure but that of a result area's write, which is no read, answers an outstanding read. -/
theorem hostFailed_read {r : ReadRef} (h : ∀ q i, r ≠ .result q i) : hostFailed n r d = onRead n r (readFailed n) d := by
  cases r with
  | result q i => exact absurd rfl (h q i)
  | _ => rfl

theorem readFailed_pi {q : Nat} (h : x.r = .pi q) : readFailed n x d = wqReadFailed n q true x.off d := by
  simp [readFailed, h]

/-! ### Completion timeouts (R239, R481) -/

theorem timedOut_none {r : ReadRef} (h : d.readOut n r = none) : timedOut n r d = d := by
  rw [timedOut, h]

theorem timedOut_confirm {f : FuncId} (h : d.readOut n (.confirm f) = some x) : timedOut n (.confirm f) d =
    (let d := raise { c := 69, inst := f, slice := n, half := halfOfFunc f } (d.modEng n (fun e => { e with reads := e.reads.erase x }))
     loseLink n x.f { d with sinopia := { d.sinopia with flushFailures := d.sinopia.flushFailures + 1 } }) := by
  simp [timedOut, h]

theorem timedOut_pi {q : Nat} (h : d.readOut n (.pi q) = some x) : timedOut n (.pi q) d = releaseDue n
    (let d := d.modEng n (fun e => { e with reads := e.reads.erase x })
     if x.dead then d else wqReadFailed n q true x.off d) := by
  simp [timedOut, h, readFailed_pi (readOut_ref h)]

/-! ### Confirm and flush reads (R225, R239, R240) -/

theorem toFunc_val (f : FuncId) : toFunc f.val = f := Fin.ext (Nat.mod_eq_of_lt f.isLt)

/-- A link whose last unconfirmed write no outstanding read will confirm gets a read of that write's address. -/
theorem confirmIssue_unconfirmed {f : FuncId} {w : HWrite}
    (hlast : ((d.eng n).unconf.filter (fun w => w.f == f.val && !w.wait)).getLast? = some w)
    (hnone : (d.eng n).reads.any (fun r => r.f == f.val && decide (w.id < r.mark)) = false) :
    confirmIssue n f d = issueRead n w.half f w.addr 0 0 0 (.confirm f) d := by
  simp [confirmIssue, hlast, hnone, toFunc_val]

/-- A confirm or a flush read. -/
def HRead.isConfirmOrFlush (x : HRead) : Bool :=
  match x.r with
  | .confirm _ => true
  | .flush _ => true
  | _ => false

theorem isConfirmOrFlush_of_confirm {g : FuncId} (h : x.r = .confirm g) : x.isConfirmOrFlush = true := by
  simp [HRead.isConfirmOrFlush, h]
theorem isConfirmOrFlush_of_flush {q : Nat} (h : x.r = .flush q) : x.isConfirmOrFlush = true := by
  simp [HRead.isConfirmOrFlush, h]
theorem isConfirmOrFlush_of_neither (h : (∀ g, x.r ≠ .confirm g) ∧ ∀ q, x.r ≠ .flush q) : x.isConfirmOrFlush = false := by
  obtain ⟨hconfirm, hflush⟩ := h
  unfold HRead.isConfirmOrFlush
  split
  next g hr => exact absurd hr (hconfirm g)
  next q hr => exact absurd hr (hflush q)
  next => rfl

/-- The confirm or flush read on function f that was issued first. -/
def Dev.confirmRead (d : Dev) (n f : Nat) : Option HRead :=
  (d.eng n).reads.find? (fun r => r.f == f && r.isConfirmOrFlush)

theorem confirmRead_first {f : Nat} {a b : List HRead} (hreads : (d.eng n).reads = a ++ x :: b)
    (hbefore : ∀ y ∈ a, y.f ≠ f ∨ ((∀ g, y.r ≠ .confirm g) ∧ ∀ q, y.r ≠ .flush q)) (hf : x.f = f)
    (hkind : x.isConfirmOrFlush = true) : d.confirmRead n f = some x := by
  refine List.find?_eq_some_iff_append.2 ⟨by simp [hf, hkind], a, b, hreads, fun y hy => ?_⟩
  obtain hother | hneither := hbefore y hy
  · simp [hother]
  · simp [isConfirmOrFlush_of_neither hneither]

/-- What the returned read x of a confirm or flush does beyond confirming. -/
def confirmReturned (n : Nat) (x : HRead) (d : Dev) : Dev :=
  match x.r with
  | .flush q => spaceBack n q (d.modCq n q (fun c => { c with flush := 3 }))
  | _ => d

/-- The model's test for such a read writes its cases out; it agrees with `isConfirmOrFlush` on every read, so both find the same one. -/
theorem confirmDone_some {f : Nat} (h : d.confirmRead n f = some x) : confirmDone n f d = confirmReturned n x (returned n x d) := by
  have hread : ∀ p : HRead → Bool, (∀ r, p r = (r.f == f && r.isConfirmOrFlush)) → (d.eng n).reads.find? p = some x :=
    fun p hp => (funext hp : p = _) ▸ h
  rw [confirmDone, hread _ fun r => ?_]
  · cases hr : x.r <;> simp [confirmReturned, hr]
  · unfold HRead.isConfirmOrFlush
    cases r.r <;> rfl

/-- The return of a confirm read has no effect beyond confirming. -/
theorem confirmDone_confirm {f : Nat} {g : FuncId} (hread : d.confirmRead n f = some x) (hr : x.r = .confirm g) :
    confirmDone n f d = returned n x d := by
  simp [confirmDone_some hread, confirmReturned, hr]

/-- The return of a flush read also ends the flush of its queue, which may have space again (R225). -/
theorem confirmDone_flush {f q : Nat} (hread : d.confirmRead n f = some x) (hr : x.r = .flush q) :
    confirmDone n f d = spaceBack n q ((returned n x d).modCq n q (fun c => { c with flush := 3 })) := by
  simp [confirmDone_some hread, confirmReturned, hr]

theorem flushIssue_due {q f : Nat} (hlast : (d.cq n q).lastF = some f) (hdue : (d.cq n q).flush = 1) : flushIssue n q d =
    issueRead n (d.cqHalf n q) f (d.cq n q).lastAddr 0 0 0 (.flush q) (d.modCq n q (fun c => { c with flush := 2 })) := by
  simp [flushIssue, hlast, hdue]

end

/-- Settles O10: each row is its operation's case, by the lemmas above. -/
theorem hostReadRowsComplete : Obligations.HostReadRowsComplete := by
  refine ⟨?entries, ?fragment, ?streamCtx, ?context, ?data, ?failed, ?resultFailed, ?notOut, ?timeoutConfirm, ?timeoutPi,
    ?confirmIssue, ?confirmed, ?flushed, ?flushIssue, ?funnelHold⟩
  case entries => exact fun s n h ep st data x hout => exec_next_of_run rfl (onRead_some hout _)
  case fragment => exact fun s n h ep st data x hout => exec_next_of_run rfl (onRead_some hout _)
  case streamCtx => exact fun s n h ep st data x hout => exec_next_of_run rfl (onRead_some hout _)
  case context => exact fun s n h ep data x hout => exec_next_of_run rfl (onRead_some hout _)
  case data => exact fun s n h ep st off bad bytes x hout hlen => exec_next_of_run rfl (dataCompleted_full hout hlen bad)
  case failed => exact fun s n r k x hr hout => exec_next_of_run rfl ((hostFailed_read hr).trans (onRead_some hout _))
  case resultFailed => exact fun s n q i k => exec_next_of_run rfl rfl
  case notOut =>
    exact fun s n r k hout =>
      ⟨fun hr => exec_next_of_run rfl ((hostFailed_read hr).trans (onRead_none hout _)), exec_next_of_run rfl (timedOut_none hout)⟩
  case timeoutConfirm => exact fun s n f x hout => exec_next_of_run rfl (timedOut_confirm hout)
  case timeoutPi => exact fun s n q x hout => exec_next_of_run rfl (timedOut_pi hout)
  case confirmIssue => exact fun s n f w hlast hnone => exec_next_of_run rfl (confirmIssue_unconfirmed hlast hnone)
  case confirmed =>
    exact fun s n f g x a b hreads hbefore hf hr =>
      exec_next_of_run rfl (confirmDone_confirm (confirmRead_first hreads hbefore hf (isConfirmOrFlush_of_confirm hr)) hr)
  case flushed =>
    exact fun s n f q x a b hreads hbefore hf hr =>
      exec_next_of_run rfl (confirmDone_flush (confirmRead_first hreads hbefore hf (isConfirmOrFlush_of_flush hr)) hr)
  case flushIssue => exact fun s n q f hlast hdue => exec_next_of_run rfl (flushIssue_due hlast hdue)
  case funnelHold => exact fun s n h ep x hxfer => exec_next_of_run rfl (by simp [hxfer])

end Sys2Proof.Machine
end

section
/-! PROOFS. The opcodes on endpoints and pools, and the queries, on an executing entry. -/
namespace Sys2Proof.Machine

section
variable {n q : Nat} {i : Dword} {e : List Dword} {d : Dev}

/-! ### ADMIT_ENDPOINTS and RETIRE_ENDPOINTS (R124, R125, R145) -/

theorem admitAct_open (h : d.handleCode n (weHandle e) = 0) : admitAct n q i e d =
    forEach (maskBits (dwAt e 4).toNat)
      (fun k d => hostRead n (d.wqHalf n q) ((qwAt e 5).toNat + 64 * k) 64 (.struct q i) d) (waitEnt n q i 1 0 d) := by
  simp [admitAct, admitCode, h]
theorem admitAct_refused (h : d.handleCode n (weHandle e) ≠ 0) : admitAct n q i e d =
    finishWe n q i (d.handleCode n (weHandle e)) {} d := by
  simp [admitAct, admitCode, h]

/-- With no earlier command on its endpoints under way, an entry on an attached handle stops the endpoints of its mask, none of them
Disabled. -/
theorem retireOn_live (hbefore : d.planBefore n (d.startTag n q i) e = false) (hst : (d.handle n (weHandle e)).st ≠ .detached)
    (hlive : ∀ k ∈ maskBits (dwAt e 4).toNat, (d.ep n (weHandle e) k).st ≠ .disabled) :
    retireOn n q i e d = stopFor n q i (weHandle e) (maskBits (dwAt e 4).toNat) d := by
  have hnone : (maskBits (dwAt e 4).toNat).find? (fun k => (d.ep n (weHandle e) k).st == .disabled) = none :=
    List.find?_eq_none.2 (by simpa using hlive)
  simp [retireOn, hbefore, hst, hnone]

/-! ### STOP_ENDPOINT (R99) -/

theorem stopAct_running (hst : (d.handle n (weHandle e)).st ≠ .detached) (hrun : (d.ep n (weHandle e) (weEp e)).st = .running) :
    stopAct n q i e d = stopFor n q i (weHandle e) [weEp e] d := by
  simp [stopAct, hst, hrun]

/-- The stop of a Stopped endpoint writes its context back and answers. -/
theorem stopAct_stopped (hst : (d.handle n (weHandle e)).st ≠ .detached) (hstop : (d.ep n (weHandle e) (weEp e)).st = .stopped) :
    stopAct n q i e d = stopResult n q i e (writeCtx n (weHandle e) (weEp e) d) := by
  simp [stopAct, hst, hstop]

/-- The answer is the dequeue pointer, unless it stands only in a context that was never read. -/
theorem stopResult_read (h : (d.ep n (weHandle e) (weEp e)).unread (dwAt e 4).toNat = false) : stopResult n q i e d =
    finishWe n q i cOk { r1 := d.deqResult n (weHandle e) (weEp e) (dwAt e 4).toNat } d := by
  simp [stopResult, h]

/-! ### CLEAR_HALT and MOVE_DEQUEUE (R101, R102) -/

/-- CLEAR_HALT of a Halted endpoint: Stopped, its toggle and retry state cleared, its rings as they were. That HALT_CODE and
HALT_REASON are cleared with ERR_ADDR is the model's choice (log entry 68). -/
theorem clearHaltAct_halted (hst : (d.handle n (weHandle e)).st ≠ .detached) (hhalt : (d.ep n (weHandle e) (weEp e)).st = .halted) :
    clearHaltAct n q i e d = finishWe n q i cOk {} (d.modEp n (weHandle e) (weEp e) (fun y => { y with
      st := .stopped, errAddr := 0, haltCode := 0, haltReason := 0
      bus := { y.bus with toggle := false, seq := 0, errors := 0, level := 0, naks := 0, ping := false, pinging := false
                          parked := false, csplit := false } })) := by
  simp [clearHaltAct, hst, hhalt]

theorem moveAct_stopped (hst : (d.handle n (weHandle e)).st ≠ .detached) (hstop : (d.ep n (weHandle e) (weEp e)).st = .stopped)
    (hstream : (d.ep n (weHandle e) (weEp e)).streamOk (dwAt e 6).toNat = true) : moveAct n q i e d =
      finishWe n q i cOk {} ((d.modEp n (weHandle e) (weEp e) (fun y => { y with errAddr := 0 })).modRing n (weHandle e) (weEp e)
        (dwAt e 6).toNat (fun r => Ring.drop { r with
          deq := (qwAt e 4).toNat / 32 * 32, cyc := (qwAt e 4).toNat % 2 == 1, loaded := true })) := by
  simp [moveAct, hst, hstop, hstream]

/-! ### RELEASE_POOL (R212) -/

theorem releaseAct_stopped (hst : (d.handle n (weHandle e)).st ≠ .detached) (hstop : (d.ep n (weHandle e) (weEp e)).st = .stopped) :
    releaseAct n q i e d =
      (let x := d.ep n (weHandle e) (weEp e)
       let d := releasePages n (d.epHalf n (weHandle e)) x.addedPg (d.modEp n (weHandle e) (weEp e) (fun y => { y with addedPg := [] }))
       carves n (finishWe n q i cOk (poolRes d n (weHandle e) (weEp e) x.addedPg.length) d)) := by
  simp [releaseAct, hst, hstop]

/-! ### QUERY_PLAN (R152) -/

theorem planAct_ready {p : Nat} (hport : d.physPort n (wePort e) = some p) (hready : (d.port p).bus.resetRequired = false) :
    planAct n q i e d = resultWe n q i e (planBytes d p (wePort e) (bitOf (dwAt e 4) 0)) d := by
  simp [planAct, hport, hready]

end

/-- Settles O13: each row is its operation's case, by the lemmas above. -/
theorem endpointRowsComplete : Obligations.EndpointRowsComplete := by
  refine ⟨?admitted, ?admitRefused, ?retire, ?stopRunning, ?stopStopped, ?clearHalt, ?move, ?carve, ?release, ?plan, ?budget⟩
  case admitted =>
    exact fun s n q i e k l h hcode hmask =>
      exec_next_of_run rfl (congrArg (carves n) ((onHandle_executes h _).trans (hmask ▸ admitAct_open hcode)))
  case admitRefused =>
    exact fun s n q i e h hcode => exec_next_of_run rfl (congrArg (carves n) ((onHandle_executes h _).trans (admitAct_refused hcode)))
  case retire =>
    intro s n q i e h d hbefore hst hlive
    exact exec_next_of_run rfl ((onHandle_executes h _).trans (retireOn_live hbefore hst hlive))
  case stopRunning =>
    exact fun s n q i e h hst hrun => exec_next_of_run rfl ((onHandle_executes h _).trans (stopAct_running hst hrun))
  case stopStopped =>
    intro s n q i e h hst hstop d hread
    exact exec_next_of_run rfl ((onHandle_executes h _).trans ((stopAct_stopped hst hstop).trans (stopResult_read hread)))
  case clearHalt =>
    exact fun s n q i e h hst hhalt => exec_next_of_run rfl ((onHandle_executes h _).trans (clearHaltAct_halted hst hhalt))
  case move =>
    exact fun s n q i e h hst hstop hstream =>
      exec_next_of_run rfl ((onHandle_executes h _).trans (moveAct_stopped hst hstop hstream))
  case carve => exact fun s n q i e h => exec_next_of_run rfl (onHandle_executes h _)
  case release =>
    exact fun s n q i e h hst hstop => exec_next_of_run rfl ((onHandle_executes h _).trans (releaseAct_stopped hst hstop))
  case plan =>
    exact fun s n q i e p h hport hready => exec_next_of_run rfl ((onEntry_executes h _).trans (planAct_ready hport hready))
  case budget => exact fun s n q i e h => exec_next_of_run rfl (onEntry_executes h _)

end Sys2Proof.Machine
end

section
/-! PROOFS. Cost of a periodic service (R130, R131): the formula of each speed, and ceilings as bounds. -/
namespace Sys2Proof.Machine

/-- The product of `cdiv a b` and `b` is the first multiple of `b` that is not below `a`. -/
theorem cdiv_mul_bounds (a : Nat) {b : Nat} (hb : 0 < b) : a ≤ cdiv a b * b ∧ cdiv a b * b < a + b := by
  unfold cdiv
  have hdiv : (a + b - 1) / b * b + (a + b - 1) % b = a + b - 1 := Nat.div_add_mod' ..
  have hrem : (a + b - 1) % b < b := Nat.mod_lt _ hb
  omega

theorem stuff_bounds (n : Nat) : 28 * n ≤ 3 * stuff n ∧ 3 * stuff n < 28 * n + 3 := by
  simpa only [stuff, Nat.mul_comm 3] using cdiv_mul_bounds (28 * n) (b := 3) (by decide)

section
variable (iso : Bool) (mp esit mult : Nat)

theorem serviceCost_high : serviceCost 3 iso mp esit mult =
    ((List.range (mult + 1)).map (fun j => (if iso then 320 else 456) + stuff (min mp (esit - j * mp)))).sum := by
  rw [List.sum_eq_foldl, List.foldl_map]
  simp only [← Nat.add_assoc]
  rfl

theorem serviceCost_full : serviceCost 1 iso mp esit mult = (if iso then 100 else 130) + stuff esit := rfl

theorem serviceCost_low : serviceCost 2 iso mp esit mult = 1000 + 8 * stuff esit := rfl

theorem serviceCost_super {sp : Nat} (hsp : sp = 4 ∨ sp = 5) :
    serviceCost sp iso mp esit mult = esit + 40 * cdiv esit mp + 64 := by
  rcases hsp with rfl | rfl <;> rfl

end

/-- Settles O33: each speed has its formula, and the rounded quotients in them are ceilings. -/
theorem periodicCosts : Obligations.PeriodicCosts := by
  refine ⟨stuff_bounds, fun mp esit mult => ?usb2, fun sp iso mp esit mult hsp hmp => ?super⟩
  case usb2 =>
    exact ⟨serviceCost_high true mp esit mult, serviceCost_high false mp esit mult, serviceCost_full true mp esit mult,
      serviceCost_full false mp esit mult, serviceCost_low false mp esit mult⟩
  case super =>
    obtain ⟨hle, hlt⟩ := cdiv_mul_bounds esit hmp
    exact ⟨cdiv esit mp, hle, hlt, serviceCost_super iso mp esit mult hsp, rfl⟩

end Sys2Proof.Machine
end

section
/-! PROOFS. Answers of a partner on the buses, turns, repolls, and NRDY and ERDY. -/
namespace Sys2Proof.Machine

/-! ### An answer that reaches its endpoint (R153, R156) -/

section
variable {s : State} {p h e : Nat}

theorem onPortEp_served (hon : s.OnPort p h e) {f : Nat → Dev → Dev} {d : Dev} (hf : f (s.dev.owner p) s.dev = d) :
    onPortEp p h e f s.dev = d := by
  obtain ⟨hfence, howner, hst, hport, hep⟩ := hon
  simp [onPortEp, hfence, howner, hst, hport, hep, hf]

/-- After an answer the plan of both buses goes on (R156), and what waited for the boundary happens. -/
theorem onPortPer_served (hon : s.OnPort p h e) {f : Nat → Dev → Dev} {d : Dev}
    (hf : f (s.dev.owner p) (answered p h e s.dev) = d) :
    onPortPer p h e f s.dev = settlePort p (nextPer p true (nextPer p false d)) := by
  rw [onPortPer, onPortEp_served hon hf]

end

section
variable (n h e k : Nat) (d : Dev)

/-- Time on the bus is time of a port. -/
@[simp] theorem arrivedIn_engs (len pkts : Nat) : (arrivedIn n h len pkts d).engs = d.engs := by
  unfold arrivedIn
  split <;> rfl
@[simp] theorem arrivedIn_handle (len pkts : Nat) : (arrivedIn n h len pkts d).handle n k = d.handle n k := by
  simp [Dev.handle, Dev.eng]
@[simp] theorem arrivedIn_ep (len pkts g : Nat) : (arrivedIn n h len pkts d).ep n k g = d.ep n k g := by
  simp [Dev.ep]
@[simp] theorem arrivedIn_highBand (len pkts g : Nat) : (arrivedIn n h len pkts d).highBand n k g = d.highBand n k g := by
  simp [Dev.highBand, Dev.onSs, Dev.viaTt]

end

section
variable {n h e : Nat} {d : Dev} {x : Xfer} (hxfer : (d.ep n h e).xfer = some x) (hserv : (d.ep n h e).service = true)

/-! ### Control and bulk transactions (R162, R165, R168, R171) -/

section
variable (hnp : (d.ep n h e).mode.periodic = false) (sealBad : Nat)
include hxfer hserv hnp

theorem npResponse_data (hsetup : x.isSetup = false) (hin : x.dirIn = true) (bytes : List Byte) :
    npResponse n h e (.data true bytes) sealBad d = npData n h e sealBad bytes (arrivedIn n h bytes.length 1 d) := by
  simp [npResponse, hxfer, hserv, hnp, hsetup, hin]

theorem npResponse_ack (granted : Nat) : npResponse n h e (.ack granted) sealBad d = npAck n h e false granted d := by
  simp [npResponse, hxfer, hserv, hnp]

/-- A NAK to an IN: counted, the endpoint waits for its repoll, and at the 64th in a row the repoll level goes up (R171). -/
theorem npResponse_nak_in (hsetup : x.isSetup = false) (hin : x.dirIn = true) : npResponse n h e .nak sealBad d = turnOver n h e
    ((d.modCnt (d.handle n h).port (fun c => { c with naks := c.naks + 1 })).modEpBus n h e (fun b => { b with
      errors := 0, waiting := true, naks := if 63 ≤ b.naks then 0 else b.naks + 1
      level := if 63 ≤ b.naks then min 6 (b.level + 1) else b.level })) := by
  simp [npResponse, hxfer, hserv, hnp, hsetup, hin, nakked, countNak, doIf]

theorem npResponse_stall : npResponse n h e .stall sealBad d = npStall n h e d := by
  simp [npResponse, hxfer, hserv, hnp]

theorem npResponse_crcError : npResponse n h e .crcError sealBad d = npError n h e false d := by
  simp [npResponse, hxfer, hserv, hnp]

end

/-! ### Periodic transactions (R159 to R161) -/

section
variable (hper : (d.ep n h e).mode.periodic = true) (hrun : (d.ep n h e).runIn = false)
include hxfer hserv hper hrun

/-- Data of an IN service is taken in; of one whose PIDs tell its length, only in the sequence of R161. -/
theorem perResponse_data (hin : x.isIn = true) {pid : DPid}
    (hpid : d.highBand n h e = false ∨ x.pidOk (d.ep n h e).cfg.mult pid = true) (bytes : List Byte) :
    perResponse n h e (.data true pid bytes) 0 d =
      perData n h e bytes pid 0 false (arrivedIn n h bytes.length (max 1 (cdiv bytes.length (d.ep n h e).cfg.maxPacket)) d) := by
  have hseq : (d.highBand n h e && !(x.pidOk (d.ep n h e).cfg.mult pid)) = false := by
    rcases hpid with hband | hok
    · simp [hband]
    · simp [hok]
  simp [perResponse, hxfer, hserv, hper, hrun, hin, hseq]

theorem perResponse_ack_out (hout : x.isIn = false) (hiso : (d.ep n h e).mode ≠ .iso) :
    perResponse n h e .ack 0 d = perSent n h e d := by
  simp [perResponse, hxfer, hserv, hper, hrun, hout, hiso]

theorem perResponse_sent_out (hout : x.isIn = false) (hiso : (d.ep n h e).mode = .iso) :
    perResponse n h e .sent 0 d = perSent n h e d := by
  have hper' : EpType.periodic .iso = true := hiso ▸ hper
  simp [perResponse, hxfer, hserv, hper', hrun, hout, hiso]

theorem perResponse_stall (hiso : (d.ep n h e).mode ≠ .iso) : perResponse n h e .stall 0 d = endHalting n h e 0x07 none d := by
  simp [perResponse, hxfer, hserv, hper, hrun, hiso]

theorem perResponse_busError : perResponse n h e .busError 0 d = perError n h e false d := by
  simp [perResponse, hxfer, hserv, hper, hrun]

end

/-! ### Splits (R178, R179) -/

section
variable (hvia : d.viaTt n h = true) (r : SplitResp)
include hserv hvia

theorem splitAnswer_nonperiodic (hnp : (d.ep n h e).mode.periodic = false) : splitAnswer n h e r d = npSplit n h e r d := by
  simp [splitAnswer, hserv, hvia, hnp]

theorem splitAnswer_periodic (hper : (d.ep n h e).mode.periodic = true) : splitAnswer n h e r d = perSplit n h e r d := by
  simp [splitAnswer, hserv, hvia, hper]

end

/-- The hub took the start-split: the complete-split is of the next turn (R178). -/
theorem npSplit_ack_start (hxfer : (d.ep n h e).xfer = some x) (hstart : (d.ep n h e).bus.csplit = false) :
    npSplit n h e .ack d = turnOver n h e (d.modEpBus n h e (fun b => { b with errors := 0, csplit := true })) := by
  unfold npSplit
  simp [hxfer, hstart]

theorem npSplit_ack_complete (hxfer : (d.ep n h e).xfer = some x) (hserv : (d.ep n h e).service = true)
    (hnp : (d.ep n h e).mode.periodic = false) (hcomplete : (d.ep n h e).bus.csplit = true) :
    npSplit n h e .ack d = npAck n h e false 1 d := by
  unfold npSplit
  simp [hxfer, hcomplete, npResponse_ack hxfer hserv hnp]

theorem npSplit_err_complete (hxfer : (d.ep n h e).xfer = some x) (hcomplete : (d.ep n h e).bus.csplit = true) :
    npSplit n h e .err d = npError n h e true d := by
  unfold npSplit
  simp [hxfer, hcomplete]

section
variable (hrun : (d.ep n h e).runIn = false)
include hxfer hrun

theorem perSplit_data (hin : x.isIn = true) (bytes : List Byte) (sealBad : Nat) : perSplit n h e (.data true bytes sealBad) d =
    perData n h e bytes .data0 sealBad false ((arrivedIn n h bytes.length 1 d).modXfer n h e (fun x => { x with svcTxn := 1 })) := by
  simp [perSplit, hxfer, hrun, hin]

theorem perSplit_err : perSplit n h e .err d = perError n h e true d := by
  simp [perSplit, hxfer, hrun]

end

/-! ### No answer (R168) -/

include hxfer hserv in
/-- Silence of a partner that no TT reaches is a bus error of a periodic service, and a transaction error of a turn. -/
theorem noResponse_direct (hrun : (d.ep n h e).runIn = false) (hvia : d.viaTt n h = false) : noResponse n h e d =
    if (d.ep n h e).mode.periodic then perError n h e false d else npError n h e false d := by
  cases hper : (d.ep n h e).mode.periodic with
  | true => simp [noResponse, hvia, hper, perResponse_busError hxfer hserv hper hrun]
  | false => simp [noResponse, hvia, hper, hserv]

end

/-! ### Turns (R155, R157, R162) -/

/-- An endpoint with a transfer that fits the window puts its next transaction on the bus. -/
theorem startTurn_ready {n h e : Nat} {d : Dev} {z : Xfer} (hxfer : ((useCtx n h e d).ep n h e).xfer = some z)
    (hreload : ((useCtx n h e d).ep n h e).reload = false)
    (hfree : (useCtx n h e d).perBusy ((useCtx n h e d).handle n h).port ((useCtx n h e d).onSs n h) = false)
    (hfits : (useCtx n h e d).fits n h e z = true) (hok : (useCtx n h e d).eligible n h e = true) :
    startTurn n h e d = issueTxn n h e (useCtx n h e d) := by
  simp [startTurn, hxfer, hreload, hfree, hfits, hok]

/-- With no transaction on the bus, the eligible endpoint whose turn has packets left goes on with it. -/
theorem npTurn_goesOn {p : Nat} {ss : Bool} {d : Dev} {x : Nat × Nat} (howner : d.owner p < d.S) (hfree : d.perBusy p ss = false)
    (hidle : ∀ y ∈ d.busEps (d.owner p) p ss,
      (d.ep (d.owner p) y.1 y.2).service = false ∨ (d.ep (d.owner p) y.1 y.2).mode.periodic = true)
    (hnext : ((d.busEps (d.owner p) p ss).filter (fun x => d.eligible (d.owner p) x.1 x.2)).find?
      (fun x => (d.ep (d.owner p) x.1 x.2).bus.pkts != 0) = some x) :
    npTurn p ss d = startTurn (d.owner p) x.1 x.2 d := by
  have hnone : (d.busEps (d.owner p) p ss).any
      (fun y => (d.ep (d.owner p) y.1 y.2).service && !(d.ep (d.owner p) y.1 y.2).mode.periodic) = false := by
    refine List.any_eq_false.2 fun y hy => ?_
    rcases hidle y hy with hserv | hper
    · simp [hserv]
    · simp [hper]
  have hopen : (decide (d.S ≤ d.owner p) || d.perBusy p ss || (d.busEps (d.owner p) p ss).any
      (fun y => (d.ep (d.owner p) y.1 y.2).service && !(d.ep (d.owner p) y.1 y.2).mode.periodic)) = false := by
    simp [-List.any_eq_false, hnone, hfree, howner]
  unfold npTurn
  simp only [hopen, hnext]
  rfl

/-! ### Babble of the port (R170) -/

/-- A port of no slice has no transfer to end: its bus is Disabled, with the port event that says so. -/
theorem portBabbled_unowned {p : Nat} {d : Dev} (hbus : (d.port p).bus.usb2 = .enabled) (howner : d.S ≤ d.owner p) (h e : Nat) :
    portBabbled p h e d = settlePort p (portEvent p { bits := 2, cause := 5 }
      (answered p h e ((d.modCnt p (fun c => { c with babble := c.babble + 1 })).modBus p (fun b => { b with usb2 := .disabled })))) := by
  have hno (g : BusCnt → BusCnt) : ¬ d.owner p < (d.modCnt p g).S := Nat.not_lt.2 howner
  simp [portBabbled, hbus, hno]

/-! ### NRDY and ERDY (R174, R176) -/

/-- NRDY of an interrupt endpoint parks it, and its service rests. -/
theorem nrdy_interrupt {n h e : Nat} {d : Dev} (hss : speedSs (d.handle n h).speed = true) (hiso : (d.ep n h e).mode ≠ .iso)
    (hper : (d.ep n h e).mode.periodic = true) : nrdy n h e d =
      perRest n h e false (d.modEpBus n h e (fun b => { b with parked := true, errors := 0 })) := by
  simp [nrdy, Dev.onSs, hss, hiso, hper]

theorem erdy_noStreams {s : State} {p h e : Nat} (hon : s.OnPort p h e)
    (hss : speedSs (s.dev.handle (s.dev.owner p) h).speed = true) (hacts : ((s.dev.handle (s.dev.owner p) h).ep e).acts = true)
    (hstreams : ((s.dev.handle (s.dev.owner p) h).ep e).cfg.streams = false) (st : Nat) : erdy p h e st s.dev =
      s.dev.modEpBus (s.dev.owner p) h e (fun b => { b with parked := false, erdySeen := true, granted := max 1 b.granted }) := by
  obtain ⟨-, howner, hst, hport, -⟩ := hon
  rcases hst with hst | hst <;> simp [erdy, howner, hst, hport, hss, hacts, hstreams]

theorem erdy_unowned {p : Nat} {d : Dev} (howner : d.S ≤ d.owner p) (h e st : Nat) : erdy p h e st d = strayErdy p d := by
  simp [erdy, Nat.not_lt.2 howner]

/-- Settles O15: each answer is its operation's case, by the lemmas above. The answered device d differs from s.dev in its port alone,
so what the statement says of the endpoint in s.dev holds in d by definition. -/
theorem busTransactionRowsComplete : Obligations.BusTransactionRowsComplete := by
  refine ⟨?nonperiodic, ?periodic, ?split, ?timeout, ?turn, ?repoll, ?babble, ?nrdy, ?erdy, ?strayErdy⟩
  case nonperiodic =>
    intro s p h e sl g x bytes hon n go hxfer hserv hnp
    have hrow {r : NpResp} {d : Dev} (hr : npResponse n h e r sl s.dev = d) :
        exec (.usb2TransactionResponse p h e r sl) s = .next (s.after (go d)) :=
      exec_next_of_run rfl (congrArg go (onPortEp_served hon hr))
    exact ⟨fun hsetup hin => hrow (npResponse_data hxfer hserv hnp sl hsetup hin bytes), hrow (npResponse_ack hxfer hserv hnp sl g),
      fun hsetup hin => hrow (npResponse_nak_in hxfer hserv hnp sl hsetup hin), hrow (npResponse_stall hxfer hserv hnp sl),
      hrow (npResponse_crcError hxfer hserv hnp sl)⟩
  case periodic =>
    intro s p h e x bytes pid hon n go d y hxfer hserv hper hrun
    have hrow {r : PerResp} {d' : Dev} (hr : perResponse n h e r 0 d = d') :
        exec (.periodicTransactionResponse p h e r 0) s = .next (s.after (go d')) :=
      exec_next_of_run rfl (onPortPer_served hon hr)
    exact ⟨fun hin hpid => hrow (perResponse_data (d := d) hxfer hserv hper hrun hin hpid bytes),
      fun hout hiso => hrow (perResponse_ack_out (d := d) hxfer hserv hper hrun hout hiso),
      fun hout hiso => hrow (perResponse_sent_out (d := d) hxfer hserv hper hrun hout hiso),
      fun hiso => hrow (perResponse_stall (d := d) hxfer hserv hper hrun hiso),
      hrow (perResponse_busError (d := d) hxfer hserv hper hrun)⟩
  case split =>
    intro s p h e sl x bytes hon n go d hxfer hserv hvia
    have hrow {r : SplitResp} {d' : Dev} (hr : splitAnswer n h e r d = d') :
        exec (.splitResponse p h e r) s = .next (s.after (go d')) :=
      exec_next_of_run rfl (onPortPer_served hon hr)
    have hturn (hnp : (s.dev.ep n h e).mode.periodic = false) (r : SplitResp) : splitAnswer n h e r d = npSplit n h e r d :=
      splitAnswer_nonperiodic (d := d) hserv hvia r hnp
    have hplan (hper : (s.dev.ep n h e).mode.periodic = true) (r : SplitResp) : splitAnswer n h e r d = perSplit n h e r d :=
      splitAnswer_periodic (d := d) hserv hvia r hper
    exact ⟨fun hnp hstart => hrow ((hturn hnp _).trans (npSplit_ack_start (d := d) hxfer hstart)),
      fun hnp hcomplete => ⟨hrow ((hturn hnp _).trans (npSplit_ack_complete (d := d) hxfer hserv hnp hcomplete)),
        hrow ((hturn hnp _).trans (npSplit_err_complete (d := d) hxfer hcomplete))⟩,
      fun hper hrun hin => hrow ((hplan hper _).trans (perSplit_data (d := d) hxfer hrun hin bytes sl)),
      fun hper hrun => hrow ((hplan hper _).trans (perSplit_err (d := d) hxfer hrun))⟩
  case timeout =>
    intro s p h e x hon n go d hxfer hserv hrun hvia
    exact exec_next_of_run rfl (onPortPer_served hon (noResponse_direct (d := d) hxfer hserv hrun hvia))
  case turn =>
    intro s p b x z n d howner hfree hidle hnext hxfer hreload hfree' hfits hok
    exact exec_next_of_run rfl ((npTurn_goesOn howner hfree hidle hnext).trans (startTurn_ready hxfer hreload hfree' hfits hok))
  case repoll => exact fun s p h e hon => exec_next_of_run rfl (onPortEp_served hon rfl)
  case babble => exact fun s p h e hbus howner => exec_next_of_run rfl (portBabbled_unowned hbus howner h e)
  case nrdy =>
    intro s p h e st hon n hss hiso hper
    exact exec_next_of_run rfl (onPortPer_served hon (nrdy_interrupt hss hiso hper))
  case erdy =>
    intro s p h e st hon n hss hacts hstreams
    exact exec_next_of_run rfl (erdy_noStreams hon hss hacts hstreams st)
  case strayErdy => exact fun s p h e st howner => exec_next_of_run rfl (erdy_unowned howner h e st)

end Sys2Proof.Machine
end

section
/-! PROOFS. Events of the USB 2.0 bus of a port (R186, R188, R191, R198 to R201). -/
namespace Sys2Proof.Machine

@[simp] theorem toPort_val (p : PortId) : toPort p.val = p := Fin.ext (Nat.mod_eq_of_lt p.isLt)

/-- A change of a port is what it makes of that port as it stands. -/
theorem Dev.modPort_congr {p : Nat} {f g : Port → Port} {d : Dev} (h : f (d.port p) = g (d.port p)) :
    d.modPort p f = d.modPort p g := by
  simp only [Dev.modPort, h]
theorem Dev.modBus_congr {p : Nat} {f g : PortBus → PortBus} {d : Dev} (h : f (d.port p).bus = g (d.port p).bus) :
    d.modBus p f = d.modBus p g :=
  Dev.modPort_congr (congrArg (fun b => { d.port p with bus := b }) h)

section
variable {p : PortId} {d : Dev}

/-! ### Connect, disconnect and reset (R186, R189) -/

theorem pullup_disconnected (h : (d.port p).bus.usb2 = .disconnected) (low : Bool) :
    pullup p low d = pgWake p (d.modBus p (fun b => { b with debounce := true, lowSpeed := low })) :=
  congrArg (pgWake p) (Dev.modBus_congr (if_pos (beq_iff_eq.2 h)))

theorem debounced_pullup (h : (d.port p).bus.usb2 = .disconnected) (hdeb : (d.port p).bus.debounce = true) : debounced p d =
    portEvent p { bits := 1 } (d.modBus p (fun b => { b with
      usb2 := .connected, debounce := false, usb2Speed := if b.lowSpeed then 2 else 1 })) :=
  if_pos (by simp [h, hdeb])

theorem disconnect2_connected (h : usb2Conn (d.port p).bus.usb2 = true) : disconnect2 p d =
    cutPortOp p true false (portEvent p { bits := 1 + leaveBits2 (d.port p).bus.usb2, cause := 7, detach := true }
      (detachHandles p (some false) cDetached (d.modBus p (fun b => { b with
        usb2 := .disconnected, usb2Speed := 0, recUsb2 := false, ownReset := false, l1Exit := false, debounce := false
        wakeFirst := false, wakeLate := false })))) := by
  have hne : (d.port p).bus.usb2 ≠ .disconnected := fun hd => by simp [hd, usb2Conn] at h
  simp [disconnect2, h, hne]

theorem resetDriven_resetting (h : (d.port p).bus.usb2 = .resetting) (chirped : Bool) : resetDriven p chirped d =
    portEvent p { bits := 2 } (d.modBus p (fun b => { b with
      usb2 := .enabled, recUsb2 := true, usb2Speed := if b.lowSpeed then 2 else if chirped then 3 else 1 })) :=
  if_neg (by simp [h])

/-! ### Recoveries (R188, R196, R200) -/

theorem recovered_usb2_reset {o : PortOp} (hrec : (d.port p).bus.recUsb2 = true) (hown : (d.port p).bus.ownReset = false)
    (hst : (d.port p).bus.usb2 ≠ .resuming) (hop : (d.port p).bus.op = some o) (hreset : o.opcode = 0x10)
    (hwait : o.waitUsb2 = true) :
    recovered p false d = opBusDone p false 0 (d.modBus p (fun b => { b with recUsb2 := false, ownReset := false })) := by
  simp [recovered, hrec, hown, hst, hop, hreset, hwait]

theorem recovered_usb2_resuming (hrec : (d.port p).bus.recUsb2 = true) (hst : (d.port p).bus.usb2 = .resuming) :
    recovered p false d = resumed2 p d := by
  simp [recovered, hrec, hst]

/-- RESUME_CHANGE, and the partner's wake with it where its K came first (R191). -/
theorem resume_event_bits (first : Bool) : 4 + (if first then 8 else 0) = if first then 12 else 4 := by
  cases first <;> rfl

theorem resumed2_noOp (hop : (d.port p).bus.op = none) : resumed2 p d =
    portEvent p { bits := if (d.port p).bus.wakeFirst then 12 else 4 } (d.modBus p (fun b => { b with
      usb2 := .enabled, recUsb2 := false, wakeFirst := false })) := by
  simp [resumed2, hop, resume_event_bits]

theorem resumed2_op {o : PortOp} (hop : (d.port p).bus.op = some o) (hresume : o.opcode = 0x12) (hwait : o.waitUsb2 = true) :
    resumed2 p d = opBusDone p false 8 (portEvent p { bits := if (d.port p).bus.wakeFirst then 12 else 4 }
      (d.modBus p (fun b => { b with usb2 := .enabled, recUsb2 := false, wakeFirst := false }))) := by
  simp [resumed2, hop, hresume, hwait, resume_event_bits]

/-- The Recovery of R187 that no U3 exit began: what waited for U0 goes on. -/
theorem recovered_ss_recovery (hst : (d.port p).bus.ss = .recovery) (hrebus : (d.port p).bus.rebus = false) :
    recovered p true d =
      settlePort p (d.modBus p (fun b => { b with ss := .u0, u3Fails := 0, rebus := false, ssWake := false })) := by
  simp [recovered, hst, hrebus]

/-! ### Resume, suspend and L1 (R198 to R201) -/

theorem driven_resuming (hst : (d.port p).bus.usb2 = .resuming) (hrec : (d.port p).bus.recUsb2 = false) :
    driven p d = (emit (.signal p .usb2 .eop) d).modBus p (fun b => { b with recUsb2 := true }) := by
  simp [driven, hst, hrec]

theorem suspended_op {o : PortOp} (hop : (d.port p).bus.op = some o) (hsuspend : o.opcode = 0x11) (hwait : o.waitUsb2 = true)
    (hlpm : (d.port p).bus.lpm = false) (hst : (d.port p).bus.usb2 = .enabled) : suspended p d =
      opBusDone p false 0 (portEvent p { bits := 4 } (d.modBus p (fun b => { b with usb2 := .suspended }))) := by
  simp [suspended, hop, hsuspend, hwait, hlpm, hst]

theorem partnerK_suspended (hst : (d.port p).bus.usb2 = .suspended) (within : Bool) : partnerK p within d =
    pgWake p (emit (.signal p .usb2 .kDrive)
      (d.modBus p (fun b => { b with usb2 := .resuming, wakeFirst := true, kWithin1ms := within }))) := by
  simp [partnerK, hst]

/-- What the answer to the token does, by answer (R199). -/
theorem lpmDone_sent (hlpm : (d.port p).bus.lpm = true) (hsent : (d.port p).bus.lpmDue = none) :
    lpmDone p .ack d = finishPortOp p cOk 1 (portEvent p { bits := 16 } (d.modBus p (fun b => { b with usb2 := .l1 }))) ∧
    lpmDone p .nyet d = finishPortOp p cNotPermitted 2 d ∧ lpmDone p .stall d = finishPortOp p 0x07 3 d ∧
    lpmDone p .none d = finishPortOp p cNotPermitted 4 d := by
  simp [lpmDone, hlpm, hsent]

end

/-- Settles O16: each row is its operation's case, by the lemmas above. -/
theorem usb2BusRowsComplete : Obligations.Usb2BusRowsComplete := by
  refine ⟨?pullup, ?debounce, ?disconnect, ?driveEnd, ?resetRecovery, ?resumeRecovery, ?resumeRecoveryOp, ?ssRecovery, ?kEnd, ?suspend,
    ?partnerK, ?lpm⟩
  case pullup => exact fun s p low hst => exec_next_of_run rfl (pullup_disconnected hst low)
  case debounce => exact fun s p hst hdeb => exec_next_of_run rfl (debounced_pullup hst hdeb)
  case disconnect => exact fun s p hconn => exec_next_of_run rfl (disconnect2_connected hconn)
  case driveEnd => exact fun s p chirped hst => exec_next_of_run rfl (resetDriven_resetting hst chirped)
  case resetRecovery =>
    exact fun s p o hrec hown hst hop hreset hwait =>
      exec_next_of_run rfl (recovered_usb2_reset hrec hown hst hop hreset hwait)
  case resumeRecovery =>
    exact fun s p hrec hst hop => exec_next_of_run rfl ((recovered_usb2_resuming hrec hst).trans (resumed2_noOp hop))
  case resumeRecoveryOp =>
    exact fun s p o hrec hst hop hresume hwait =>
      exec_next_of_run rfl ((recovered_usb2_resuming hrec hst).trans (resumed2_op hop hresume hwait))
  case ssRecovery => exact fun s p hst hrebus => exec_next_of_run rfl (recovered_ss_recovery hst hrebus)
  case kEnd => exact fun s p hst hrec => exec_next_of_run rfl (driven_resuming hst hrec)
  case suspend =>
    exact fun s p o hop hsuspend hwait hlpm hst => exec_next_of_run rfl (suspended_op hop hsuspend hwait hlpm hst)
  case partnerK => exact fun s p w hst => exec_next_of_run rfl (partnerK_suspended hst w)
  case lpm =>
    intro s p hlpm hsent
    obtain ⟨hack, hnyet, hstall, hnone⟩ := lpmDone_sent hlpm hsent
    exact ⟨exec_next_of_run rfl hack, exec_next_of_run rfl hnyet, exec_next_of_run rfl hstall, exec_next_of_run rfl hnone⟩

end Sys2Proof.Machine
end

section
/-! PROOFS. Events of the SuperSpeed bus of a port (R187, R189 to R191, R198, R200, R202). -/
namespace Sys2Proof.Machine

section
variable {p : PortId} {d : Dev}

/-! ### Detection and training (R187) -/

theorem terminations_rxDetect (h : (d.port p).bus.ss = .rxDetect) :
    terminations p d = pgWake p (d.modBus p (fun b => { b with ss := .polling, probes := 0 })) :=
  congrArg (pgWake p) (Dev.modBus_congr (if_pos (beq_iff_eq.2 h)))

theorem probe_goesOn (h : (d.port p).bus.ss = .rxDetect) (hfew : (d.port p).bus.probes < 7) :
    probe p d = emit (.signal p .ss .probe) (d.modBus p (fun b => { b with probes := b.probes + 1 })) := by
  simp [probe, h, Nat.not_le.2 hfew]

theorem probe_last (h : (d.port p).bus.ss = .rxDetect) (hmany : 7 ≤ (d.port p).bus.probes) :
    probe p d = portEvent p { bits := 32 } (d.modBus p (fun b => { b with ss := .disabled, probes := 0 })) := by
  simp [probe, h, hmany]

theorem trained_polling (h : (d.port p).bus.ss = .polling) (gen2 : Bool) : trained p gen2 d =
    portEvent p { bits := 1 } (d.modBus p (fun b => { b with
      ss := .u0, ssSpeed := if gen2 then 5 else 4, trainFails := 0 })) :=
  if_neg (by simp [h])

theorem pollTimeout_again (h : (d.port p).bus.ss = .polling) (hfew : (d.port p).bus.trainFails < 2) :
    pollTimeout p d = d.modBus p (fun b => { b with ss := .rxDetect, trainFails := b.trainFails + 1, probes := 0 }) := by
  simp [pollTimeout, h, Nat.not_le.2 hfew]

theorem pollTimeout_last (h : (d.port p).bus.ss = .polling) (hmany : 2 ≤ (d.port p).bus.trainFails) :
    pollTimeout p d = portEvent p { bits := 32 } (d.modBus p (fun b => { b with ss := .disabled, trainFails := 0 })) := by
  simp [pollTimeout, h, hmany]

/-! ### U1 and U2 (R190) -/

section
variable {u2 : Bool} (h : (d.port p).bus.ss = .u0)
include h

theorem inactive_enabled (hon : d.uTimeout p u2 ≠ 0) : inactive p u2 d =
    emit (.signal p .ss (if u2 then .lgoU2 else .lgoU1)) (d.modBus p (fun b => { b with ss := if u2 then .u2 else .u1 })) := by
  simp [inactive, h, hon]

theorem partnerLgoU_enabled (hon : d.uTimeout p u2 ≠ 0) :
    partnerLgoU p u2 d = emit (.signal p .ss .lau) (d.modBus p (fun b => { b with ss := if u2 then .u2 else .u1 })) := by
  simp [partnerLgoU, h, hon]

omit h in
theorem inactive_off (hoff : d.uTimeout p u2 = 0) : inactive p u2 d = d := if_neg (by simp [hoff])

theorem partnerLgoU_off (hoff : d.uTimeout p u2 = 0) : partnerLgoU p u2 d = emit (.signal p .ss .lxu) d := by
  simp [partnerLgoU, h, hoff]

end

/-! ### U3 (R198, R200, R202) -/

theorem lau_awaited (h : (d.port p).bus.lgoU3 = true) : lau p d =
    opBusDone p true 0 (portEvent p { bits := 4 } (d.modBus p (fun b => { b with ss := .u3, lgoU3 := false }))) :=
  if_neg (by simp [h])

theorem u3Exit_noOp (h : (d.port p).bus.ss = .u3) (hop : (d.port p).bus.op = none) (partner : Bool) : u3Exit p partner d =
    (if partner then pgWake p d else d).modBus p (fun b => { b with ss := .recovery, rebus := true, ssWake := partner }) := by
  have hport : ((if partner then pgWake p d else d).port p).bus.op = none := by cases partner <;> simp [hop]
  exact (if_neg (by simp [h])).trans (Dev.modBus_congr (by simp [doIf, hport]))

/-- The partner's exit comes first on a bus that a PORT_RESUME acts on: INITIATOR is set (R200). -/
theorem u3Exit_resuming {o : PortOp} (h : (d.port p).bus.ss = .u3) (hop : (d.port p).bus.op = some o)
    (hresume : o.opcode = 0x12) (hwait : o.waitSs = true) : u3Exit p true d =
      (pgWake p d).modBus p (fun b => { b with
        ss := .recovery, rebus := true, ssWake := true, op := some { o with flags := o.flags ||| 2 } }) :=
  (if_neg (by simp [h])).trans (Dev.modBus_congr (by simp [doIf, hop, hresume, hwait]))

/-! ### Failed recovery and lost terminations (R187, R189) -/

theorem ssInactive_recovery (h : (d.port p).bus.ss = .recovery) (hrebus : (d.port p).bus.rebus = false)
    (hop : (d.port p).bus.op = none) : ssInactive p d =
      portEvent p { bits := 33, cause := 6, detach := true } (detachHandles p (some true) cDetached (d.modBus p (fun b => { b with
        ss := .inactive, ssSpeed := 0, recSs := false, rebus := false, ssWake := false, u3Fails := 0, lgoU3 := false }))) := by
  have hleft : (d.port p).bus.leaveSs = 0 := by simp [PortBus.leaveSs, leaveBitsS, h, hrebus]
  simp [ssInactive, hleft, hop]

theorem ssRecFailed_recovery (h : (d.port p).bus.ss = .recovery) (hop : (d.port p).bus.op = none) :
    ssRecFailed p d = ssInactive p d := by
  simp [ssRecFailed, h, hop]

/-- The first exit that a PORT_RESUME tried has failed: the port tries once more. -/
theorem ssRecFailed_firstExit {o : PortOp} (h : (d.port p).bus.ss = .u3) (hfirst : (d.port p).bus.u3Fails = 0)
    (hop : (d.port p).bus.op = some o) (hresume : o.opcode = 0x12) (hwait : o.waitSs = true) :
    ssRecFailed p d = emit (.signal p .ss .exitLfps) (d.modBus p (fun b => { b with u3Fails := 1 })) := by
  simp [ssRecFailed, h, hfirst, hop, hresume, hwait]

theorem cutPortOp_none {p : Nat} {usb2 ss : Bool} (h : (d.port p).bus.op = none) : cutPortOp p usb2 ss d = d := by
  simp [cutPortOp, h]

/-- Nothing was connected yet: no event, and no handle is lost. -/
theorem terminationsLost_polling (h : (d.port p).bus.ss = .polling) (hstart : (d.port p).bus.startReset = false)
    (hop : (d.port p).bus.op = none) : terminationsLost p d = d.modBus p (fun b => { b with
      ss := .rxDetect, ssSpeed := 0, probes := 0, recSs := false, startReset := false, rebus := false, ssWake := false
      lgoU3 := false }) := by
  have hleft : (d.port p).bus.leaveSs = 0 := by simp [PortBus.leaveSs, leaveBitsS, h]
  simp [terminationsLost, h, ssConn, hstart, hleft, cutPortOp_none, hop]

theorem terminationsLost_u0 (h : (d.port p).bus.ss = .u0) (hstart : (d.port p).bus.startReset = false) : terminationsLost p d =
    cutPortOp p false true (portEvent p { bits := 1, cause := 7, detach := true } (detachHandles p (some true) cDetached
      (d.modBus p (fun b => { b with
        ss := .rxDetect, ssSpeed := 0, probes := 0, recSs := false, startReset := false, rebus := false, ssWake := false
        lgoU3 := false })))) := by
  have hleft : (d.port p).bus.leaveSs = 0 := by simp [PortBus.leaveSs, leaveBitsS, h]
  simp [terminationsLost, h, ssConn, hstart, hleft]

theorem ssResetDone_resetting (h : (d.port p).bus.ss = .resetting) (hstart : (d.port p).bus.startReset = false) (gen2 : Bool) :
    ssResetDone p gen2 d =
      d.modBus p (fun b => { b with ss := .u0, ssSpeed := if gen2 then 5 else 4, recSs := true, startReset := false }) := by
  simp [ssResetDone, h, hstart]

end

/-- Settles O17: each row is its operation's case, by the lemmas above. -/
theorem superSpeedBusRowsComplete : Obligations.SuperSpeedBusRowsComplete := by
  refine ⟨?terminations, ?probe, ?lastProbe, ?trained, ?polled, ?lastPoll, ?uEnabled, ?uOff, ?uExit, ?u3Entry, ?u3Exit, ?u3ExitOp,
    ?recoveryFailed, ?firstExit, ?lostPolling, ?lostU0, ?resetEnd, ?functionWake⟩
  case terminations => exact fun s p hst => exec_next_of_run rfl (terminations_rxDetect hst)
  case probe => exact fun s p hst hfew => exec_next_of_run rfl (probe_goesOn hst hfew)
  case lastProbe => exact fun s p hst hmany => exec_next_of_run rfl (probe_last hst hmany)
  case trained => exact fun s p gen2 hst => exec_next_of_run rfl (trained_polling hst gen2)
  case polled => exact fun s p hst hfew => exec_next_of_run rfl (pollTimeout_again hst hfew)
  case lastPoll => exact fun s p hst hmany => exec_next_of_run rfl (pollTimeout_last hst hmany)
  case uEnabled =>
    exact fun s p u2 hst hon =>
      ⟨exec_next_of_run rfl (inactive_enabled hst hon), exec_next_of_run rfl (partnerLgoU_enabled hst hon)⟩
  case uOff =>
    exact fun s p u2 hst hoff => ⟨exec_next_of_run rfl (inactive_off hoff), exec_next_of_run rfl (partnerLgoU_off hst hoff)⟩
  case uExit => exact fun s p hst => exec_next_of_run rfl (Dev.modBus_congr (if_pos (by simpa using hst)))
  case u3Entry =>
    exact fun s p hlgo => ⟨exec_next_of_run rfl (lau_awaited hlgo), exec_next_of_run rfl (if_pos hlgo)⟩
  case u3Exit => exact fun s p partner hst hop => exec_next_of_run rfl (u3Exit_noOp hst hop partner)
  case u3ExitOp =>
    exact fun s p o hst hop hresume hwait => exec_next_of_run rfl (u3Exit_resuming hst hop hresume hwait)
  case recoveryFailed =>
    exact fun s p hst hrebus hop =>
      exec_next_of_run rfl ((ssRecFailed_recovery hst hop).trans (ssInactive_recovery hst hrebus hop))
  case firstExit =>
    rintro s p hst hfirst ⟨o, hop, hresume, hwait⟩
    exact exec_next_of_run rfl (ssRecFailed_firstExit hst hfirst hop hresume hwait)
  case lostPolling => exact fun s p hst hstart hop => exec_next_of_run rfl (terminationsLost_polling hst hstart hop)
  case lostU0 => exact fun s p hst hstart _ => exec_next_of_run rfl (terminationsLost_u0 hst hstart)
  case resetEnd => exact fun s p gen2 hst hstart => exec_next_of_run rfl (ssResetDone_resetting hst hstart gen2)
  case functionWake => exact fun s p intf hst => exec_next_of_run rfl (if_pos (beq_iff_eq.2 hst))

end Sys2Proof.Machine
end

section
/-! PROOFS. Port opcodes (R195 to R201, R204) and PD_REQUEST (R328, R329). -/
namespace Sys2Proof.Machine

/-- A row after which the power allocation and the PD policies go on ends in what its operation leaves, settled. -/
theorem exec_next_of_runP {i : Instr} {s : State} {f : Dev → Dev} {e : Dev} (hrow : exec i s = runP f s) (hleaves : f s.dev = e) :
    exec i s = .next (s.afterPd e) := by
  rw [hrow, runP_eq, hleaves]

/-- An executing entry whose port passes the checks of R195 acts on that port, whose group wakes where it sleeps (R433). -/
theorem onPort_permitted {s : State} {n q op p : Nat} {i : Dword} {e : WEnt} (h : s.Executes n q i op e)
    (hport : s.dev.physPort n (wePort e.dws) = some p) (hcode : portOpCode op p s.dev = 0) (f : Nat → List Dword → Dev → Dev) :
    onPort op n q i f s.dev = f p e.dws (pgWake p s.dev) := by
  rw [onPort, onEntry_executes h]
  simp [hport, hcode]

/-- With a transaction in progress on both buses nothing that waits for their boundaries goes on (R197 to R199). -/
theorem settlePort_busy {p : Nat} {d : Dev} (husb2 : d.busBusy p false = true) (hss : d.busBusy p true = true) :
    settlePort p d = d := by
  unfold settlePort
  cases hdue : (d.port p).bus.lpmDue <;> simp [husb2, hss, hdue]

/-! ### The opcodes, on a port whose group was woken -/

section
variable {n q : Nat} {i : Dword} {e : List Dword} {d : Dev}

section
variable {p : Nat}

/-- A port with no bus to reset: the command is done at once. -/
theorem resetAct_unconnected (husb : (d.port p).bus.usb2 = .disconnected) (hss : (d.port p).bus.ss = .rxDetect) :
    resetAct n q i p e (pgWake p d) =
      finishWe n q i cOk {} ((pgWake p d).modBus p (fun b => { b with resetRequired := false })) := by
  simp [resetAct, husb, hss]

theorem resetAct_connected (husb : (d.port p).bus.usb2 = .connected) (hss : (d.port p).bus.ss = .rxDetect) :
    resetAct n q i p e (pgWake p d) = settlePort p ((waitEnt n q i 2 0 (pgWake p d)).modBus p (fun b => { b with
      rst2 := true, rstS := true
      op := some { opcode := 0x10, slice := n, wq := q, idx := i, waitUsb2 := true, waitSs := false, onUsb2 := true
                   warm := bitOf (dwAt e 4) 0 } })) := by
  simp [resetAct, husb, hss]

theorem suspendAct_enabled (hmode : dwAt e 4 = 0) (husb : (d.port p).bus.usb2 = .enabled) (hss : (d.port p).bus.ss = .rxDetect) :
    suspendAct n q i p e (pgWake p d) = settlePort p (wakeBus p true false
      ((waitEnt n q i 2 0 (pgWake p d)).modBus p (fun b => { b with
        suspending := true, lgoDue := false
        op := some { opcode := 0x11, slice := n, wq := q, idx := i, waitUsb2 := true, waitSs := false, onUsb2 := true } }))) := by
  simp [suspendAct, hmode, husb, hss]

/-- L1 is asked for: the token waits for its boundary (R199). -/
theorem suspendAct_l1 {k : Nat} (hmode : dwAt e 4 ≠ 0) (hbesl : d.l1Besl n p = some k) (husb : (d.port p).bus.usb2 = .enabled)
    (hspeed : (d.port p).bus.usb2Speed ≠ 2) (hon : d.cfg (0x3000 + p) 0x12 ≠ 0) :
    suspendAct n q i p e (pgWake p d) = settlePort p
      ((waitEnt n q i 2 0 (pgWake p d)).modBus p (fun b => { b with
        suspending := true, lpm := true, lpmDue := some k
        op := some { opcode := 0x11, slice := n, wq := q, idx := i, waitUsb2 := true, onUsb2 := true } })) := by
  have hmode' : dwAt e 4 ≠ 0#32 := hmode
  simp [suspendAct, hmode', hbesl, husb, hspeed, hon]

theorem resumeAct_awake (husb : (d.port p).bus.usb2 = .disconnected) (hss : (d.port p).bus.ss = .u0) :
    resumeAct n q i p e (pgWake p d) = finishWe n q i cOk { r0 := 4 } (pgWake p d) := by
  simp [resumeAct, husb, hss]

theorem cycleAct_source (h : (d.port p).tc.source = true) : cycleAct n q i p e (pgWake p d) =
    tcDisable p 3 cDetached ((waitEnt n q i 2 0 (pgWake p d)).modPort p (fun x => { x with
      bus := { x.bus with op := some { opcode := 0x13, slice := n, wq := q, idx := i, offTime := bitsOf (dwAt e 4) 15 0 } }
      tc := { x.tc with offTimeHold := true } })) := by
  simp [cycleAct, h]

/-- A request that nothing ends beforehand, other than SOURCE_LIMIT and REOFFER, waits on the port for the policy (R329). -/
theorem pdAct_kept (hport : d.physPort n (wePort e) = some p) (hcode : pdCode d p e = none) (hlimit : bitsOf (dwAt e 4) 3 0 ≠ 4)
    (hreoffer : bitsOf (dwAt e 4) 3 0 ≠ 5) : pdAct n q i e d = (waitEnt n q i 2 0 d).modSeq p (fun y => { y with
      req := some {
        action := bitsOf (dwAt e 4) 3 0, slice := n, wq := q, idx := i
        mv := 50 * bitsOf (dwAt e 5) 15 0, ma := 10 * bitsOf (dwAt e 5) 31 16 } }) := by
  simp [pdAct, hport, hcode, hlimit, hreoffer]

theorem pdAct_ended {c : Nat × Nat} (hport : d.physPort n (wePort e) = some p) (hcode : pdCode d p e = some c) :
    pdAct n q i e d = finishWe n q i c.1 (pdResult d p c.2) d := by
  simp [pdAct, hport, hcode]

end

theorem resumeAct_suspended {p : PortId} (husb : (d.port p).bus.usb2 = .suspended) (hss : (d.port p).bus.ss = .rxDetect) :
    resumeAct n q i p e (pgWake p d) = emit (.signal p .usb2 .kDrive)
      (((waitEnt n q i 2 0 (pgWake p d)).modBus p (fun b => { b with
        wakeLate := false
        op := some { opcode := 0x12, slice := n, wq := q, idx := i, waitUsb2 := true, onUsb2 := true } })).modBus p (fun b => { b with
          usb2 := .resuming, wakeFirst := false })) := by
  have hwake : (Usb2St.suspended == .resuming) = false := rfl
  have hexit : (SsSt.rxDetect == .u3) = false := rfl
  simp [resumeAct, husb, hss, hwake, hexit, doIf]

end

/-- Settles O14: each opcode passes its checks and is its operation's case, by the lemmas above. -/
theorem portOpcodeRowsComplete : Obligations.PortOpcodeRowsComplete := by
  refine ⟨?resetNone, ?reset, ?waits, ?suspend, ?l1, ?awake, ?resume, ?powerCycle, ?pdKept, ?pdEnded⟩
  case resetNone =>
    exact fun s n q i e p h hport hcode husb hss =>
      exec_next_of_run rfl ((onPort_permitted h hport hcode _).trans (resetAct_unconnected husb hss))
  case reset =>
    exact fun s n q i e p h hport hcode husb hss =>
      exec_next_of_run rfl ((onPort_permitted h hport hcode _).trans (resetAct_connected husb hss))
  case waits => exact fun p d => settlePort_busy
  case suspend =>
    exact fun s n q i e p h hport hcode hmode husb hss =>
      exec_next_of_run rfl ((onPort_permitted h hport hcode _).trans (suspendAct_enabled hmode husb hss))
  case l1 =>
    exact fun s n q i e p k h hport hcode hmode hbesl husb hspeed hon =>
      exec_next_of_run rfl ((onPort_permitted h hport hcode _).trans (suspendAct_l1 hmode hbesl husb hspeed hon))
  case awake =>
    exact fun s n q i e p h hport hcode husb hss =>
      exec_next_of_run rfl ((onPort_permitted h hport hcode _).trans (resumeAct_awake husb hss))
  case resume =>
    exact fun s n q i e p h hport hcode husb hss =>
      exec_next_of_run rfl ((onPort_permitted h hport hcode _).trans (resumeAct_suspended husb hss))
  case powerCycle =>
    exact fun s n q i e p h hport hcode hsource =>
      exec_next_of_runP rfl ((onPort_permitted h hport hcode _).trans (cycleAct_source hsource))
  case pdKept =>
    exact fun s n q i e p h hport hcode hlimit hreoffer =>
      exec_next_of_runP rfl ((onEntry_executes h _).trans (pdAct_kept hport hcode hlimit hreoffer))
  case pdEnded =>
    exact fun s n q i e p c h hport hcode => exec_next_of_runP rfl ((onEntry_executes h _).trans (pdAct_ended hport hcode))

end Sys2Proof.Machine
end

section
/-! PROOFS. Timers of the PPE, its restart, and the end of a power cycle (R204, R314, R318, R324, R327, R387). -/
namespace Sys2Proof.Machine

section
variable {p : Nat} {d : Dev}

/-- The Hard_Reset is on the line: a PD_REQUEST that asked for it is done, and the supply follows (R324). -/
theorem hardResetDone_signalling (h : (d.port p).seq.hr = .signalling) : hardResetDone p d =
    finishPd p cOk 0 (d.modSeq p (fun y => { y with hr := if (d.port p).isSink then .sinkWait else .waitOff })) := by
  simp only [hardResetDone, h]
  exact congrArg (finishPd p cOk 0) (Dev.modPort_congr rfl)

theorem ppeReset_running (h : (d.port p).tc.ppeHeld = false) : ppeReset p d =
    detachBuses p 8 cDetached 0 (finishPd p cNotPermitted 6
      ((outageStart p (raise { c := 41, inst := p, half := halfOfPort p } d)).modPort p (fun x => { x with
        seq := { req := x.seq.req }, tc := { x.tc with ppeRestart := true }, pd := { x.pd with sinkTxNg := false } }))) :=
  if_neg (by simp [h])

/-- The restart ends on a port with nothing attached: attach is armed again. -/
theorem ppeRestarted_unattached (hrestart : (d.port p).tc.ppeRestart = true) (hsource : (d.port p).tc.source = false)
    (hattached : (d.port p).tc.attached = false) (hsink : (d.port p).isSink = false) :
    ppeRestarted p true d = tryArm p (outageEnd p (d.modTc p (fun y => { y with ppeRestart := false }))) := by
  simp [ppeRestarted, hrestart, hsource, hattached, hsink]

/-- A first failure is only noted; a second within 600 s would hold the port (R387). -/
theorem ppeRestarted_firstFailure (hrestart : (d.port p).tc.ppeRestart = true) (hfirst : (d.port p).tc.ppeFailAt = []) :
    ppeRestarted p false d = d.modTc p (fun y => { y with ppeFailAt := [d.now] }) := by
  simp [ppeRestarted, hrestart, hfirst]

end

/-- Settles O21: a timer acts where its condition holds; the other rows are their operations' cases, by the lemmas above. -/
theorem ppeTimerRowsComplete : Obligations.PpeTimerRowsComplete := by
  refine ⟨?psHardReset, ?srcRecover, ?hardResetComplete, ?ppsTimeout, ?keepAlive, ?vbusOn, ?restart, ?restarted, ?restartFailed,
    ?powerCycleEnd⟩
  case psHardReset => exact fun s p hhr hsource => exec_next_of_runP rfl (if_pos (by simp [hhr, hsource]))
  case srcRecover => exact fun s p hhr => exec_next_of_runP rfl (if_pos (beq_iff_eq.2 hhr))
  case hardResetComplete => exact fun s p hhr => exec_next_of_runP rfl (hardResetDone_signalling hhr)
  case ppsTimeout => exact fun s p hsource hpps => exec_next_of_runP rfl (if_pos (by simp [hsource, hpps]))
  case keepAlive => exact fun s p hsource hepr => exec_next_of_runP rfl (if_pos (by simp [hsource, hepr]))
  case vbusOn => exact fun s p hsource hout => exec_next_of_runP rfl (if_pos (by simp [hsource, hout]))
  case restart => exact fun s p hheld => exec_next_of_runP rfl (ppeReset_running hheld)
  case restarted =>
    exact fun s p hrestart hsource hattached hsink =>
      exec_next_of_runP rfl (ppeRestarted_unattached hrestart hsource hattached hsink)
  case restartFailed => exact fun s p hrestart hfirst => exec_next_of_runP rfl (ppeRestarted_firstFailure hrestart hfirst)
  case powerCycleEnd => exact fun s p hhold => exec_next_of_runP rfl (if_pos hhold)

end Sys2Proof.Machine
end

section
/-! PROOFS. The cuts of a host range at the multiples of W (R218). -/
namespace Sys2Proof.Machine

/-- What R218 asks of one request c among those cut from len bytes at address a: its bounds are multiples of w, or the range's own. -/
structure CutOf (w a len : Nat) (c : Nat × Nat) : Prop where
  nonempty : 0 < c.2
  within : c.1 / w = (c.1 + c.2 - 1) / w
  start : c.1 = a ∨ c.1 % w = 0
  stop : c.1 + c.2 = a + len ∨ (c.1 + c.2) % w = 0

section
variable {w : Nat}

/-- A request that takes less than what is left ends at the next multiple of w. -/
theorem add_min_mod_eq_zero (a len : Nat) (hw : 0 < w) (hcut : min len (w - a % w) ≠ len) : (a + min len (w - a % w)) % w = 0 := by
  have hnext : a + min len (w - a % w) = w * (a / w + 1) := by
    have hdiv := Nat.div_add_mod a w
    have hmod := Nat.mod_lt a hw
    rw [Nat.mul_add]
    omega
  rw [hnext, Nat.mul_mod_right]

theorem div_eq_of_lt_next {a n : Nat} (hpos : 0 < n) (hn : n ≤ w - a % w) : a / w = (a + n - 1) / w := by
  have hlast : a + n - 1 = a % w + (n - 1) + w * (a / w) := by
    have hdiv := Nat.div_add_mod a w
    omega
  rw [hlast, Nat.add_mul_div_left _ _ (by omega), Nat.div_eq_of_lt (a := a % w + (n - 1)) (by omega), Nat.zero_add]

theorem cutOf_first (a : Nat) {len : Nat} (hw : 0 < w) (hlen : 0 < len) : CutOf w a len (a, min len (w - a % w)) := by
  have hmod := Nat.mod_lt a hw
  have hpos : 0 < min len (w - a % w) := by omega
  refine ⟨hpos, div_eq_of_lt_next hpos (Nat.min_le_right ..), .inl rfl, ?_⟩
  by_cases hall : min len (w - a % w) = len
  · exact .inl (congrArg (a + ·) hall)
  · exact .inr (add_min_mod_eq_zero a len hw hall)

theorem cutOf_of_mem_cutRange (hw : 0 < w) {c : Nat × Nat} :
    ∀ (k a len : Nat), c ∈ cutRange w k a len → CutOf w a len c
  | 0, _, _, hmem => absurd hmem List.not_mem_nil
  | k + 1, a, len, hmem => by
    rw [cutRange] at hmem
    split at hmem
    · exact absurd hmem List.not_mem_nil
    next hlen =>
      rcases List.mem_cons.1 hmem with rfl | hrest
      · exact cutOf_first a hw (Nat.pos_of_ne_zero hlen)
      · obtain ⟨hpos, hin, hstart, hstop⟩ := cutOf_of_mem_cutRange hw k _ _ hrest
        -- a rest that is not empty begins where a multiple of w has cut
        have hcut : min len (w - a % w) ≠ len := by
          intro hall
          simp only [hall, Nat.sub_self] at hrest
          cases k <;> simp [cutRange] at hrest
        refine ⟨hpos, hin, .inr (hstart.elim (fun h => ?_) id), hstop.imp_left (fun h => by omega)⟩
        rw [h, add_min_mod_eq_zero a len hw hcut]

/-- The requests follow each other without gap or overlap, as far as their number k allows. -/
theorem flatMap_cutRange (hw : 0 < w) :
    ∀ (k a len : Nat), len ≤ k → (cutRange w k a len).flatMap (fun c => List.range' c.1 c.2) = List.range' a len
  | 0, a, len, hk => by simp [cutRange, Nat.le_zero.1 hk]
  | k + 1, a, len, hk => by
    have hmod := Nat.mod_lt a hw
    rw [cutRange]
    split
    next hlen => simp [hlen]
    next hlen =>
      rw [List.flatMap_cons, flatMap_cutRange hw k _ _ (by omega), List.range'_append_1]
      congr 1
      omega

end

/-- Settles O37: the requests tile the range, and each is bounded by multiples of W, by induction on the number of requests. -/
theorem fragmentCuts : Obligations.FragmentCuts := by
  refine ⟨fun w a len hw => ?_, fun d f => ⟨rfl, rfl⟩⟩
  rw [cuts, if_neg hw.ne']
  refine ⟨?tile, fun c hc => ?each⟩
  case tile =>
    simp only [← List.range'_eq_map_range]
    exact flatMap_cutRange hw (len + 1) a len (Nat.le_succ len)
  case each =>
    obtain ⟨hpos, hin, hstart, hstop⟩ := cutOf_of_mem_cutRange hw _ _ _ hc
    exact ⟨hpos, hin, hstart, hstop⟩

end Sys2Proof.Machine
end

section
/-! PROOFS. Ends of a quiesce, fences by register, Wash and bank power (R209, R213, R229, R230, R271, R275 to R277, R281, R282). -/
namespace Sys2Proof.Machine

/-- The slice as a quiesce that goes on leaves it: what still runs is stopped, what is due and every CI not yet written is written. -/
def quiesceFlush (n : Nat) (d : Dev) : Dev :=
  let d := drainAll n (stopAll n d)
  ((d.slice n).wqs.filter (fun w => w.2.ciDirty)).foldl (fun d w => writeCi n w.1 d) d

section
variable {d : Dev}

/-! ### Ends of a quiesce (R271, R275, R276) -/

/-- A quiesce whose every step has then ended is complete. -/
theorem quiesceEnd_drained {n : Nat} (hst : (d.slice n).st = .quiescing ∨ (d.slice n).st = .quiesceStalled)
    (hdrained : (quiesceFlush n d).drained n = true) : quiesceEnd n d =
      opEnd n cOk 0 0 0 0 (setSliceSt n .quiesced
        ((stopQueues n (holdRest n (quiesceFlush n d))).modSlice n (fun x => { x with stall := 0 }))) := by
  have hgoes : ((d.slice n).st != .quiescing && (d.slice n).st != .quiesceStalled) = false := by rcases hst with h | h <;> simp [h]
  exact (if_neg (by simp [hgoes])).trans (if_neg (c := (!(quiesceFlush n d).drained n) = true) (by simp [hdrained]))

theorem quiesceTimeout_quiescing {n : Nat} (hst : (d.slice n).st = .quiescing) (busy : Bool) : quiesceTimeout n busy d =
    (let c := d.stallCause n busy
     let d := setSliceSt n .quiesceStalled (d.modSlice n (fun x => { x with stall := c }))
     raise { c := 96, inst := n, slice := n, code := c, half := b2n ((d.slice n).half == 1) } d) :=
  if_neg (by simp [hst])

/-! ### Fences (R277, R281) -/

/-- A fenced port with only a USB 2.0 partner: that bus alone is reset, and it leaves no state that has an event. -/
theorem fenceReset_connected {p : PortId} (hwait : (d.port p).fenceWait = true) (husb : (d.port p).bus.usb2 = .connected)
    (hss : (d.port p).bus.ss = .rxDetect) : fenceReset p d = fencePortDone p (emit (.signal p .usb2 .se0) (d.modBus p (fun b => { b with
      usb2 := .resetting, ownReset := true, recUsb2 := false, l1Exit := false, recSs := false, rebus := false, ssWake := false }))) := by
  simp [fenceReset, hwait, husb, hss, usb2Conn, ssConn, leaveBits2, doIf]

theorem fenceReq_one {f : Nat} {v : Dword} (hmanager : f = d.cfg 0x2002 1) (hall : bitOf v 8 = false) (hn : bitsOf v 7 0 < d.S)
    (hst : (d.slice (bitsOf v 7 0)).st ≠ .free) : fenceReq f v d = fence [bitsOf v 7 0] none d := by
  simp [fenceReq, hmanager, hall, hn, hst]

theorem fenceReq_all {f : Nat} {v : Dword} (hmanager : f = d.cfg 0x2002 1) (hall : bitOf v 8 = true) :
    fenceReq f v d = fence d.notFree none d := by
  simp [fenceReq, hmanager, hall]

/-! ### Wash and bank power (R209, R213, R230, R282) -/

theorem washEnd_oldest {h : Nat} {w : WashItem} {r : List WashItem} (hwash : (d.half h).wash = w :: r) : washEnd h d =
    (let d := carves w.slice (d.modHalf h (fun x => { x with wash := r, used := x.used.erase w.page }))
     if washClear w.slice d then sliceWashed w.slice d else d) := by
  simp [washEnd, washDone, hwash]

theorem bankUp_awaited {h b : Nat} (hwait : (d.half h).bankWait.contains b = true) : bankUp h b d =
    (let d := d.modHalf h (fun x => { x with
       bankWait := x.bankWait.filter (fun k => k != b), bankOn := x.bankOn ||| (1#16 <<< b)
       bankReq := x.bankReq &&& ~~~(1#16 <<< b) })
     forEach d.sliceNums carves (journalPut (0x2150 + h) 1 (d.half h).bankReq.toNat d)) :=
  if_neg (by rw [hwait]; decide)

end

/-- Settles O23: each row is its operation's case, by the lemmas above. -/
theorem sliceEventRowsComplete : Obligations.SliceEventRowsComplete := by
  refine ⟨?quiesceEnd, ?quiesceTimeout, ?fenceReset, ?fenceOne, ?fenceAll, ?wash, ?bank⟩
  case quiesceEnd => exact fun s n hst hdrained => exec_next_of_run rfl (quiesceEnd_drained hst hdrained)
  case quiesceTimeout => exact fun s n busy hst => exec_next_of_run rfl (quiesceTimeout_quiescing hst busy)
  case fenceReset => exact fun s p hwait husb hss => exec_next_of_run rfl (fenceReset_connected hwait husb hss)
  case fenceOne =>
    exact fun s f v hmanager hall hn hst => exec_next_of_runP rfl (fenceReq_one hmanager hall hn hst)
  case fenceAll => exact fun s f v hmanager hall => exec_next_of_runP rfl (fenceReq_all hmanager hall)
  case wash => exact fun s h w r hwash => exec_next_of_run rfl (washEnd_oldest hwash)
  case bank => exact fun s h b hwait => exec_next_of_run rfl (bankUp_awaited hwait)

end Sys2Proof.Machine
end

section
/-! PROOFS. Power domains by request and the ends of their drains (R209, R295, R296, R432, R433). -/
namespace Sys2Proof.Machine

@[simp] theorem toPg_val (g : GroupId) : toPg g.val = g := Fin.ext (Nat.mod_eq_of_lt g.isLt)

section
variable {p : Path} {d : Dev}

/-! ### Port groups (R295, R432, R433) -/

theorem pgWrite_on {g : Nat} (hst : (d.pg g).st ≠ 2) :
    pgWrite p g 0 d = accept p (groupOn g 0 (journalPut (0x2120 + g) 1 0 d)) := by
  simp [pgWrite, hst]

/-- Port Sleep is for a group whose eight ports all may sleep. -/
theorem pgWrite_sleep {g : Nat} (hst : (d.pg g).st ≠ 2) (hports : ∀ k < 8, (d.port (8 * g + k)).bus.sleeps = true) :
    pgWrite p g 1 d = accept p (groupOn g 1 (journalPut (0x2120 + g) 1 1 d)) := by
  have hnone : (List.range 8).any (fun k => !(d.port (8 * g + k)).bus.sleeps) = false := by
    simpa only [List.any_eq_false, List.mem_range, Bool.not_eq_true', Bool.not_eq_false] using hports
  simp [pgWrite, hst, hnone]

/-- One port that may not sleep refuses it: Busy, with REASON 0 (log entry 44). -/
theorem pgWrite_sleep_refused {g k : Nat} (hst : (d.pg g).st ≠ 2) (hk : k < 8) (hport : (d.port (8 * g + k)).bus.sleeps = false) :
    pgWrite p g 1 d = refuse p cBusy 0 d := by
  have hsome : (List.range 8).any (fun k => !(d.port (8 * g + k)).bus.sleeps) = true :=
    List.any_eq_true.2 ⟨k, List.mem_range.2 hk, by simp [hport]⟩
  simp [pgWrite, hst, hsome]

theorem pgWrite_off {g : Nat} (hst : (d.pg g).st ≠ 2) (hoff : (d.pg g).st ≠ 3) :
    pgWrite p g 2 d = journalPut (0x2120 + g) 1 2 (d.modPg g (fun x => { x with req := 2, st := 2, path := some p })) := by
  simp [pgWrite, hst, hoff]

theorem drainEnd_asked {g : Nat} (hpath : (d.pg g).path = some p) :
    drainEnd g d = accept p ((groupOff g d).modPg g (fun x => { x with path := none })) := by
  simp [drainEnd, hpath]

/-! ### Upstream ports (R296) -/

theorem upOnWrite_off {u : FuncId} (hst : (d.func u).upState = 3) : upOnWrite p u d =
    accept p (emit (.linkPower u true) (journalPut (0x2140 + u) 1 0 (d.modFunc u (fun x => { x with upReq := 0, upState := 0 })))) := by
  simp [upOnWrite, hst, toFunc_val]

/-- A port outside every host group has nothing to drain. -/
theorem upOffWrite_unbound {u : Nat} (hst : (d.func u).upState = 0) (hgroup : d.groupOf u = none) : upOffWrite p u d =
    upPowerDown u (journalPut (0x2140 + u) 1 2 (d.modFunc u (fun x => { x with upReq := 2, upState := 2, upPath := some p }))) := by
  simp [upOffWrite, hst, hgroup]

/-- An Active slice of the group keeps its port on, where no proven second port carries it. -/
theorem upOffWrite_active {u g : Nat} (hst : (d.func u).upState = 0) (hgroup : d.groupOf u = some g) (hhg : d.hgSt g ≠ .proven)
    (hactive : ∃ n ∈ d.boundTo g, (d.slice n).st = .active) : upOffWrite p u d = refuse p cNotQuiesced 0 d := by
  obtain ⟨n, hn, hact⟩ := hactive
  simp only [upOffWrite, hst, hgroup]
  refine (if_neg (by decide)).trans ((if_neg (by decide)).trans ((if_neg (by simp [hhg])).trans ?_))
  exact if_pos (List.any_eq_true.2 ⟨n, hn, by simp only [hact]⟩)

/-! ### Canvas banks (R209) -/

theorem bankWrite_empty {h : Nat} {mask : BitVec 16} (hempty : ∀ b < 16, bitOf mask b = true → (d.half h).inBank b = 0) :
    bankWrite p h mask d =
      (let d := (journalPut (0x2150 + h) 1 mask.toNat d).modHalf h (fun x => { x with
         bankReq := mask, bankOn := ~~~mask, bankWait := x.bankWait.filter (fun b => bitOf mask b) })
       accept p (forEach d.sliceNums carves d)) := by
  have hnone : (List.range 16).any (fun b => bitOf mask b && 0 < (d.half h).inBank b) = false := by
    simpa [List.any_eq_false] using hempty
  exact if_neg (by simp only [hnone, Bool.false_eq_true, not_false_eq_true])

theorem bankWrite_carved {h b : Nat} {mask : BitVec 16} (hb : b < 16) (hmask : bitOf mask b = true) (hused : (d.half h).inBank b ≠ 0) :
    bankWrite p h mask d = refuse p cBusy 0 d :=
  if_pos (List.any_eq_true.2 ⟨b, List.mem_range.2 hb, by simp [hmask, Nat.pos_of_ne_zero hused]⟩)

end

/-- Settles O24: a request of the owner is its write, whose cases and those of the drains are the lemmas above. -/
theorem powerDomainRowsComplete : Obligations.PowerDomainRowsComplete := by
  refine ⟨?pgOn, ?pgSleep, ?pgSleepRefused, ?pgOff, ?pgDrained, ?pgWakes, ?upOn, ?upOff, ?upOffRefused, ?upDeadline, ?bankOff,
    ?bankCarved⟩
  case pgOn => exact fun s p g h hst => exec_next_of_runP rfl ((guarded_owned h _).trans (pgWrite_on hst))
  case pgSleep => exact fun s p g h hst hports => exec_next_of_runP rfl ((guarded_owned h _).trans (pgWrite_sleep hst hports))
  case pgSleepRefused =>
    exact fun s p g k h hst hk hport => exec_next_of_runP rfl ((guarded_owned h _).trans (pgWrite_sleep_refused hst hk hport))
  case pgOff => exact fun s p g h hst hoff => exec_next_of_runP rfl ((guarded_owned h _).trans (pgWrite_off hst hoff))
  case pgDrained =>
    intro s g p hpath
    refine exec_next_of_runP rfl ((drainEnd_asked hpath).trans ?_)
    rw [groupOff, toPg_val]
  case pgWakes => exact fun s g hst => exec_next_of_runP rfl (if_pos (by simpa using hst))
  case upOn => exact fun s p u h hst => exec_next_of_run rfl ((guarded_owned h _).trans (upOnWrite_off hst))
  case upOff => exact fun s p u h hst hgroup => exec_next_of_run rfl ((guarded_owned h _).trans (upOffWrite_unbound hst hgroup))
  case upOffRefused =>
    exact fun s p u g h hst hgroup hhg hactive =>
      exec_next_of_run rfl ((guarded_owned h _).trans (upOffWrite_active hst hgroup hhg hactive))
  case upDeadline => exact fun s u hst => exec_next_of_run rfl (if_pos hst)
  case bankOff => exact fun s p h mask hown hempty => exec_next_of_run rfl ((guarded_owned hown _).trans (bankWrite_empty hempty))
  case bankCarved =>
    exact fun s p h mask b hown hb hmask hused =>
      exec_next_of_run rfl ((guarded_owned hown _).trans (bankWrite_carved hb hmask hused))

end Sys2Proof.Machine
end

section
/-! PROOFS. The link that Mordant chooses for a slice (R234). -/
namespace Sys2Proof.Machine

/-- Of the members that are the pinned one, the first that can carry the traffic is the pin itself. -/
theorem find?_filter_beq_self (ok : Nat → Bool) (pin : Nat) (ms : List Nat) :
    (ms.filter (· == pin)).find? ok = if pin ∈ ms ∧ ok pin = true then some pin else none := by
  rw [List.filter_beq, List.find?_replicate, ite_and]
  simp only [List.count_eq_zero, ite_not]

/-- The three preferences of R234 in their order; a member beyond Sinopia needs that link (reach, log entry 10). -/
theorem Dev.pickLink_eq (d : Dev) (n h : Nat) :
    let ok := fun f => d.carries n f && d.reach h f
    let ms := d.members (d.slice n).group
    let pin := d.cfg (0x4000 + n) 0x11
    d.pickLink n h = if pin ∈ ms ∧ ok pin = true then some pin else
      ((ms.filter (fun f => halfOfFunc f == h)).find? ok).or (ms.find? ok) := by
  intro ok ms pin
  rw [pickLink, candidates, List.find?_append, List.find?_append, find?_filter_beq_self, Option.or_assoc]
  split
  · exact Option.some_or
  · exact Option.none_or

/-- The candidates are the members of the slice's group, some of them named more than once. -/
theorem Dev.mem_candidates {d : Dev} {n h f : Nat} : f ∈ d.candidates n h ↔ f ∈ d.members (d.slice n).group := by
  rw [candidates, List.mem_append, List.mem_append, List.mem_filter, List.mem_filter]
  tauto

theorem Dev.pickLink_eq_none_iff {d : Dev} {n h : Nat} :
    d.pickLink n h = none ↔ ∀ f ∈ d.members (d.slice n).group, (d.carries n f && d.reach h f) = false := by
  simp only [pickLink, List.find?_eq_none, mem_candidates, Bool.not_eq_true]

/-- Settles O39: the cases are those of the three preferences. That a member beyond Sinopia counts only while that link is up is
the model's reading of R234 (log entry 10). -/
theorem pathChoice : Obligations.PathChoice := by
  intro d n h ok ms pin
  have hpick : d.pickLink n h = if pin ∈ ms ∧ ok pin = true then some pin else
      ((ms.filter (fun f => halfOfFunc f == h)).find? ok).or (ms.find? ok) := d.pickLink_eq n h
  refine ⟨?pinned, ?near, ?other, Dev.pickLink_eq_none_iff⟩
  case pinned => exact fun hmem hok => hpick.trans (if_pos ⟨hmem, hok⟩)
  case near =>
    intro hpin f hnear
    rw [hpick, if_neg hpin, hnear, Option.some_or]
  case other =>
    intro hpin hfar
    have hnone : (ms.filter (fun f => halfOfFunc f == h)).find? ok = none := by
      simpa only [List.find?_eq_none, List.mem_filter, beq_iff_eq, and_imp, Bool.not_eq_true] using hfar
    rw [hpick, if_neg hpin, hnone, Option.none_or]

end Sys2Proof.Machine
end

section
/-! PROOFS. The counters of Palette at a microframe boundary (R251, R255, R258). -/
namespace Sys2Proof.Machine

/-! ### A pass that visits one cell once -/

section
variable {α β : Type} {P : Dev → Prop} {view : Dev → β} {f : α → Dev → Dev} {l : List α}

theorem forEach_keeps (hP : ∀ b t, P t → P (f b t)) {t : Dev} (ht : P t) : P (forEach l f t) := by
  induction l generalizing t with
  | nil => exact ht
  | cons b l ih => exact ih (hP b t ht)

/-- A pass of which no step changes what view reads. -/
theorem forEach_skips (hP : ∀ b t, P t → P (f b t)) (hskip : ∀ b ∈ l, ∀ t, P t → view (f b t) = view t) {t : Dev} (ht : P t) :
    view (forEach l f t) = view t := by
  induction l generalizing t with
  | nil => rfl
  | cons b l ih =>
    calc view (forEach l f (f b t)) = view (f b t) := ih (fun c hc => hskip c (List.mem_cons_of_mem _ hc)) (hP b t ht)
      _ = view t := hskip b List.mem_cons_self t ht

/-- A pass of which only the step for a changes what view reads, by g. -/
theorem forEach_visits {g : β → β} {a : α} (hl : l.Nodup) (ha : a ∈ l) (hP : ∀ b t, P t → P (f b t))
    (hskip : ∀ b ∈ l, b ≠ a → ∀ t, P t → view (f b t) = view t) (hvisit : ∀ t, P t → view (f a t) = g (view t))
    {t : Dev} (ht : P t) :
    view (forEach l f t) = g (view t) := by
  induction l generalizing t with
  | nil => exact absurd ha List.not_mem_nil
  | cons b l ih =>
    obtain ⟨hb, hl⟩ := List.nodup_cons.1 hl
    have htail : ∀ c ∈ l, c ≠ a → ∀ t, P t → view (f c t) = view t := fun c hc => hskip c (List.mem_cons_of_mem _ hc)
    rcases List.mem_cons.1 ha with rfl | hal
    · calc view (forEach l f (f a t)) = view (f a t) :=
            forEach_skips hP (fun c hc => htail c hc (ne_of_mem_of_not_mem hc hb)) (hP a t ht)
        _ = g (view t) := hvisit t ht
    · calc view (forEach l f (f b t)) = g (view (f b t)) := ih hl hal htail (hP b t ht)
        _ = g (view t) := congrArg g (hskip b List.mem_cons_self (ne_of_mem_of_not_mem hal hb).symm t ht)

end

/-! ### What a renewal leaves as it was: all but the engines, thus every key and budget -/

/-- t is d with other engine parts of the slices. -/
def Dev.EngsOf (d t : Dev) : Prop := ∃ e, t = { d with engs := e }

theorem Dev.EngsOf.refl (d : Dev) : d.EngsOf d := ⟨d.engs, rfl⟩

section
variable {d t : Dev}

theorem Dev.EngsOf.modPal (ht : d.EngsOf t) (n k : Nat) (g : Pal → Pal) : d.EngsOf (t.modPal n k g) := by
  obtain ⟨e, rfl⟩ := ht
  exact ⟨_, rfl⟩

theorem Dev.EngsOf.palKey (ht : d.EngsOf t) (r h : Nat) : t.palKey r h = d.palKey r h := by
  obtain ⟨e, rfl⟩ := ht
  rfl

theorem Dev.EngsOf.palBudget (ht : d.EngsOf t) (n r h : Nat) : t.palBudget n r h = d.palBudget n r h := by
  obtain ⟨e, rfl⟩ := ht
  rfl

theorem Dev.EngsOf.palCounters (ht : d.EngsOf t) : t.palCounters = d.palCounters := by
  obtain ⟨e, rfl⟩ := ht
  rfl

end

/-! ### The counters of a slice -/

section
variable {d : Dev} {n m r h k : Nat}

theorem Dev.modPal_pal_other_slice (g : Pal → Pal) (hn : n ≠ m) : (d.modPal m r g).pal n k = d.pal n k := by
  simp [Dev.pal, Dev.modPal, Dev.modEng_other _ _ _ _ hn]

theorem Dev.modPal_pal_other_key (g : Pal → Pal) (hk : k ≠ r) : (d.modPal n r g).pal n k = d.pal n k := by
  simp [Dev.pal, Dev.modPal, SliceEng.palOf, tabGet_put_other _ _ _ _ _ hk]

/-- The counters that R251 places: one per resource, and at S = 1 one on each half. -/
theorem Dev.mem_palCounters : (r, h) ∈ d.palCounters ↔ 1 ≤ r ∧ r ≤ 7 ∧ (h = 0 ∨ (d.S = 1 ∧ h = 1)) := by
  have hres : ∀ a, a ∈ (List.range 8).drop 1 ↔ 1 ≤ a ∧ a ≤ 7 := fun a => by simp [Nat.lt_succ_iff]
  have hhalf : ∀ a, (r, h) ∈ (if d.S = 1 then [(a, 0), (a, 1)] else [(a, 0)]) ↔ a = r ∧ (h = 0 ∨ (d.S = 1 ∧ h = 1)) := fun a => by
    by_cases hS : d.S = 1 <;> simp [hS, ← and_or_left, eq_comm]
  simp only [palCounters, List.mem_flatMap, hres, hhalf]
  exact ⟨fun ⟨_, ⟨hr, hr'⟩, ha, hh⟩ => ha ▸ ⟨hr, hr', hh⟩, fun ⟨hr, hr', hh⟩ => ⟨r, ⟨hr, hr'⟩, rfl, hh⟩⟩

theorem Dev.palCounters_nodup (d : Dev) : d.palCounters.Nodup := by
  unfold palCounters
  split <;> decide

/-- No two counters share a key: those of the second half stand 16 above those of the first. -/
theorem Dev.palKey_inj {c c' : Nat × Nat} (hc : c ∈ d.palCounters) (hc' : c' ∈ d.palCounters)
    (hkey : d.palKey c.1 c.2 = d.palKey c'.1 c'.2) : c = c' := by
  obtain ⟨hr, hr', hh⟩ := mem_palCounters.1 hc
  obtain ⟨hs, hs', hh'⟩ := mem_palCounters.1 hc'
  simp only [palKey, Bool.and_eq_true, decide_eq_true_eq] at hkey
  split_ifs at hkey <;> exact Prod.ext (by omega) (by omega)

theorem Dev.notFree_nodup (d : Dev) : d.notFree.Nodup := List.nodup_range.filter _

/-! ### Renewal -/

/-- One counter of slice n at the boundary: a step of renewSlice. -/
def renewCounter (n : Nat) (c : Nat × Nat) (d : Dev) : Dev :=
  d.modPal n (d.palKey c.1 c.2) (fun p => p.renew (d.palBudget n c.1 c.2))

theorem renewSlice_eq (n : Nat) (d : Dev) : renewSlice n d = forEach d.palCounters (renewCounter n) d := rfl

theorem Dev.EngsOf.renewCounter {t : Dev} (ht : d.EngsOf t) (n : Nat) (c : Nat × Nat) : d.EngsOf (renewCounter n c t) :=
  ht.modPal ..

theorem Dev.EngsOf.renewSlice {t : Dev} (ht : d.EngsOf t) (n : Nat) : d.EngsOf (renewSlice n t) :=
  renewSlice_eq n t ▸ forEach_keeps (fun c _ hu => hu.renewCounter n c) ht

theorem renewSlice_pal_other (hn : n ≠ m) : (renewSlice m d).pal n k = d.pal n k := by
  rw [renewSlice_eq]
  exact forEach_same (fun t => t.pal n k) _ _ d (fun _ _ => Dev.modPal_pal_other_slice _ hn)

/-- The boundary renews each counter of the slice once, with the budget that stood before it. -/
theorem renewSlice_pal (hc : (r, h) ∈ d.palCounters) :
    (renewSlice n d).pal n (d.palKey r h) = (d.pal n (d.palKey r h)).renew (d.palBudget n r h) := by
  rw [renewSlice_eq]
  refine forEach_visits (P := d.EngsOf) (view := fun t => t.pal n (d.palKey r h)) (g := fun p => p.renew (d.palBudget n r h))
    d.palCounters_nodup hc (fun c _ ht => ht.renewCounter n c) ?skip ?visit (.refl d)
  case skip =>
    intro c hmem hne t ht
    refine Dev.modPal_pal_other_key _ ?_
    rw [ht.palKey]
    exact fun hkey => hne (Dev.palKey_inj hmem hc hkey.symm)
  case visit =>
    intro t ht
    simp only [renewCounter, ht.palKey, ht.palBudget, Dev.modPal_same]

/-- The boundary of the reserve reaches no slice. -/
theorem renewReserve_pal : (renewReserve d).pal n k = d.pal n k := rfl

theorem palPeriod_pal (hn : n ∈ d.notFree) (hc : (r, h) ∈ d.palCounters) :
    (palPeriod d).pal n (d.palKey r h) = (d.pal n (d.palKey r h)).renew (d.palBudget n r h) := by
  refine renewReserve_pal.trans (forEach_visits (P := d.EngsOf) (view := fun t => t.pal n (d.palKey r h))
    (g := fun p => p.renew (d.palBudget n r h)) d.notFree_nodup hn (fun m _ ht => ht.renewSlice m) ?skip ?visit (.refl d))
  case skip => exact fun m _ hm t _ => renewSlice_pal_other hm.symm
  case visit =>
    intro t ht
    have hslice := renewSlice_pal (n := n) (ht.palCounters.symm ▸ hc)
    rwa [ht.palKey, ht.palBudget] at hslice

theorem palPeriod_pal_free (hn : n ∉ d.notFree) : (palPeriod d).pal n k = d.pal n k :=
  renewReserve_pal.trans (forEach_skips (P := d.EngsOf) (view := fun t => t.pal n k) (fun m _ ht => ht.renewSlice m)
    (fun _ hm _ _ => renewSlice_pal_other (ne_of_mem_of_not_mem hm hn).symm) (.refl d))

end

theorem debtOf_eq_max (v : Int) : (debtOf v : Int) = max 0 (-v) := (Int.toNat_eq_max _).trans (max_comm ..)

theorem Pal.renew_counter (p : Pal) (b : Nat) :
    (p.renew b).counter = (b : Int) - (max 0 (-p.counter) + max 0 (-p.far)) := by
  simp only [renew, Nat.cast_add, debtOf_eq_max]

/-- A debt is never negative: what was left of the old period is not added to the budget. -/
theorem Pal.renew_counter_le (p : Pal) (b : Nat) : (p.renew b).counter ≤ b :=
  Int.sub_le_self _ (Int.natCast_nonneg _)

@[simp] theorem Pal.renew_far (p : Pal) (b : Nat) : (p.renew b).far = 0 := rfl

/-- Settles O45: the boundary renews each counter of a slice that is not Free once, and reaches none of a slice that is Free. -/
theorem paletteRenewal : Obligations.PaletteRenewal := by
  intro d n
  refine ⟨?renewed, fun hfree k => palPeriod_pal_free hfree⟩
  case renewed =>
    intro hn r h hr hr' hh k
    have hrenew : (palPeriod d).pal n k = (d.pal n k).renew (d.palBudget n r h) :=
      palPeriod_pal hn (Dev.mem_palCounters.2 ⟨hr, hr', hh⟩)
    rw [hrenew]
    exact ⟨Pal.renew_counter .., Pal.renew_counter_le .., Pal.renew_far ..⟩

end Sys2Proof.Machine
end

section
/-! PROOFS. A step of the machine: what every command leaves behind, idle steps as cycles of the Gesso clock, and the reset state. -/
namespace Sys2Proof.Machine

/-! ### Every command completes -/

/-- No row faults or is refused: each one changes the part, and its memory operations are applied. -/
theorem exec_after (i : Instr) (s : State) : ∃ d, exec i s = .next (s.after d) := by
  cases i
  all_goals exact ⟨_, rfl⟩

theorem State.after_settled (s : State) (d : Dev) : (s.after d).Settled := rfl

theorem State.after_canonical {s : State} (h : s.Canonical) (d : Dev) : (s.after d).Canonical := Memory.fold_wf d.memOps s.mem h

/-- Settles O3: a command ends in the state after some change of the part (that each completes in every state is log entry 7). -/
theorem everyCommandCompletes : Obligations.EveryCommandCompletes := by
  intro i s
  obtain ⟨d, h⟩ := exec_after i s
  exact ⟨s.after d, h, rfl, s.after_settled d, fun hs => State.after_canonical hs d⟩

/-! ### Steps -/

theorem step_cons {s : State} {c : Instr} {r : List Instr} (h : s.pending = c :: r) : step s = exec c { s with pending := r } := by
  simp [step, h]

theorem step_idle {s : State} (h : s.pending = []) : step s = .next { s with dev := gessoTick s.dev } := by
  simp [step, h]

/-- Settles O1, by the equation of step on a queue with a front command. -/
theorem stepRunsTheFrontCommand : Obligations.StepRunsTheFrontCommand := fun _ _ _ => step_cons

theorem gessoTick_memOps (d : Dev) : (gessoTick d).memOps = d.memOps := by
  simp only [gessoTick]
  split <;> rfl

/-- Settles O4: an idle step touches neither the memories nor their operations, and a command keeps the form by O3's lemma. -/
theorem stepsKeepTheMemoriesCanonical : Obligations.StepsKeepTheMemoriesCanonical := by
  intro s t hcanon hsettled h
  cases hq : s.pending with
  | nil =>
    rw [step_idle hq] at h
    cases h
    exact ⟨hcanon, (gessoTick_memOps s.dev).trans hsettled⟩
  | cons c r =>
    rw [step_cons hq] at h
    obtain ⟨t', hexec, -, ht, hc⟩ := everyCommandCompletes c { s with pending := r }
    cases h.symm.trans hexec
    exact ⟨hc hcanon, ht⟩

/-! ### The Gesso clock (R395, R429) -/

theorem gessoTick_stopped {d : Dev} (h : d.gesso.clock = false) : gessoTick d = d := by
  simp [gessoTick, h]

/-- A cycle of the running clock changes the time and nothing else. -/
theorem gessoTick_running {d : Dev} (h : d.gesso.clock = true) :
    gessoTick d = { d with gesso := { d.gesso with
      seconds := (gessoTick d).gesso.seconds, subsec := (gessoTick d).gesso.subsec } } := by
  simp [gessoTick, h]

/-- Seconds of 32768 cycles: the time is a counter of 47 bits. -/
theorem gessoTick_now {d : Dev} (h : d.gesso.clock = true) : (gessoTick d).now = (d.now + 1) % 2 ^ 47 := by
  have hsec := d.gesso.seconds.isLt
  have hsub := d.gesso.subsec.isLt
  by_cases hlast : d.gesso.subsec.toNat + 1 = 32768
  · simp [gessoTick, h, Dev.now, Config.gessoHz, hlast, BitVec.toNat_add]
    omega
  · simp [gessoTick, h, Dev.now, Config.gessoHz, hlast, BitVec.toNat_add]
    omega

/-- n idle steps with the clock running count n cycles, and only the time has changed. -/
theorem idleSteps_now (n : Nat) : ∀ s : State, s.pending = [] → s.dev.gesso.clock = true →
    ∃ t, Steps n s t ∧ t.dev.now = (s.dev.now + n) % 2 ^ 47 ∧
      t = { s with dev := { s.dev with gesso := { s.dev.gesso with seconds := t.dev.gesso.seconds, subsec := t.dev.gesso.subsec } } } := by
  induction n with
  | zero =>
    intro s _ _
    have hsec := s.dev.gesso.seconds.isLt
    have hsub := s.dev.gesso.subsec.isLt
    refine ⟨s, rfl, ?_, rfl⟩
    simp [Dev.now, Config.gessoHz]
    omega
  | succ n ih =>
    intro s hq hclock
    have htick := gessoTick_running hclock
    have hclock' : (gessoTick s.dev).gesso.clock = true := by rw [htick]; exact hclock
    obtain ⟨t, hsteps, hnow, ht⟩ := ih { s with dev := gessoTick s.dev } hq hclock'
    refine ⟨t, ⟨_, step_idle hq, hsteps⟩, ?_, ?_⟩
    · rw [hnow, gessoTick_now hclock]
      omega
    · rw [ht, htick]

/-- Settles O2: a stopped clock keeps the part, and a running one counts by induction on the steps. -/
theorem idleStepsCountTheGessoClock : Obligations.IdleStepsCountTheGessoClock := by
  refine ⟨fun s hq hstop => ?_, idleSteps_now⟩
  rw [step_idle hq, gessoTick_stopped hstop]

/-! ### The reset state -/

/-- The configuration at reset is the table of defaults: nothing is stored. -/
theorem reset_cfg (idx sub : Nat) : State.reset.dev.cfg idx sub = objDflt idx sub := rfl

/-- Settles O5: the tables of State.reset are empty, and its objects are at their defaults. That reset stands in the power-on cold start,
with the retained counts and the fault record at 0, is the model's choice (log entries 1 and 2). -/
theorem resetState : Obligations.ResetState := by
  refine ⟨rfl, rfl, rfl, rfl, rfl, rfl, rfl, fun _ => rfl, fun _ => rfl, ?S, ?can, ?admin, rfl, rfl, rfl, rfl⟩
  case S => rw [reset_cfg]; rfl
  case can => simp only [Dev.isOwner, reset_cfg]; rfl
  case admin => simp only [Dev.isOwner, reset_cfg]; rfl

end Sys2Proof.Machine
end

section
/-! PROOFS. Raised events: the counts and the pending set of R420 and R423, and the fault record of R395 and R396. -/
namespace Sys2Proof.Machine

/-! ### The event store -/

theorem putRecord_events (sev : Nat) (e : Ev) (d : Dev) : (putRecord sev e d).events = d.events := rfl

/-- The stores of a raise: every one of its fields but the count of lost frames. -/
theorem raise_events (e : Ev) (d : Dev) : ∃ k, (raise e d).events = { d.events with
    count := tabPut d.events.count e.c (tabGet 0 d.events.count e.c + 1), seconds := tabPut d.events.seconds e.c d.gesso.seconds
    inst := tabPut d.events.inst e.c (BitVec.ofNat 16 e.inst), who := tabPut d.events.who e.c (e.slice, e.half)
    pending := d.events.pending ||| (1#256 <<< e.c), lost := k } := by
  obtain ⟨cs, k, h⟩ := raise_split e d
  refine ⟨k, ?_⟩
  rw [h]
  split <;> rfl

/-- Setting bit c of a set of 256 causes. -/
theorem bitOf_setBit (v : BitVec 256) (c : Nat) {k : Nat} (hk : k < 256) : bitOf (v ||| (1#256 <<< c)) k = (bitOf v k || k == c) := by
  simp only [bitOf, BitVec.getLsbD_or, BitVec.getLsbD_shiftLeft, BitVec.getLsbD_one]
  congr 1
  rw [Bool.eq_iff_iff]
  simp
  omega

/-! ### The fault record -/

/-- A cause of severity 1 to 3 writes its record last, where the clock and the record are still those of d. -/
theorem raise_record {e : Ev} (d : Dev) (h : Config.causeSeverity e.c ≠ 0) :
    ∃ d', d'.gesso = d.gesso ∧ raise e d = putRecord (Config.causeSeverity e.c) e d' := by
  obtain ⟨cs, k, hraise⟩ := raise_split e d
  rw [if_neg h] at hraise
  exact ⟨_, by rfl, hraise⟩

section
variable (sev : Nat) (e : Ev) (d : Dev)

theorem putRecord_slot : tabGet {} (putRecord sev e d).gesso.fr d.gesso.frNext = {
    valid := true, severity := sev, cause := e.c, unit := if e.unit = 0 then causeUnit e.c else e.unit, half := e.half == 1
    seq := d.gesso.frTotal, seconds := d.gesso.seconds, sub := d.gesso.subsec.toNat, inst := BitVec.ofNat 16 e.inst
    slice := BitVec.ofNat 8 e.slice, code := BitVec.ofNat 8 e.code, mf := BitVec.ofNat 32 (d.half e.half).mf.toNat
    key := d.freeCtr, detail := e.detail.map (BitVec.ofNat 32) } := tabGet_put_same ..

theorem putRecord_otherSlot {k : Nat} (h : k ≠ d.gesso.frNext) :
    tabGet {} (putRecord sev e d).gesso.fr k = tabGet {} d.gesso.fr k := tabGet_put_other _ _ _ _ _ h

/-- FIRST_FATAL is taken once (R396). -/
theorem putRecord_firstFatal {sev : Nat} (h3 : sev = 3) (h : d.gesso.frFatal = none) :
    (putRecord sev e d).gesso.frFatal = some (tabGet {} (putRecord sev e d).gesso.fr d.gesso.frNext) := by
  simp [putRecord, h3, h]

theorem putRecord_fatalKept {sev : Nat} (h : sev ≠ 3 ∨ d.gesso.frFatal ≠ none) :
    (putRecord sev e d).gesso.frFatal = d.gesso.frFatal := by
  rcases h with h | h <;> simp [putRecord, h]

end

/-- Settles O36: the event store by `raise_events`, the fault record as the one `putRecord` writes in slot NEXT. -/
theorem eventsAndFaultRecords : Obligations.EventsAndFaultRecords := by
  refine ⟨?store, raise_gesso_zero, ?record⟩
  case store =>
    intro e d
    obtain ⟨k, h⟩ := raise_events e d
    rw [h]
    refine ⟨?_, ?_, ?_, fun c hc => ⟨?_, ?_, ?_⟩, fun c hc => bitOf_setBit _ _ hc⟩
    iterate 3 exact tabGet_put_same ..
    all_goals exact tabGet_put_other _ _ _ _ _ hc
  case record =>
    intro e d hsev
    obtain ⟨d', hgesso, h⟩ := raise_record d hsev
    rw [h, ← hgesso]
    have hslot := putRecord_slot (Config.causeSeverity e.c) e d'
    dsimp only
    refine ⟨?_, ?_, ?_, ?_, ?_, ?_, ?_, ?_, ?_, fun k hk => putRecord_otherSlot _ _ _ hk, rfl, rfl, putRecord_firstFatal e d',
      putRecord_fatalKept e d'⟩
    all_goals rw [hslot]

end Sys2Proof.Machine
end

section
/-! PROOFS. CC lines, attach timers and VSNS: the transitions of the attach state machine (R302 to R305, R311, R313, R462). -/
namespace Sys2Proof.Machine

section
variable {p : Nat} {d : Dev}

/-! ### The CC lines (R302, R305) -/

theorem tcNow_unattachedSnk (hlevel : d.gesso.level ≠ 2) (hst : (d.port p).tc.st = .unattachedSnk) (hrp : (d.port p).tc.anyRp = true) :
    tcNow p d = tcGo p .attachWaitSnk d := by
  simp [tcNow, hlevel, hst, hrp]

theorem tcNow_attachWaitSrc (hlevel : d.gesso.level ≠ 2) (hst : (d.port p).tc.st = .attachWaitSrc)
    (hopen : (d.port p).tc.bothOpen = true) : tcNow p d = tcGo p .unattachedSnk d := by
  simp [tcNow, hlevel, hst, hopen]

/-- A transition of the attach state leaves the sequences of PD as they are. -/
theorem tcNow_seq : ((tcNow p d).port p).seq = (d.port p).seq := by
  simp only [tcNow]
  repeat' split
  all_goals simp [tcGo]

/-- With no PD sequence that waits for SinkTxOk (R311), a change of the CC lines is a transition of the attach state. -/
theorem ccChanged_noWait (hwait : (d.port p).seq.wait = none) (a b : CcTerm) :
    ccChanged p a b d = tcNow p (d.modTc p (fun x => { x with cc1 := a, cc2 := b, debounced := false })) := by
  simp [ccChanged, tcNow_seq, hwait]

theorem toggle_unattachedSnk (hlevel : d.gesso.level = 0) (hst : (d.port p).tc.st = .unattachedSnk) :
    toggle p d = tcNow p (tcGo p .unattachedSrc d) := by
  simp [toggle, hlevel, hst]

theorem toggle_unattachedSrc (hlevel : d.gesso.level = 0) (hst : (d.port p).tc.st = .unattachedSrc) :
    toggle p d = tcNow p (tcGo p .unattachedSnk d) := by
  simp [toggle, hlevel, hst]

/-! ### The attach timers (R302, R313) -/

/-- One CC line with Rd is neither two with Ra nor two with Rd: no accessory (R304). -/
theorem TypeC.bothRa_of_oneRd {x : TypeC} (h : x.oneRd = true) : x.bothRa = false := by
  rw [Bool.eq_false_iff]
  intro hra
  obtain ⟨h1, h2⟩ : x.cc1 = .ra ∧ x.cc2 = .ra := by simpa [TypeC.bothRa] using hra
  simp [TypeC.oneRd, h1, h2] at h

theorem TypeC.bothRd_of_oneRd {x : TypeC} (h : x.oneRd = true) : x.bothRd = false := by
  rw [Bool.eq_false_iff]
  intro hrd
  obtain ⟨h1, h2⟩ : x.cc1 = .rd ∧ x.cc2 = .rd := by simpa [TypeC.bothRd] using hrd
  simp [TypeC.oneRd, h1, h2] at h

/-- One Rd for tCCDebounce at vSafe0V, on a port that does not try to be sink first. -/
theorem tcHeld_attachWaitSrc (hdeb : (d.port p).tc.debounced = true) (hst : (d.port p).tc.st = .attachWaitSrc)
    (hrd : (d.port p).tc.oneRd = true) (hv : (d.port p).tc.vbusMv < 800) (htry : d.cfg (0x3100 + p) 1 ≠ 1) :
    tcHeld p d = enterSrc p d := by
  simp [tcHeld, hdeb, hst, TypeC.bothRa_of_oneRd hrd, TypeC.bothRd_of_oneRd hrd, hrd, hv, htry]

theorem openHeld_attachWaitSnk (hst : (d.port p).tc.st = .attachWaitSnk) (hopen : (d.port p).tc.bothOpen = true) :
    openHeld p d = tcGo p .unattachedSnk d := by
  simp [openHeld, hst, hopen]

theorem openHeld_attachedSrc (hst : (d.port p).tc.st = .attachedSrc) (hatt : (d.port p).tc.attached = true)
    (hopen : (d.port p).tc.attachedCc = .opened) : openHeld p d = tcDetach p d := by
  simp [openHeld, hst, hatt, hopen]

theorem tryHeld_source (hst : (d.port p).tc.st = .trySrc ∨ (d.port p).tc.st = .tryWaitSrc) (hrd : (d.port p).tc.oneRd = true) :
    tryHeld p d = enterSrc p d := by
  rcases hst with h | h <;> simp [tryHeld, h, hrd]

theorem drpTry_trySrc (hst : (d.port p).tc.st = .trySrc) (hrd : (d.port p).tc.anyRd = false) : drpTry p d = tcGo p .tryWaitSnk d := by
  simp [drpTry, hst, hrd]

theorem drpTry_trySnk (hst : (d.port p).tc.st = .trySnk) : drpTry p d = d.modTc p (fun x => { x with tdrpTry := true }) := by
  simp [drpTry, hst]

end

theorem execTccdebounceExpiry_source {s : State} {p : PortId} (hst : (s.dev.port p).tc.st = .attachWaitSrc)
    (hrd : (s.dev.port p).tc.oneRd = true) (hv : (s.dev.port p).tc.vbusMv < 800) (htry : s.dev.cfg (0x3100 + p) 1 ≠ 1) :
    exec (.tccdebounceExpiry p) s = .next (s.afterPd (enterSrc p (s.dev.modTc p (fun x => { x with debounced := true })))) := by
  refine exec_next_of_runP rfl ?_
  rw [hst]
  refine tcHeld_attachWaitSrc (by simp) (by simp [hst]) ?_ (by simpa using hv) htry
  rw [Dev.modTc_tc]
  exact hrd

/-- Settles O18: each row makes the transition that its state asks for, by the lemmas above. -/
theorem typeCRowsComplete : Obligations.TypeCRowsComplete := by
  refine ⟨?rpSeen, ?opened, ?toggleSnk, ?toggleSrc, fun _ _ => execTccdebounceExpiry_source, ?openSnk, ?openSrc, ?tryCc, ?drpTrySrc,
    ?drpTrySnk, ?tryTimeout, ?recovered, fun _ _ _ => rfl, ?vddCc⟩
  case rpSeen =>
    intro s p a b hst hrp hwait hlevel
    refine exec_next_of_runP rfl ((ccChanged_noWait hwait a b).trans (tcNow_unattachedSnk hlevel (by simp [hst]) ?_))
    simpa [TypeC.anyRp] using hrp
  case opened =>
    intro s p hst hwait hlevel
    exact exec_next_of_runP rfl ((ccChanged_noWait hwait _ _).trans
      (tcNow_attachWaitSrc hlevel (by simp [hst]) (by simp [TypeC.bothOpen])))
  case toggleSnk => exact fun s p hlevel hst => exec_next_of_runP rfl (toggle_unattachedSnk hlevel hst)
  case toggleSrc => exact fun s p hlevel hst => exec_next_of_runP rfl (toggle_unattachedSrc hlevel hst)
  case openSnk => exact fun s p hst hopen => exec_next_of_runP rfl (openHeld_attachWaitSnk hst hopen)
  case openSrc => exact fun s p hst hatt hopen => exec_next_of_runP rfl (openHeld_attachedSrc hst hatt hopen)
  case tryCc => exact fun s p hst hrd => exec_next_of_runP rfl (tryHeld_source hst hrd)
  case drpTrySrc => exact fun s p hst hrd => exec_next_of_runP rfl (drpTry_trySrc hst hrd)
  case drpTrySnk => exact fun s p hst => exec_next_of_runP rfl (drpTry_trySnk hst)
  case tryTimeout => exact fun s p hst => exec_next_of_runP rfl (if_pos (beq_iff_eq.2 hst))
  case recovered => exact fun s p hst => exec_next_of_runP rfl (if_pos (beq_iff_eq.2 hst))
  case vddCc => exact fun s p hst => exec_next_of_runP rfl (if_pos (beq_iff_eq.2 hst))

end Sys2Proof.Machine
end

section
/-! PROOFS. Messages of PD, and the protocol layer (R308 to R312, R315, R324, R365). -/
namespace Sys2Proof.Machine

/-! ### Messages (R308, R312, R315, R365) -/

/-- A message with a new MessageID has been seen: GoodCRC has gone out, and the MessageID and the partner's revision are noted. -/
def pdSeen (p : PortId) (rev3 : Bool) (id : Fin 8) (d : Dev) : Dev :=
  ((emit (.goodCrc p .sop id) d).modSeq p (fun y => { y with rxId := tabPut y.rxId 0 id.val })).modPd p
    (fun y => { y with partnerRev := if rev3 then 2 else 1 })

/-- What a message that has been seen does: waits says whether the policy is away, or behind. -/
def seenIn (p : PortId) (m : PdMsg) (waits : Bool) (d : Dev) : Dev :=
  if m == .drSwap then pdTx p .sop .reject d
  else if m == .bist true || m == .bist false then bistIn p (m == .bist true) d
  else if waits then
    (doIf (d.deviceFull (halfOfPort p)) (Dev.modEasel (halfOfPort p) (fun z => { z with heldEvents := z.heldEvents + 1 })) d).modSeq p
      (fun y => { y with pendAns := y.pendAns ++ [m] })
  else policyIn p m d

section
variable {p : PortId} {d : Dev} {id : Fin 8}

/-- GoodCRC is sent unless the policy is away, or behind, and four messages wait (R365). -/
def Dev.takesMsg (d : Dev) (p : Nat) : Prop :=
  (d.policyUp p = true ∧ (d.port p).seq.pendAns = []) ∨ (d.port p).seq.pendAns.length < 4

/-- What takesMsg says of the test that messageIn makes. -/
theorem Dev.takesMsg.few (h : d.takesMsg p) : (Sop.sop == .sop && (!(d.policyUp p) || (d.port p).seq.pendAns.length != 0) &&
    decide (4 ≤ (d.port p).seq.pendAns.length)) = false := by
  rcases h with ⟨hup, hnone⟩ | hfew
  · simp [hup, hnone]
  · simp [Nat.not_le.2 hfew]

theorem messageIn_softReset (hatt : (d.port p).tc.attached = true) (hon : d.pdOn p = true) (htakes : d.takesMsg p) (rev3 : Bool) :
    messageIn p .sop rev3 id .softReset d = softResetIn p .sop (emit (.goodCrc p .sop id) d) := by
  simp only [messageIn, hatt, hon, htakes.few, toPort_val]
  rfl

theorem messageIn_repeated {m : PdMsg} (hatt : (d.port p).tc.attached = true) (hon : d.pdOn p = true) (htakes : d.takesMsg p)
    (hsoft : m ≠ .softReset) (hid : tabFind (d.port p).seq.rxId 0 = some id.val) (rev3 : Bool) :
    messageIn p .sop rev3 id m d = emit (.goodCrc p .sop id) d := by
  have hsoft' : (m == .softReset) = false := by simpa using hsoft
  have hid' : (tabFind (d.port p).seq.rxId (sopKey .sop) == some id.val) = true := by simpa [sopKey] using hid
  simp only [messageIn, hatt, hon, htakes.few, hsoft', hid', toPort_val]
  rfl

/-- A message with a new MessageID, and no Soft_Reset, is seen; DR_Swap is rejected and BIST carried out by the hardware (R315), and
the policy answers the rest, or they wait for it. -/
theorem messageIn_seen {m : PdMsg} (hatt : (d.port p).tc.attached = true) (hon : d.pdOn p = true) (htakes : d.takesMsg p)
    (hsoft : m ≠ .softReset) (hid : tabFind (d.port p).seq.rxId 0 ≠ some id.val) (rev3 : Bool) :
    messageIn p .sop rev3 id m d = seenIn p m (!(d.policyUp p) || (d.port p).seq.pendAns.length != 0)
      (cancelWait p m (pdSeen p rev3 id d)) := by
  have hsoft' : (m == .softReset) = false := by simpa using hsoft
  have hid' : (tabFind (d.port p).seq.rxId (sopKey .sop) == some id.val) = false := by simpa [sopKey] using hid
  simp only [messageIn, hatt, hon, htakes.few, hsoft', hid', toPort_val]
  rfl

theorem seenIn_policy {m : PdMsg} (hswap : m ≠ .drSwap) (hbist : ∀ c, m ≠ .bist c) : seenIn p m false d = policyIn p m d := by
  simp [seenIn, hswap, hbist]

theorem seenIn_drSwap (waits : Bool) : seenIn p .drSwap waits d = pdTx p .sop .reject d := rfl

theorem seenIn_bist (c waits : Bool) : seenIn p (.bist c) waits d = bistIn p c d := by
  cases c <;> rfl

theorem seenIn_waits {m : PdMsg} (hswap : m ≠ .drSwap) (hbist : ∀ c, m ≠ .bist c) (hfull : d.deviceFull (halfOfPort p) = false) :
    seenIn p m true d = d.modSeq p (fun y => { y with pendAns := y.pendAns ++ [m] }) := by
  simp [seenIn, hswap, hbist, hfull, doIf]

theorem cancelWait_none {p : Nat} (h : (d.port p).seq.wait = none) (m : PdMsg) : cancelWait p m d = d := by
  simp [cancelWait, h]

/-! ### GoodCRC and its timer (R308, R309) -/

theorem goodCrcIn_own {p : Nat} {t : PdTx} (htx : (d.port p).seq.tx = some t) :
    goodCrcIn p t.so t.id d = pdSent p t.so t.msg (pdNext p d) := by
  simp [goodCrcIn, htx]

theorem noGoodCrc_retry {t : PdTx} (htx : (d.port p).seq.tx = some t) (hfew : t.retries < 2) :
    noGoodCrc p t.so d = emit (.pd p t.so t.id t.msg)
      (d.modSeq p (fun x => { x with tx := some { t with retries := t.retries + 1 } })) := by
  simp [noGoodCrc, htx, hfew]

theorem noGoodCrc_failed {p : Nat} {t : PdTx} (htx : (d.port p).seq.tx = some t) (hmany : 2 ≤ t.retries) :
    noGoodCrc p t.so d = pdNext p (d.modPd p (fun x => { x with txFailed := x.txFailed + 1 })) := by
  simp [noGoodCrc, htx, Nat.not_lt.2 hmany]

end

theorem execTsinktxExpiry_waiting {s : State} {p : PortId} {m : PdMsg} (hwait : (s.dev.port p).seq.wait = some m)
    (hsource : (s.dev.port p).tc.source = true) :
    exec (.tsinktxExpiry p) s = .next (s.afterPd (pdSend p m (s.dev.modSeq p (fun x => { x with wait := none })))) := by
  refine exec_next_of_runP rfl ?_
  simp only [hwait, hsource, if_true]

theorem execPpeAutoAnswer_waiting {s : State} {p : PortId} {m : PdMsg} {r : List PdMsg} (h : (s.dev.port p).seq.pendAns = m :: r) :
    exec (.ppeAutoAnswer p) s = .next (s.afterPd (ppeAnswer p m (s.dev.modSeq p (fun x => { x with pendAns := r })))) := by
  refine exec_next_of_runP rfl ?_
  simp only [h]

/-- Settles O19: what a message meets is decided before it is seen, and what it does after, by the lemmas above. -/
theorem pdProtocolRowsComplete : Obligations.PdProtocolRowsComplete := by
  refine ⟨?policy, ?hardware, ?waits, ?repeated, ?softReset, ?goodCrc, ?retry, ?failed, ?hardReset, fun _ _ => rfl,
    fun _ _ _ => execTsinktxExpiry_waiting, fun _ _ _ _ => execPpeAutoAnswer_waiting, fun _ _ => rfl⟩
  case policy =>
    intro s p rev3 id m hatt hon hup hnone hsoft hswap hbist hid
    refine exec_next_of_runP rfl ((messageIn_seen hatt hon (.inl ⟨hup, hnone⟩) hsoft hid rev3).trans ?_)
    rw [hup, hnone]
    exact seenIn_policy hswap hbist
  case hardware =>
    intro s p rev3 id c hatt hon hfew hid
    have hseen := fun (m : PdMsg) (hsoft : m ≠ .softReset) => messageIn_seen hatt hon (.inr hfew) hsoft hid rev3
    exact ⟨exec_next_of_runP rfl ((hseen (.bist c) (by simp)).trans (seenIn_bist c _)),
      exec_next_of_runP rfl ((hseen .drSwap (by simp)).trans (seenIn_drSwap _))⟩
  case waits =>
    intro s p rev3 id m hatt hon hdown hfew hsoft hswap hbist hfull hid hwait
    refine exec_next_of_runP rfl ((messageIn_seen hatt hon (.inr hfew) hsoft hid rev3).trans ?_)
    rw [hdown, cancelWait_none (by simp [pdSeen, hwait])]
    exact seenIn_waits hswap hbist hfull
  case repeated =>
    exact fun s p rev3 id m hatt hon hfew hsoft hid =>
      exec_next_of_runP rfl (messageIn_repeated hatt hon (.inr hfew) hsoft hid rev3)
  case softReset =>
    exact fun s p rev3 id hatt hon hfew => exec_next_of_runP rfl (messageIn_softReset hatt hon (.inr hfew) rev3)
  case goodCrc =>
    intro s p t id htx hid
    refine exec_next_of_runP rfl ?_
    rw [← hid]
    exact goodCrcIn_own htx
  case retry => exact fun s p t htx hfew => exec_next_of_runP rfl (noGoodCrc_retry htx hfew)
  case failed => exact fun s p t htx hmany => exec_next_of_runP rfl (noGoodCrc_failed htx hmany)
  case hardReset => exact fun s p hon => exec_next_of_runP rfl (if_pos hon)

end Sys2Proof.Machine
end

section
/-! PROOFS. Timers of the policy of PD (R306, R307, R314, R321, R324, R325, R329). -/
namespace Sys2Proof.Machine

section
variable {p : Nat} {d : Dev}

/-! ### No answer of the partner (R307, R314) -/

theorem noAnswerIn_request (hexpect : (d.port p).seq.expect = .request) (hcontract : (d.port p).pd.contract = true) :
    noAnswerIn p d = hardReset p true d := by
  simp [noAnswerIn, hexpect, hcontract]

theorem noAnswerIn_answer (hexpect : (d.port p).seq.expect = .answer ∨ (d.port p).seq.expect = .swapAnswer) :
    noAnswerIn p d = finishPd p cNotPermitted 6 (d.modSeq p (fun y => { y with expect := .none, swap := .none, newRdo := none })) := by
  rcases hexpect with h | h <;> simp [noAnswerIn, h]

theorem noAnswerIn_softAccept (hexpect : (d.port p).seq.expect = .softAccept) : noAnswerIn p d = hardReset p true d := by
  simp [noAnswerIn, hexpect]

/-! ### Voltage transitions and swaps (R321) -/

theorem srcTransition_source {r : Rdo} (hswap : (d.port p).seq.swap = .none) (hsource : (d.port p).tc.source = true)
    (htrans : (d.port p).seq.trans = true) (hrdo : (d.port p).seq.newRdo = some r) (hramp : (d.port p).seq.ramping = false)
    (hhr : (d.port p).seq.hr = .none) :
    srcTransition p d = stageVoltage p (d.port p).seq.newMv (d.modSeq p (fun y => { y with ramping := true })) := by
  simp [srcTransition, hswap, hsource, htrans, hrdo, hramp, hhr]

theorem swapTimeout_at {st : SwapSt} (h : (d.port p).seq.swap = st) : swapTimeout p st d = errorRecovery p d := by
  simp [swapTimeout, h]

/-! ### Capabilities and the cable (R306, R325) -/

theorem capsAgain_few (hsource : (d.port p).tc.source = true) (hcontract : (d.port p).pd.contract = false)
    (htrans : (d.port p).seq.trans = false) (hrdo : (d.port p).seq.newRdo = none) (htx : (d.port p).seq.tx = none)
    (hsent : 0 < (d.port p).pd.capsSent) (hfew : (d.port p).pd.capsSent < 50) : capsAgain p d = pdSend p (d.capsMsg p) d := by
  simp [capsAgain, hsource, hcontract, htrans, hrdo, htx, hsent.ne', Nat.not_le.2 hfew]

theorem capsAgain_many (hsource : (d.port p).tc.source = true) (hcontract : (d.port p).pd.contract = false)
    (htrans : (d.port p).seq.trans = false) (hrdo : (d.port p).seq.newRdo = none) (htx : (d.port p).seq.tx = none)
    (hmany : 50 ≤ (d.port p).pd.capsSent) : capsAgain p d = d.modPd p (fun y => { y with pdOff := true }) := by
  have hsent : (d.port p).pd.capsSent ≠ 0 := by omega
  simp [capsAgain, hsource, hcontract, htrans, hrdo, htx, hsent, hmany]

theorem identityTimeout_few (hvconn : (d.port p).pd.vconn = true) (hid : (d.port p).pd.idDone = false)
    (hasked : 0 < (d.port p).pd.idAttempts) (hfew : (d.port p).pd.idAttempts < 3) : identityTimeout p d = askIdentity p d := by
  simp [identityTimeout, hvconn, hid, hasked.ne', hfew]

theorem identityTimeout_last (hvconn : (d.port p).pd.vconn = true) (hid : (d.port p).pd.idDone = false)
    (hmany : 3 ≤ (d.port p).pd.idAttempts) :
    identityTimeout p d = firstCaps p (d.modPd p (fun y => { y with idDone := true })) := by
  have hasked : (d.port p).pd.idAttempts ≠ 0 := by omega
  simp [identityTimeout, hvconn, hid, hasked, Nat.not_lt.2 hmany]

end

/-! ### Rows that look at the sequence themselves (R324, R325, R329) -/

section
variable {s : State} {p : PortId}

theorem execTsinkrequestExpiry_again {m : PdMsg} (h : (s.dev.port p).seq.again = some m) :
    exec (.tsinkrequestExpiry p) s = .next (s.afterPd (pdBegin p m (s.dev.modSeq p (fun x => { x with
      again := none, req := x.req.map (fun r => { r with repeated := r.repeated || r.begun }) })))) := by
  refine exec_next_of_runP rfl ?_
  simp only [h]

theorem execTnoresponseExpiry_few (hhr : (s.dev.port p).seq.hr = .sinkWait) (hfew : (s.dev.port p).pd.hrCount < 2) :
    exec (.tnoresponseExpiry p) s = .next (s.afterPd (s.dev.modSeq p (fun x => { x with hr := .none, trans := false }))) := by
  refine exec_next_of_runP rfl ?_
  simp [hhr, Nat.not_le.2 hfew]

theorem execTnoresponseExpiry_many (hhr : (s.dev.port p).seq.hr = .sinkWait) (hmany : 2 ≤ (s.dev.port p).pd.hrCount) :
    exec (.tnoresponseExpiry p) s = .next (s.afterPd (errorRecovery p
      (s.dev.modSeq p (fun x => { x with hr := .none, trans := false })))) := by
  refine exec_next_of_runP rfl ?_
  simp [hhr, hmany]

end

/-- Settles O20: each timer acts in the sequence that it belongs to, by the lemmas above. What TNORESPONSE_EXPIRY does before and after
two Hard_Resets is the model's reading of R325 (log entry 38). -/
theorem pdPolicyTimerRowsComplete : Obligations.PdPolicyTimerRowsComplete := by
  refine ⟨?request, ?answer, ?softAccept, ?transition, ?sourceOff, ?sourceOn, ?swapStart, ?capsAgain, ?capsLast, ?firstCaps,
    ?identity, ?identityLast, ?vconn, fun _ _ _ => execTsinkrequestExpiry_again, fun _ _ => execTnoresponseExpiry_few,
    fun _ _ => execTnoresponseExpiry_many⟩
  case request => exact fun s p hexpect hcontract => exec_next_of_runP rfl (noAnswerIn_request hexpect hcontract)
  case answer => exact fun s p hexpect => exec_next_of_runP rfl (noAnswerIn_answer hexpect)
  case softAccept => exact fun s p hexpect => exec_next_of_runP rfl (noAnswerIn_softAccept hexpect)
  case transition =>
    exact fun s p r hswap hsource htrans hrdo hramp hhr =>
      exec_next_of_runP rfl (srcTransition_source hswap hsource htrans hrdo hramp hhr)
  case sourceOff => exact fun s p hswap => exec_next_of_runP rfl (swapTimeout_at hswap)
  case sourceOn => exact fun s p hswap => exec_next_of_runP rfl (swapTimeout_at hswap)
  case swapStart =>
    exact fun s p hsource hcontract hcaps hidle => exec_next_of_runP rfl (if_pos (by simp [hsource, hcontract, hcaps, hidle]))
  case capsAgain =>
    exact fun s p hsource hcontract htrans hrdo htx hsent hfew =>
      exec_next_of_runP rfl (capsAgain_few hsource hcontract htrans hrdo htx hsent hfew)
  case capsLast =>
    exact fun s p hsource hcontract htrans hrdo htx hmany =>
      exec_next_of_runP rfl (capsAgain_many hsource hcontract htrans hrdo htx hmany)
  case firstCaps =>
    exact fun s p hsource hout hcontract hcaps => exec_next_of_runP rfl (if_pos (by simp [hsource, hout, hcontract, hcaps]))
  case identity =>
    exact fun s p hvconn hid hasked hfew => exec_next_of_runP rfl (identityTimeout_few hvconn hid hasked hfew)
  case identityLast => exact fun s p hvconn hid hmany => exec_next_of_runP rfl (identityTimeout_last hvconn hid hmany)
  case vconn => exact fun s p hexpect => exec_next_of_runP rfl (if_pos (beq_iff_eq.2 hexpect))

end Sys2Proof.Machine
end

section
/-! PROOFS. Power stages on the Stage Link, STOP lines, the supply alert and the allocation (R335, R339 to R346, R351 to R353). -/
namespace Sys2Proof.Machine

/-! ### Answers of a stage (R335, R339 to R341) -/

section
variable {g k : Nat} {d : Dev} {f r : Dword} {l : List Dword}

/-- A good frame from the stage that was asked: the link goes on, and the stage is there. -/
def stageAnswered (g k : Nat) (d : Dev) : Dev := pslNext g (d.modStage (8 * g + k) (fun x => { x with fails := 0, lost := false }))

theorem filter_goodFrame (hok : frameOk r = true) (hraddr : frameAddr r = k) (hrcmd : frameCmd r = 0) :
    (some r).filter (fun r => frameOk r && frameAddr r == k && frameCmd r != 2) = some r := by
  rw [Option.filter_some, hok, hraddr, hrcmd, beq_self_eq_true]
  rfl

theorem pslAnswer_current (hframes : (d.pg g).frames = f :: l) (haddr : frameAddr f = k) (hpoll : frameCmd f = 8) (hchan : frameArg f = 0)
    (hok : frameOk r = true) (hraddr : frameAddr r = k) (hrcmd : frameCmd r = 0) :
    pslAnswer g k (some r) d = (stageAnswered g k d).modPort (8 * g + k) (fun y => { y with stage := { y.stage with
      curMa := 10 * frameArg r, samples := (y.tc.vbusMv * (10 * frameArg r) / 1000 :: y.stage.samples).take 8 } }) := by
  simp only [pslAnswer, hframes, haddr, bne_self_eq_false, Bool.false_eq_true, if_false, filter_goodFrame hok hraddr hrcmd, hpoll, hrcmd,
    hchan]
  rfl

theorem pslAnswer_fault (hframes : (d.pg g).frames = f :: l) (haddr : frameAddr f = k) (hpoll : frameCmd f = 8) (hchan : frameArg f = 3)
    (hok : frameOk r = true) (hraddr : frameAddr r = k) (hrcmd : frameCmd r = 0) (hflags : frameArg r ≠ 0) :
    pslAnswer g k (some r) d = stageFault (8 * g + k) (frameArg r % 256) false (stageAnswered g k d) := by
  have hflags' : (frameArg r != 0) = true := bne_iff_ne.2 hflags
  simp only [pslAnswer, hframes, haddr, bne_self_eq_false, Bool.false_eq_true, if_false, filter_goodFrame hok hraddr hrcmd, hpoll, hrcmd,
    hchan, hflags']
  rfl

/-- The first two failures in a row send the frame again. -/
theorem pslAnswer_again (hframes : (d.pg g).frames = f :: l) (haddr : frameAddr f = k) (hfew : (d.port (8 * g + k)).stage.fails < 2) :
    pslAnswer g k none d = emit (.psl (toPg g) f) ((d.modPg g (fun y => { y with pslFailures := y.pslFailures + 1 })).modStage
      (8 * g + k) (fun y => { y with fails := y.fails + 1 })) := by
  simp [pslAnswer, hframes, haddr, hfew]

end

/-! ### STOP lines (R345, R346) -/

theorem execStop_served {s : State} {p : Path} {v : Byte} (h : s.Serves p) (hv : v.toNat ≤ 1) (g : GroupId) :
    exec (.stop p g v) s = .next (s.afterPd (accept p (setStop g (v.toNat = 1) s.dev))) := by
  refine exec_next_of_runP rfl ?_
  rw [entered_serves h, if_neg (Nat.not_lt.2 hv)]

/-- A STOP that was not set is an event (R346). -/
theorem setStop_set {g : Nat} {d : Dev} (h : (d.pg g).stop = false) : setStop g true d =
    driveStop g (journalPut (0x3200 + g) 2 1 ((raise { c := 162, inst := g, half := g / 12 } d).modPg g (fun x => { x with stop := true }))) := by
  simp [setStop, h, b2n]

theorem setStop_clear (g : Nat) (d : Dev) : setStop g false d =
    driveStop g (journalPut (0x3200 + g) 2 0 (d.modPg g (fun x => { x with stop := false }))) := rfl

theorem forceSafe_fall {d : Dev} (h : d.gesso.forceSafeN = true) : forceSafe true d = forEach allGroups driveStop
    (raise { c := 163 } { d with gesso := { d.gesso with forceSafeN := false } }) := by
  simp [forceSafe, h]

theorem forceSafe_rise {d : Dev} (h : d.gesso.forceSafeN = false) : forceSafe false d = forEach allGroups driveStop
    { d with gesso := { d.gesso with forceSafeN := true } } := by
  simp [forceSafe, h]

/-! ### Rows that look at the port or the supply themselves (R342, R344, R353) -/

/-- No stage of the group answers: the alert is only counted. -/
theorem execPslAlert_absent {s : State} {g : GroupId} (h : ∀ k < 8, (s.dev.port (8 * g + k)).stage.present = false) :
    exec (.pslAlert g) s = .next (s.afterPd (s.dev.modPg g (fun x => { x with alerts := x.alerts + 1 }))) := by
  refine exec_next_of_runP rfl (forEach_fixed _ _ _ (fun k hk => if_neg ?_))
  simp [h k (List.mem_range.1 hk)]

theorem execIlimitClipTimer_lowered {s : State} {p : PortId} (hlow : (s.dev.port p).stage.lowered = true)
    (hcontract : (s.dev.port p).pd.contract = true) :
    exec (.ilimitClipTimer p) s = .next (s.afterPd (stageLimit p (s.dev.pPort p * 1100 / (s.dev.port p).pd.mv)
      (s.dev.modStage p (fun y => { y with lowered := false })))) :=
  exec_next_of_runP rfl (if_pos (by simp [hlow, hcontract]))

theorem execSupplyAlertFall_run {s : State} (hhigh : s.dev.sys.alertLow = false) (hrun : s.dev.gesso.level = 0) :
    exec .supplyAlertFall s = .next (s.afterPd (allocate (raise { c := 160 } { s.dev with sys := { s.dev.sys with
      alertLow := true, alertHold := true, alertCount := s.dev.sys.alertCount + 1 } }))) := by
  refine exec_next_of_runP rfl ?_
  simp [hhigh, hrun]

/-- Settles O25: an answer is read by what the frame on the link asked, a line is driven by what changed, by the lemmas above. -/
theorem powerStageRowsComplete : Obligations.PowerStageRowsComplete := by
  refine ⟨?current, ?fault, ?again, fun _ _ hlevel => exec_next_of_runP rfl (if_pos hlevel), fun _ _ => execPslAlert_absent, ?retry,
    fun _ _ => execIlimitClipTimer_lowered, ?stopSet, ?stopClear, ?safeFall, ?safeRise, fun _ => execSupplyAlertFall_run, fun _ => rfl,
    ?holdExpiry, fun _ => rfl⟩
  case current =>
    exact fun s g k f r l hframes haddr hpoll hchan hok hraddr hrcmd =>
      exec_next_of_runP rfl (pslAnswer_current hframes haddr hpoll hchan hok hraddr hrcmd)
  case fault =>
    exact fun s g k f r l hframes haddr hpoll hchan hok hraddr hrcmd hflags =>
      exec_next_of_runP rfl (pslAnswer_fault hframes haddr hpoll hchan hok hraddr hrcmd hflags)
  case again =>
    intro s g k f l hframes haddr hfew
    have hlink := pslAnswer_again hframes haddr hfew
    rw [toPg_val] at hlink
    exact exec_next_of_runP rfl hlink
  case retry => exact fun s p hhold => exec_next_of_runP rfl (if_pos hhold)
  case stopSet =>
    intro s p g hserves hstop
    rw [← setStop_set hstop]
    exact execStop_served hserves (by decide) g
  case stopClear =>
    intro s p g hserves
    rw [← setStop_clear]
    exact execStop_served hserves (by decide) g
  case safeFall => exact fun s h => exec_next_of_runP rfl (forceSafe_fall h)
  case safeRise => exact fun s h => exec_next_of_runP rfl (forceSafe_rise h)
  case holdExpiry => exact fun s hhigh => exec_next_of_runP rfl (if_neg (by simp [hhigh]))

end Sys2Proof.Machine
end

section
/-! PROOFS. Tasks of the Easel, core restarts, live update and the builder (R357, R361 to R363, R366 to R369, R372 to R375). -/
namespace Sys2Proof.Machine

@[simp] theorem toCore_val (c : CoreId) : toCore c.val = c := Fin.ext (Nat.mod_eq_of_lt c.isLt)

section
variable {c : CoreId} {d : Dev}

/-! ### Tasks (R357, R361, R363) -/

theorem take_idle (hup : d.coreUp c = true) (hidle : (d.core c).cur = none) :
    take c d = giveTasks (c / 6) (d.modCore c (fun x => { x with taking := true })) := by
  simp [take, hup, hidle]

theorem endTask_device {t : Task} (hcur : (d.core c).cur = some t) (hslice : t.slice = 255) (cycles : Nat) :
    endTask c cycles d = giveTasks (c / 6) (d.modCore c (fun x => { x with cur := none })) := by
  simp [endTask, hcur, hslice]

/-- A slice's task on a vendor core is charged to the slice's CORE counter (R260). -/
theorem endTask_slice {t : Task} (hcur : (d.core c).cur = some t) (hslice : t.slice ≠ 255) (hvendor : isBuilder c = false) (cycles : Nat) :
    endTask c cycles d = giveTasks (c / 6) ((d.modCore c (fun x => { x with cur := none })).modPal t.slice
      ((d.modCore c (fun x => { x with cur := none })).palKey 7 (c / 6)) (fun p => p.charge false cycles)) := by
  simp [endTask, hcur, hslice, hvendor]

theorem postTask_invalid {w : List Dword} (hup : d.coreUp c = true) (hinvalid : d.postInvalid c w = true) :
    postTask c w d = emit (.csr c 2) d := by
  simp [postTask, post357, hup, hinvalid, w32]

theorem postTask_full {w : List Dword} (hup : d.coreUp c = true) (hvalid : d.postInvalid c w = false) (hfull : d.postFull c w = true) :
    postTask c w d = emit (.csr c 1) d := by
  simp [postTask, post357, hup, hvalid, hfull, w32]

theorem postTask_posted {w : List Dword} (hup : d.coreUp c = true) (hvalid : d.postInvalid c w = false) (hroom : d.postFull c w = false) :
    postTask c w d = emit (.csr c (addTask (c / 6) w d).1) (emit (.csr c 0) (addTask (c / 6) w d).2) := by
  simp [postTask, post357, hup, hvalid, hroom, w32]

theorem yieldTask_running {t : Task} (hcur : (d.core c).cur = some t) (cycles : Nat) (w : List Dword) :
    yieldTask c cycles w d = (post357 c (w.set 1 (dwAt w 1 &&& 0xFF000000)) (endTask c cycles d)).2.2 := by
  simp [yieldTask, hcur]

theorem cancelTask_delayed {hd : Dword} (hup : d.coreUp c = true)
    (hdelayed : (d.half (c / 6)).easel.delay.any (fun t => t.handle == hd) = true) :
    cancelTask c hd d = emit (.csr c 0) (d.modEasel (c / 6) (fun e => { e with
      delay := e.delay.filter (fun t => t.handle != hd), ready := e.ready.filter (fun t => t.handle != hd) })) := by
  simp only [cancelTask, hup, hdelayed, toCore_val]
  rfl

/-! ### Wedged cores (R366, R375) -/

theorem updateCut_noUpdate {d : Dev} (h : d.update.st ≠ 1) : updateCut d = d := by
  simp [updateCut, h]

/-- An idle vendor core that wedges outside an update: nothing is put back, and no wedge of it is remembered. -/
theorem wedge_vendorIdle (hst : (d.core c).st = 1) (hvendor : isBuilder c = false) (hupdate : d.update.st ≠ 1)
    (hidle : (d.core c).cur = none) :
    wedge c d = giveTasks (c / 6) (raise { c := 40, inst := c, half := c / 6 } (d.modCore c (fun x => { x with
      st := 2, restarts := x.restarts + 1, taking := false, dictReq := none, dictBlocked := false, wedgeAt := [] }))) := by
  have hrequeue : requeue c d = d := by simp [requeue, hidle]
  simp [wedge, hst, hrequeue, updateCut_noUpdate hupdate, hvendor]

theorem coreBack_vendor (hst : (d.core c).st = 2) (hvendor : isBuilder c = false) :
    coreBack c d = giveTasks (c / 6) (d.modCore c (fun x => { x with st := 1 })) := by
  simp [coreBack, hst, hvendor]

/-! ### Live update (R367 to R369) -/

theorem updateCmd_accepted {p : Path} {cs : List Nat} (hidle : d.update.st ≠ 1) (hcores : ∀ k < 12, (d.core k).st ≠ 2 ∧ (d.core k).st ≠ 3)
    (hstaged : d.flash.st d.inactive = 3) (hversion : d.flash.minVersion.toNat ≤ d.start.fwVersion.toNat)
    (hvendor : cs.any isBuilder = false) :
    updateCmd p cs d = updateNext (accept p { d with update := { d.update with st := 1, queue := cs } }) := by
  have hbusy : (List.range 12).any (fun c => (d.core c).st = 2 || (d.core c).st = 3) = false := by
    simpa using hcores
  simp only [updateCmd, hidle, hbusy, hstaged, Nat.not_lt.2 hversion, hvendor]
  rfl

theorem coreLoaded_ok (hupdate : d.update.st = 1) (hcore : d.update.core = c) (hst : (d.core c).st = 3) :
    coreLoaded c true d = updateNext
      (let v := d.flash.ver d.inactive
       let e := giveTasks (c / 6) (d.modCore c (fun x => { x with st := 1, version := v }))
       if d.update.queue.isEmpty && vendorCores.all (fun k => (e.core k).version == v) then
         { e with start := { e.start with part := e.inactive, fwVersion := v } } else e) := by
  simp [coreLoaded, hupdate, hcore, hst]

theorem coreLoaded_bad (hupdate : d.update.st = 1) (hcore : d.update.core = c) (hst : (d.core c).st = 3) :
    coreLoaded c false d = updateEnd 3 cIntegrity (giveTasks (c / 6) (d.modCore c (fun x => { x with st := 1 }))) := by
  simp [coreLoaded, hupdate, hcore, hst]

/-! ### The builder (R372, R374) -/

theorem objAnswer_refused {f : Path × Nat × Nat × List Byte} {code : Nat} (hfwd : d.update.fwd = some f) (hbuilder : isBuilder c = true)
    (hup : d.coreUp c = true) (hcode : 0x80 ≤ code) :
    objAnswer c code d = refuse f.1 code 0 { d with update := { d.update with fwd := none } } := by
  have hzero : code ≠ 0 := by omega
  simp [objAnswer, hfwd, hbuilder, hup, hzero, hcode]

theorem objAnswer_accepted {f : Path × Nat × Nat × List Byte} (hfwd : d.update.fwd = some f) (hbuilder : isBuilder c = true)
    (hup : d.coreUp c = true) :
    objAnswer c 0 d = accept f.1 (storeObj ((d.builderRow f.2.1 f.2.2.1).elim Cls.none (fun o => o.cls)) f.2.1 f.2.2.1 (ofBytes f.2.2.2)
      { d with update := { d.update with fwd := none } }) := by
  simp [objAnswer, hfwd, hbuilder, hup]

theorem refuseForwarded_some {f : Path × Nat × Nat × List Byte} (hfwd : d.update.fwd = some f) :
    refuseForwarded d = refuse f.1 cBusy 4 { d with update := { d.update with fwd := none } } := by
  simp [refuseForwarded, hfwd]

theorem builderEvent_raised {v : Dword} (hbuilder : isBuilder c = true) (hup : d.coreUp c = true) (hcause : 240 ≤ bitsOf v 7 0) :
    builderEvent c v d = raise { c := bitsOf v 7 0, inst := bitsOf v 23 8, detail := some (bitsOf v 31 8), half := c / 6 } d := by
  simp [builderEvent, hbuilder, hup, hcause]

end

/-! ### Rows of a builder core, and requests of the owner -/

section
variable {s : State} {c : CoreId} {p : Path}

theorem execDictReq_taken (hbuilder : isBuilder c = true) (hup : s.dev.coreUp c = true) (hfree : (s.dev.core c).dictReq = none)
    (idx : BitVec 16) (sub : Byte) (write : Bool) (v : List Byte) :
    exec (.dictReq c idx sub write v) s = .next (s.afterPd (serveBuilder c
      (s.dev.modCore c (fun x => { x with dictReq := some (idx.toNat, sub.toNat, write, v) })))) :=
  exec_next_of_runP rfl (if_neg (by simp [hbuilder, hup, hfree]))

theorem execDictWait_answered (hbuilder : isBuilder c = true) (hup : s.dev.coreUp c = true) (hfree : (s.dev.core c).dictReq = none) :
    exec (.dictWait c) s = .next (s.after (dictDeliver c s.dev)) := by
  refine exec_next_of_run rfl ?_
  simp [hbuilder, hup, hfree]

theorem execUpdateCmdCore_owned (h : s.Owned p) (c : CoreId) :
    exec (.updateCmdCore p c) s = .next (s.afterPd (updateCmd p [c.val] s.dev)) := exec_next_of_runP rfl (guarded_owned h _)

theorem execUpdateCmdAll_owned (h : s.Owned p) :
    exec (.updateCmdAll p) s = .next (s.afterPd (updateCmd p vendorCores s.dev)) := exec_next_of_runP rfl (guarded_owned h _)

theorem execBuilderReload_owned (h : s.Owned p) (ok : Bool) (v : Dword) :
    exec (.builderReload p 1 ok v) s = .next (s.after (loadBuilder ok v 2 (refuseForwarded (accept p s.dev)))) :=
  exec_next_of_run rfl (guarded_owned h _)

theorem execTaskPost_posted {w : List Dword} (hup : s.dev.coreUp c = true) (hvalid : s.dev.postInvalid c w = false)
    (hroom : s.dev.postFull c w = false) (hnow : bitsOf (dwAt w 1) 23 0 = 0) :
    exec (.taskPost c w) s = .next (s.after
      (let h := c.val / 6
       let e := (s.dev.half h).easel
       let used := (s.dev.easelTasks h).map (fun t => t.slot)
       let slot := ((List.range 4096).find? (fun k => !(used.contains k))).getD 0
       let hd := w32 (slot + 4096 * tabGet 0 e.gens slot)
       emit (.csr c hd) (emit (.csr c 0) (giveTasks h (s.dev.modEasel h (fun e => { e with
         gens := tabPut e.gens slot ((tabGet 0 (s.dev.half h).easel.gens slot + 1) % 2 ^ 20), peak := max e.peak (used.length + 1)
         ready := e.ready ++ [{
           dws := w.set 2 hd, slot := slot, gen := tabGet 0 (s.dev.half h).easel.gens slot
           due := (s.dev.half h).easel.tick }] })))))) := by
  refine exec_next_of_run rfl ((postTask_posted hup hvalid hroom).trans ?_)
  simp only [addTask, hnow]
  rfl

end

/-- Settles O26: each row acts on its core, its half's lists, or the update, by the lemmas above. The slot that TASK_POST takes, with
its generation, and when the staged partition becomes the active one, are the model's choices (log entries 45 and 46). -/
theorem easelRowsComplete : Obligations.EaselRowsComplete := by
  refine ⟨?take, ?endDevice, ?endSlice, fun _ _ _ => execTaskPost_posted, ?invalid, ?full, ?yield, ?cancel, fun _ _ => rfl, ?wedge, ?back,
    ?updateCore, ?updateAll, ?loaded, fun _ _ idx sub write v hb hup hfree => execDictReq_taken hb hup hfree idx sub write v,
    fun _ _ => execDictWait_answered, ?event, ?refused, ?accepted, ?timeout, fun _ _ ok v h => execBuilderReload_owned h ok v⟩
  case take => exact fun s c hup hidle => exec_next_of_run rfl (take_idle hup hidle)
  case endDevice =>
    exact fun s c cycles t hcur hslice => exec_next_of_runP rfl (congrArg serveHeld (endTask_device hcur hslice cycles))
  case endSlice =>
    exact fun s c cycles t hcur hslice hvendor =>
      exec_next_of_runP rfl (congrArg serveHeld (endTask_slice hcur hslice hvendor cycles))
  case invalid => exact fun s c w hup hinvalid => exec_next_of_run rfl (postTask_invalid hup hinvalid)
  case full => exact fun s c w hup hvalid hfull => exec_next_of_run rfl (postTask_full hup hvalid hfull)
  case yield => exact fun s c cycles w t hcur => exec_next_of_runP rfl (congrArg serveHeld (yieldTask_running hcur cycles w))
  case cancel => exact fun s c hd hup hdelayed => exec_next_of_runP rfl (congrArg serveHeld (cancelTask_delayed hup hdelayed))
  case wedge =>
    exact fun s c hst hvendor hupdate hidle =>
      exec_next_of_runP rfl (congrArg serveHeld (wedge_vendorIdle hst hvendor hupdate hidle))
  case back => exact fun s c hst hvendor => exec_next_of_runP rfl (congrArg serveHeld (coreBack_vendor hst hvendor))
  case updateCore =>
    intro s p c hown hidle hcores hstaged hversion hvendor
    rw [execUpdateCmdCore_owned hown, updateCmd_accepted hidle hcores hstaged hversion (by simp [hvendor])]
  case updateAll =>
    intro s p hown hidle hcores hstaged hversion
    rw [execUpdateCmdAll_owned hown, updateCmd_accepted hidle hcores hstaged hversion (by decide)]
  case loaded =>
    exact fun s c hupdate hcore hst =>
      ⟨exec_next_of_runP rfl (congrArg serveHeld (coreLoaded_ok hupdate hcore hst)),
        exec_next_of_runP rfl (congrArg serveHeld (coreLoaded_bad hupdate hcore hst))⟩
  case event => exact fun s c v hbuilder hup hcause => exec_next_of_run rfl (builderEvent_raised hbuilder hup hcause)
  case refused =>
    exact fun s c code f hfwd hbuilder hup hcode => exec_next_of_run rfl (objAnswer_refused hfwd hbuilder hup hcode)
  case accepted => exact fun s c f hfwd hbuilder hup => exec_next_of_run rfl (objAnswer_accepted hfwd hbuilder hup)
  case timeout => exact fun s f hfwd => exec_next_of_run rfl (refuseForwarded_some hfwd)

end Sys2Proof.Machine
end

section
/-! PROOFS. Rows of the owner, from a path that does not own the configuration (R401, R404, R405, R416). -/
namespace Sys2Proof.Machine

section
variable {s : State} {p : Path}

/-- The check of R401 rule 3 comes before the value of the request is looked at. -/
theorem guarded_other (h : s.Serves p) (hother : s.dev.isOwner p = false) (okValue : Bool) (f : Dev → Dev) :
    guarded p okValue f s.dev = refuse p cNotPermitted 7 s.dev := by
  rw [guarded, entered_serves h]
  simp [hother]

theorem guardedLow_other (h : s.Serves p) (hother : s.dev.isOwner p = false) (okValue loader : Bool) (f : Dev → Dev) :
    guardedLow p okValue loader f s.dev = refuse p cNotPermitted 7 s.dev := by
  rw [guardedLow, entered_serves h]
  simp [hother]

/-- Of the manager's operations, SLICE_FENCE alone is open to every path (R416). -/
theorem managerOp_other {op : Nat} {d : Dev} (hother : d.isOwner p = false) (hfence : op ≠ 0x42) (b : OpBlock) (image : List Dword) :
    managerOp p op b image d = refuse p cNotPermitted 7 d := by
  simp [managerOp, hother, hfence]

end

/-- Settles O42: each row is guarded by the check of the owner, or is an operation of the manager, by the lemmas above. After the
rows that R351 follows, the power is allocated again. -/
theorem onlyTheOwnerConfigures : Obligations.OnlyTheOwnerConfigures := by
  intro s p hserves hother pd no
  have hpd : ∀ f, runP (guarded p true f) s = pd := fun f => by rw [runP_eq, guarded_other hserves hother]
  have hno : ∀ f, run (guarded p true f) s = no := fun f => by rw [run_eq, guarded_other hserves hother]
  have hlow : ∀ f, run (guardedLow p true true f) s = no := fun f => by rw [run_eq, guardedLow_other hserves hother]
  have hop : ∀ op b image, op ≠ 0x42 → runP (entered p false (managerOp p op b image)) s = pd :=
    fun op b image hfence => runP_managerOp hserves (managerOp_other hother hfence b image)
  have hreload : ∀ v b w, exec (.builderReload p v b w) s = no := fun v b w => by
    show run (guarded p (v.toNat ≤ 1) (reloadBuilder p v.toNat b w)) s = no
    rw [run_eq, guarded_other hserves hother]
  exact ⟨hpd _, hpd _, hpd _, hpd _, fun _ => hpd _, fun _ => hpd _, fun _ => hpd _, fun _ => hno _, fun _ => hno _, fun _ _ => hno _,
    fun _ => hpd _, hpd _, hreload, hlow _, hlow _, fun b => ⟨hop 0x40 b [] (by decide), hop 0x41 b [] (by decide),
      hop 0x43 b [] (by decide), hop 0x44 b [] (by decide), hop 0x45 b [] (by decide), hop 0x46 b [] (by decide),
      fun image => hop 0x47 b image (by decide), hop 0x48 b [] (by decide), hop 0x49 b [] (by decide), hop 0x4A b [] (by decide)⟩⟩

end Sys2Proof.Machine
end

section
/-! PROOFS. The two ways into Safe hold, and the way out: thermal trips, failed starts and LOCK_CLEAR (R448 to R450, R478). -/
namespace Sys2Proof.Machine

/-! ### Everything stopped -/

/-- What both ways into Safe hold leave: the halves in reset, STOP_N low, no slice, the device not ready. -/
structure Dev.Held (d : Dev) : Prop where
  half0 : (d.half 0).inReset = true
  half1 : (d.half 1).inReset = true
  stopLow : ∀ g < 24, (d.pg g).stopLow = true
  noSlice : ∀ n, (d.slice n).st = .free
  notReady : d.start.deviceReady = false

theorem holdReset_held (d : Dev) : (holdReset allGroups d).Held := by
  obtain ⟨-, -, hready, -, h0, h1, hstop, hfree, -, -⟩ := holdReset_spec allGroups d
  exact ⟨h0, h1, fun g hg => hstop g (List.mem_range.2 hg), hfree, hready⟩

theorem holdReset_locked (gs : List Nat) (d : Dev) : (holdReset gs d).gesso.locked = d.gesso.locked := by
  obtain ⟨-, -, -, -, -, -, -, -, -, hlock⟩ := holdReset_spec gs d
  exact congrArg (fun x => x.1) hlock

theorem holdReset_failedStarts (gs : List Nat) (d : Dev) : (holdReset gs d).gesso.failedStarts = d.gesso.failedStarts := by
  obtain ⟨-, -, -, -, -, -, -, -, -, hlock⟩ := holdReset_spec gs d
  exact congrArg (fun x => x.2.1) hlock

theorem holdReset_st {d : Dev} (h : d.gesso.locked = true) (gs : List Nat) : (holdReset gs d).start.st = 2 := by
  obtain ⟨hst, -⟩ := holdReset_spec gs d
  rw [hst, if_pos h]

theorem holdReset_retryDue (gs : List Nat) (d : Dev) : (holdReset gs d).start.retryDue = false := by
  obtain ⟨-, -, -, hretry, -⟩ := holdReset_spec gs d
  exact hretry

theorem Dev.Held.raise {d : Dev} (h : d.Held) (e : Ev) : (raise e d).Held := by
  obtain ⟨h0, h1, hstop, hfree, hready⟩ := h
  exact ⟨by simpa using h0, by simpa using h1, by simpa using hstop, by simpa using hfree, by simpa using hready⟩

theorem raise_locked (e : Ev) (d : Dev) : (raise e d).gesso.locked = d.gesso.locked := congrArg (fun x => x.1) (raise_lockPart e d)

theorem raise_failedStarts (e : Ev) (d : Dev) : (raise e d).gesso.failedStarts = d.gesso.failedStarts :=
  congrArg (fun x => x.2.1) (raise_lockPart e d)

/-! ### Thermal trips (R478) -/

/-- The part as a trip stops it: the reading taken, the start ended, the lock set. -/
def tripped (h : Nat) (x : BitVec 16) (d : Dev) : Dev :=
  let d := endStart (d.modHalf h (fun y => { y with tj := x, tjPeak := hotter y.tjPeak x }))
  { d with gesso := { d.gesso with locked := true, thermalWait := true }, start := { d.start with st := 2, half := none } }

theorem thermalTrip_hot {x : BitVec 16} (hx : 1150 ≤ x.toInt) (h : Nat) (d : Dev) :
    thermalTrip h x d = raise { c := 4, inst := h, half := h } (holdReset allGroups (tripped h x d)) := if_neg (Int.not_lt.2 hx)

theorem tripped_failedStarts (h : Nat) (x : BitVec 16) (d : Dev) : (tripped h x d).gesso.failedStarts = d.gesso.failedStarts :=
  congrArg (fun y => y.2.1) (endStart_lockPart (d.modHalf h (fun y => { y with tj := x, tjPeak := hotter y.tjPeak x })))

/-- Cause 4 leaves a record of severity 3 from Gesso (unit 0). -/
theorem raise_lockRecord (h : Nat) (d : Dev) : ∃ k, let r := tabGet {} (raise { c := 4, inst := h, half := h } d).gesso.fr k
    r.valid = true ∧ r.cause = 4 ∧ r.severity = 3 ∧ r.unit = 0 ∧ r.inst = BitVec.ofNat 16 h := by
  obtain ⟨d', hgesso, hraise⟩ := raise_record (e := { c := 4, inst := h, half := h }) d (show Config.causeSeverity 4 ≠ 0 by decide)
  refine ⟨d'.gesso.frNext, ?_⟩
  rw [hraise, putRecord_slot]
  exact ⟨rfl, rfl, rfl, rfl, rfl⟩

/-! ### Failed starts (R448) -/

theorem pickPart_gesso (okA okB : Bool) (d : Dev) : (pickPart okA okB d).2.gesso = d.gesso := by
  simp only [pickPart]
  repeat' split
  all_goals rfl

theorem countFailure_failedStarts (okA okB : Bool) (us : Dword) (d : Dev) :
    (countFailure okA okB us d).gesso.failedStarts = d.gesso.failedStarts + 1 := by
  simp only [countFailure, raise_failedStarts]
  split <;> simp [addRecord, pickPart_gesso]

theorem countFailure_locked (okA okB : Bool) (us : Dword) (d : Dev) : (countFailure okA okB us d).gesso.locked = d.gesso.locked := by
  simp only [countFailure, raise_locked]
  split <;> simp [addRecord, pickPart_gesso]

section
variable {okA okB : Bool} {us : Dword} {d : Dev}

/-- The third failed start within the window locks the part. -/
theorem failStart_third (h : 2 ≤ d.gesso.failedStarts) : failStart okA okB us d =
    (let e := holdReset allGroups (raise { c := 4 } { countFailure okA okB us d with
       gesso := { (countFailure okA okB us d).gesso with locked := true } })
     { e with start := { e.start with retryDue := false } }) := by
  have hthree : 3 ≤ (countFailure okA okB us d).gesso.failedStarts := by
    rw [countFailure_failedStarts]
    omega
  simp [failStart, hthree]

theorem failStart_early (h : d.gesso.failedStarts < 2) : failStart okA okB us d =
    (let e := holdReset allGroups (countFailure okA okB us d)
     { e with start := { e.start with retryDue := true } }) := by
  have hthree : ¬3 ≤ (countFailure okA okB us d).gesso.failedStarts := by
    rw [countFailure_failedStarts]
    omega
  simp [failStart, hthree]

end

/-- Whether a retry is due does not change what is stopped. -/
theorem Dev.Held.retry {d : Dev} (h : d.Held) (b : Bool) : ({ d with start := { d.start with retryDue := b } } : Dev).Held :=
  ⟨h.half0, h.half1, h.stopLow, h.noSlice, h.notReady⟩

theorem failStart_held (okA okB : Bool) (us : Dword) (d : Dev) : (failStart okA okB us d).Held := (holdReset_held _).retry _

theorem failStart_failedStarts (okA okB : Bool) (us : Dword) (d : Dev) :
    (failStart okA okB us d).gesso.failedStarts = d.gesso.failedStarts + 1 := by
  rcases Nat.lt_or_ge d.gesso.failedStarts 2 with h | h
  · simp only [failStart_early h, holdReset_failedStarts, countFailure_failedStarts]
  · simp only [failStart_third h, holdReset_failedStarts, raise_failedStarts, countFailure_failedStarts]

/-- Settles O43: both ways end in `holdReset`, a trip and the third failure with the lock set before it. -/
theorem safeHold : Obligations.SafeHold := by
  unfold Obligations.SafeHold
  intro held
  have hheld : ∀ t : Dev, t.Held → held t := fun t h => ⟨h.half0, h.half1, h.stopLow, h.noSlice, h.notReady⟩
  refine ⟨?trip, ?failure⟩
  case trip =>
    intro d h x hx
    dsimp only
    rw [thermalTrip_hot hx]
    have hlocked : (holdReset allGroups (tripped h x d)).gesso.locked = true := holdReset_locked ..
    have hcount : (holdReset allGroups (tripped h x d)).gesso.failedStarts = d.gesso.failedStarts :=
      (holdReset_failedStarts ..).trans (tripped_failedStarts h x d)
    exact ⟨hheld _ ((holdReset_held _).raise _), (raise_locked ..).trans hlocked,
      (congrArg (fun x => x.st) (raise_start ..)).trans (holdReset_st rfl _), (raise_failedStarts ..).trans hcount, raise_lockRecord h _⟩
  case failure =>
    intro d okA okB us
    refine ⟨hheld _ (failStart_held ..), failStart_failedStarts .., fun hthird => ?_, fun hearly => ?_⟩
    · rw [failStart_third hthird]
      dsimp only
      refine ⟨?_, ?_, rfl⟩
      · rw [holdReset_locked, raise_locked]
      · apply holdReset_st
        rw [raise_locked]
    · rw [failStart_early hearly]
      refine ⟨?_, rfl⟩
      simp only [holdReset_locked, countFailure_locked]

/-! ### LOCK_CLEAR (R450) -/

/-- On a free path an answer only puts something on it. -/
theorem accept_idle {p : Path} {d : Dev} (h : d.pathBusy p = false) : accept p d = emit (.answer p cOk 0 []) d := answer_idle h cOk 0 []

theorem clearLock_unlocked {d : Dev} (h : d.gesso.locked = false) :
    clearLock d = { d with gesso := { d.gesso with failedStarts := 0 } } := by
  simp [clearLock, h]

/-- The lock, the count and FIRST_FATAL cleared, with a start of trigger 9 waiting. -/
def unlocked (d : Dev) : Dev := raise { c := 5 } { d with
  gesso := { d.gesso with locked := false, failedStarts := 0, frFatal := none }
  start := { d.start with st := 1, type := 1, waitTrigger := 9 } }

theorem clearLock_locked {d : Dev} (h : d.gesso.locked = true) : clearLock d = beginCold 9 (unlocked d) := by
  simp [clearLock, unlocked, h]

/-- Cause 5 is of severity 0: clearing the lock leaves no fault record. -/
theorem unlocked_gesso (d : Dev) : (unlocked d).gesso = { d.gesso with locked := false, failedStarts := 0, frFatal := none } :=
  raise_gesso_zero _ _ rfl

theorem execLockClear_owned {s : State} {p : Path} {o : Obj} (h : s.Accepts p 0x1220 4 [0xA5] o) (hact : o.cls = .act) :
    exec (.lockClear p 0xA5) s = .next (s.afterPd (clearLock (accept p s.dev))) := gessoRow_act h hact

/-- Settles O35: with the lock clear only the count goes; else the start that waits begins where its conditions hold (R421, R442, R458,
R478). -/
theorem lockClear : Obligations.LockClear := by
  refine ⟨fun s p o haccepts hact hlocked => ?_, fun d hlocked hcan => ?_, fun d hlocked hwait => ?_⟩
  · have hidle : s.dev.pathBusy p = false := haccepts.1.1
    rw [execLockClear_owned haccepts hact, clearLock_unlocked]
    rw [accept_idle hidle]
    exact hlocked
  · exact (clearLock_locked hlocked).trans (beginCold_ready hcan 9)
  · have hclear : clearLock d = unlocked d := (clearLock_locked hlocked).trans (if_neg (Bool.eq_false_iff.1 hwait))
    rw [hclear, unlocked_gesso]
    exact ⟨rfl, rfl, rfl, rfl, by simp [unlocked]⟩

end Sys2Proof.Machine
end

section
/-! PROOFS. Firmware staging and the thermal comparator (R446, R477, R478). -/
namespace Sys2Proof.Machine

/-! ### The flash partitions (R446) -/

/-- The bytes of a partition. -/
def Memory.part (m : Memory) (k : Nat) : Mem := if k = 0 then m.flashA else m.flashB

theorem Memory.part_write_same (m : Memory) (k off : Nat) (bs : List Byte) :
    (m.apply (.flash k off bs)).part k = memWrite (m.part k) off bs := by
  by_cases h : k = 0 <;> simp [Memory.part, Memory.apply, h]

theorem Memory.part_write_other (m : Memory) {k : Nat} (hk : k ≤ 1) (off : Nat) (bs : List Byte) :
    (m.apply (.flash k off bs)).part (1 - k) = m.part (1 - k) := by
  interval_cases k <;> rfl

theorem Memory.write_mailbox (m : Memory) (k off : Nat) (bs : List Byte) :
    (m.apply (.flash k off bs)).req = m.req ∧ (m.apply (.flash k off bs)).resp = m.resp := by
  by_cases h : k = 0 <;> simp [Memory.apply, h]

theorem Dev.inactive_le (d : Dev) : d.inactive ≤ 1 := Nat.sub_le ..

/-! ### Staging by the owner -/

theorem setObj_cfg (idx sub v : Nat) (d : Dev) : (setObj idx sub v d).cfg idx sub = v := by
  simp [setObj, Dev.cfg]

section
variable {s : State} {p : Path}

theorem guardedLow_owned (h : s.Owned p) (f : Dev → Dev) : guardedLow p true true f s.dev = f s.dev := by
  rw [guardedLow, entered_serves h.1]
  simp [h.2]

/-- The part after STAGE_DATA: the write under way, STAGE_OFFSET moved on, and the answer. -/
def stagedDev (p : Path) (data : List Byte) (d : Dev) : Dev :=
  emit (.answer p cOk 0 []) (setObj 0x1210 6 ((d.cfg 0x1210 6 + 4096) % 2 ^ 32)
    { emit (.flashWrite d.inactive (d.cfg 0x1210 6) data) d with
      memOps := [.flash d.inactive (d.cfg 0x1210 6) data], flash := { d.flash with stage := 0 } })

theorem execStageData_idle (hs : s.Settled) (h : s.Owned p) {data : List Byte} (hlen : data.length = 4096)
    (hidle : s.dev.flash.busy = false) : exec (.stageData p data) s = .next (s.after (stagedDev p data s.dev)) := by
  have hfree : s.dev.pathBusy p = false := h.1.1
  have hops : s.dev.memOps = [] := hs
  refine exec_next_of_run rfl ?_
  rw [decide_eq_true hlen, guardedLow_owned h, stageData, hidle, hops]
  exact accept_idle hfree

/-- While an erase or a verify runs the data is refused, whatever its length. -/
theorem execStageData_busy (h : s.Owned p) (data : List Byte) (hbusy : s.dev.flash.busy = true) :
    ∃ code reason, exec (.stageData p data) s = .next (s.after (emit (.answer p code reason []) s.dev)) := by
  have hrefused : ∃ code reason, guardedLow p (data.length = 4096) true (stageData p data) s.dev = refuse p code reason s.dev := by
    by_cases hlen : data.length = 4096
    · refine ⟨cBusy, 3, ?_⟩
      rw [decide_eq_true hlen, guardedLow_owned h, stageData, hbusy, if_pos rfl]
    · refine ⟨cNotPermitted, 5, ?_⟩
      rw [guardedLow, entered_serves h.1]
      simp [h.2, hlen]
  obtain ⟨code, reason, hrefused⟩ := hrefused
  exact ⟨code, reason, exec_next_of_run rfl (hrefused.trans (answer_idle h.1.1 code reason []))⟩

theorem execStageCmdErase_idle (h : s.Owned p) (hidle : s.dev.flash.busy = false) : exec (.stageCmdErase p) s =
    .next (s.after (emit (.answer p cOk 0 []) { s.dev with flash := { s.dev.flash with stage := 1 } })) := by
  have hfree : s.dev.pathBusy p = false := h.1.1
  refine exec_next_of_run rfl ?_
  rw [guardedLow_owned h, stageCmdAct, hidle]
  exact accept_idle hfree

theorem execStageCmdVerify_idle (h : s.Owned p) (hidle : s.dev.flash.busy = false) : exec (.stageCmdVerify p) s =
    .next (s.after (emit (.answer p cOk 0 []) { s.dev with flash := { s.dev.flash with stage := 3 } })) := by
  have hfree : s.dev.pathBusy p = false := h.1.1
  refine exec_next_of_run rfl ?_
  rw [guardedLow_owned h, stageCmdAct, hidle]
  exact accept_idle hfree

end

/-- Settles O47: the one memory operation of STAGE_DATA writes the inactive partition at STAGE_OFFSET. -/
theorem stagedBytes : Obligations.StagedBytes := by
  unfold Obligations.StagedBytes
  intro part
  have hpart : ∀ m k, part m k = m.part k := fun _ _ => rfl
  refine ⟨fun s p data hs hown hlen hidle => ?stored, fun s p data hs hown hbusy => ?refused⟩
  case stored =>
    intro x off
    have hmem : (s.after (stagedDev p data s.dev)).mem = s.mem.apply (.flash x off data) := rfl
    obtain ⟨hreq, hresp⟩ := s.mem.write_mailbox x off data
    refine ⟨_, execStageData_idle hs hown hlen hidle, fun k hk => ?_, fun a ha => ?_, fun a => ⟨?_, ?_⟩, fun _ a => ?_, setObj_cfg ..⟩
    · rw [hmem, hpart, Memory.part_write_same, memGet_write_inside]
    · rw [hmem, hpart, hpart, Memory.part_write_same, memGet_write_outside _ _ _ _ (by omega)]
    · rw [hmem, hpart, hpart, Memory.part_write_other _ s.dev.inactive_le]
    · rw [hmem, hreq]
    · rw [hmem, hresp]
  case refused =>
    have hops : s.dev.memOps = [] := hs
    obtain ⟨code, reason, hexec⟩ := execStageData_busy hown data hbusy
    refine ⟨_, hexec, ?_, ?_⟩
    all_goals simp [hops]

/-! ### Ends of an erase and of a verify (R446) -/

section
variable {d : Dev}

theorem stageDone_erased (hstage : d.flash.stage = 1) (hpart : d.inactive = 1) (v m : Dword) : stageDone true v m d =
    { d with memOps := d.memOps ++ [.erase 1], flash := { d.flash with stB := 0, verB := 0, stage := 0 } } := by
  simp [stageDone, hstage, hpart, Flash.setSt]

theorem stageDone_verified (hstage : d.flash.stage = 3) (hpart : d.inactive = 1) (v m : Dword) : stageDone true v m d =
    { d with flash := { d.flash with stB := 3, verB := v, stage := 4, minVersion := m } } := by
  simp [stageDone, hstage, hpart, Flash.setSt]

theorem stageDone_invalid (hstage : d.flash.stage = 3) (hpart : d.inactive = 1) (v m : Dword) : stageDone false v m d =
    { d with flash := { d.flash with stB := 2, stage := 5 } } := by
  simp [stageDone, hstage, hpart, Flash.setSt]

/-! ### The thermal comparator (R477, R478) -/

theorem thermalTrip_cool {x : BitVec 16} (hx : x.toInt < 1150) (h : Nat) : thermalTrip h x d =
    d.modHalf h (fun y => { y with tj := x, tjPeak := if x.toInt < y.tjPeak.toInt then y.tjPeak else x }) := if_pos hx

end

theorem execThermalClearStart_locked {s : State} (hwait : s.dev.gesso.thermalWait = true) (hlocked : s.dev.gesso.locked = true) :
    exec .thermalClearStart s = .next (s.afterPd { s.dev with gesso := { s.dev.gesso with thermalWait := false } }) := by
  refine exec_next_of_runP rfl ?_
  simp [hwait, hlocked]

/-- Settles O52: staging changes the flash states and, at the end of an erase, one partition; a trip stops the part (`thermalTrip_hot`).
That an erased partition is empty is log entry 3, and that a trip ends the start in progress is log entry 49. -/
theorem stagingAndTripComplete : Obligations.StagingAndTripComplete := by
  refine ⟨fun s p hs hown hidle => ⟨?erase, ?verify⟩, fun s v m hs hstage hpart => ?erased, fun s v m hs hstage hpart => ⟨?good, ?bad⟩,
    fun s h x hx => exec_next_of_runP rfl (thermalTrip_cool hx h), fun s h x hx => ?hot, fun s => execThermalClearStart_locked⟩
  case hot =>
    refine ⟨_, exec_next_of_runP rfl (thermalTrip_hot hx h s.dev), ?_, ?_, ?_⟩
    all_goals rw [State.afterPd_start, raise_start]
    · exact holdReset_st rfl _
    · exact (holdReset_held _).notReady
    · exact holdReset_retryDue ..
  all_goals have hops : s.dev.memOps = [] := hs
  case erase => exact ⟨_, execStageCmdErase_idle hown hidle, rfl, rfl, rfl, by simp [hops]⟩
  case verify => exact ⟨_, execStageCmdVerify_idle hown hidle, rfl, rfl, rfl, by simp [hops]⟩
  case erased => exact ⟨_, exec_next_of_run rfl (stageDone_erased hstage hpart v m), rfl, by simp [hops, Memory.apply]⟩
  case good => exact ⟨_, exec_next_of_run rfl (stageDone_verified hstage hpart v m), rfl, by simp [hops]⟩
  case bad => exact ⟨_, exec_next_of_run rfl (stageDone_invalid hstage hpart v m), rfl, by simp [hops]⟩

end Sys2Proof.Machine
end

section
/-! PROOFS. Frames of Herob: their padding, and repeats (R407, R410). -/
namespace Sys2Proof.Machine

@[simp] theorem toLink_val (l : LinkId) : toLink l.val = l := Fin.ext (Nat.mod_eq_of_lt l.isLt)

/-! ### Padding (R407) -/

/-- The data lengths of CAN FD. -/
def canLengths : List Nat := [0, 1, 2, 3, 4, 5, 6, 7, 8, 12, 16, 20, 24, 32, 48, 64]

/-- For each length up to 64, `canDlc` is the least of the data lengths that holds it. -/
theorem canDlc_least : ∀ n < 65, canDlc n ∈ canLengths ∧ n ≤ canDlc n ∧ ∀ k ∈ canLengths, n ≤ k → canDlc n ≤ k := by
  decide

theorem padTo_length {n : Nat} {bs : List Byte} (h : bs.length ≤ n) : (padTo n bs).length = n := by
  simp [padTo, h]

theorem padTo_take (n : Nat) (bs : List Byte) : (padTo n bs).take bs.length = bs := by
  simp [padTo]

theorem padTo_drop (n : Nat) (bs : List Byte) : ∀ b ∈ (padTo n bs).drop bs.length, b = 0 := by
  simp [padTo]

/-! ### Repeats (R410) -/

theorem repeats_same {cmd : Nat} {fr g : HFrame} (htxn : g.txn = fr.txn) (hindex : g.index = fr.index) (hsub : g.sub = fr.sub)
    (hseq : g.seq = fr.seq) : repeats (some (cmd, g)) fr = true := by
  simp [repeats, htxn, hindex, hsub, hseq]

/-- A repeat whose answer has been given has it again, and is not acted on. -/
theorem herobFrame_repeat {l : Nat} {fr : HFrame} {d : Dev} (hserves : d.canServes l = true)
    (hrepeats : repeats (d.can l).lastFrame fr = true) (hcur : (d.can l).cur = none) (hwaiting : (d.can l).waiting = []) (cmd : Nat)
    (image : List Dword) : herobFrame l cmd fr image d = canSend l 9 (d.can l).lastResp d := by
  simp [herobFrame, hserves, hrepeats, hcur, hwaiting]

/-- Settles O46: content is padded to the least data length, and each command's frame meets the last one before it is taken. -/
theorem herobFrames : Obligations.HerobFrames := by
  refine ⟨fun bs hlen => ?padding, ?single, ?settled⟩
  case padding =>
    obtain ⟨hmem, hle, hleast⟩ := canDlc_least bs.length (by omega)
    have hout := padTo_length hle
    dsimp only
    rw [hout]
    exact ⟨hmem, hle, hleast, padTo_take .., padTo_drop _ _⟩
  case single =>
    intro s l fr g cmd image i hserves hlast htxn hindex hsub hseq hcur hwaiting hi
    have hrow := herobFrame_repeat hserves (hlast ▸ repeats_same htxn hindex hsub hseq) hcur hwaiting
    simp only [List.mem_cons, List.not_mem_nil, or_false] at hi
    rcases hi with rfl | rfl | rfl
    all_goals exact exec_next_of_run rfl (hrow _ _)
  case settled =>
    intro s l fr g cmd image i hserves hlast htxn hindex hsub hseq hcur hwaiting hi
    have hrow := herobFrame_repeat hserves (hlast ▸ repeats_same htxn hindex hsub hseq) hcur hwaiting
    simp only [List.mem_cons, List.not_mem_nil, or_false] at hi
    rcases hi with rfl | rfl
    all_goals exact exec_next_of_runP rfl (hrow _ _)

end Sys2Proof.Machine
end

section
/-! PROOFS. Rows of Herob: transfers, the minimal responder, heartbeat, bus-off and event frames (R404, R408, R409, R412, R418, R419,
R422). -/
namespace Sys2Proof.Machine

/-! ### Frames that the server takes (R408, R409) -/

section
variable {l : LinkId} {fr : HFrame} {d : Dev}

@[simp] theorem noted_seg (s : State) (cmd : Nat) : ((s.noted l cmd fr).can l).seg = (s.dev.can l).seg := by
  simp [State.noted]

/-- A frame that begins a transfer, where the path is free and SEQ is 0. -/
theorem herobTake_begins (hfree : d.pathBusy (.can l) = false) (hseq : fr.seq = 0) (image : List Dword) :
    herobTake l 0x10 fr image d = frameRead l fr d ∧ herobTake l 0x20 fr image d = frameWrite l fr d ∧
    herobTake l 0x22 fr image d = frameSegStart l fr d := by
  simp [herobTake, hfree, hseq]

theorem frameRead_ok {bs : List Byte} (hserved : d.unserved fr.index.toNat = false)
    (hread : d.dictRead fr.index.toNat fr.sub.toNat = .ok bs) :
    frameRead l fr d = if bs.length ≤ 56 then herobReply l 0x11 fr 0 bs d
      else herobReply l 0x12 fr 0 (leBytes 4 bs.length) (d.modCan l (fun y => { y with seg := some {
        isWrite := false, txn := fr.txn, index := fr.index, sub := fr.sub, total := bs.length, next := 1, data := bs } })) := by
  simp [frameRead, hserved, hread]

theorem frameSegGet_next {x : Seg} (hseg : (d.can l).seg = some x) (howns : x.owns fr = true) (hread : x.isWrite = false)
    (hseq : fr.seq = x.next) :
    frameSegGet l fr d = herobReply l 0x14 fr fr.seq (segment x.data fr.seq) (d.modCan l (fun y => { y with
      seg := if x.total ≤ 56 * fr.seq then none else some { x with next := x.next + 1 } })) := by
  simp [frameSegGet, hseg, howns, hread, hseq]

theorem frameWrite_fits (hdata : fr.data ≠ []) (hlen : fr.data.length ≤ 56) :
    frameWrite l fr d = frameApply l fr true fr.data [] d := by
  simp [frameWrite, hdata, hlen]

theorem frameSegStart_fits (hlen : 4 ≤ fr.data.length) (hlo : 57 ≤ ofBytes (fr.data.take 4)) (hhi : ofBytes (fr.data.take 4) ≤ 4096) :
    frameSegStart l fr d = herobReply l 0x24 fr 0 [] (d.modCan l (fun y => { y with
      seg := some { isWrite := true, txn := fr.txn, index := fr.index, sub := fr.sub, total := ofBytes (fr.data.take 4), next := 1
                    data := [], owned := d.isOwner (.can l) } })) := by
  simp [frameSegStart, Nat.not_lt.2 hlen, Nat.not_lt.2 hlo, Nat.not_lt.2 hhi]

theorem frameSegPut_next {x : Seg} (hseg : (d.can l).seg = some x) (howns : x.owns fr = true) (hwrite : x.isWrite = true)
    (hseq : fr.seq = x.next) (hlen : fr.data.length = min 56 (x.total - 56 * (fr.seq - 1))) (image : List Dword) :
    frameSegPut l fr image d = if x.total ≤ 56 * fr.seq then frameApply l fr x.owned (x.data ++ fr.data) image d
      else herobReply l 0x24 fr fr.seq [] (d.modCan l (fun y => { y with
        seg := some { x with next := x.next + 1, data := x.data ++ fr.data } })) := by
  have hseq' : (fr.seq != x.next) = false := by simp [hseq]
  have hlen' : (fr.data.length != min 56 (x.total - 56 * (fr.seq - 1))) = false := by simp [hlen]
  simp only [frameSegPut, hseg, howns, hwrite, hseq', hlen']
  rfl

/-! ### The minimal responder (R418) -/

theorem miniFrame_read (hup : d.miniUp l = true) (hnew : repeats (d.can l).lastMini fr = false)
    (hfree : (d.modCan l (fun x => { x with lastMini := some (0x10, fr) })).miniBusy l = false) (hseq : fr.seq = 0)
    (hserves : miniServes fr.index.toNat fr.sub.toNat = true) :
    miniFrame l 0x10 fr d = miniRead l fr (d.modCan l (fun x => { x with lastMini := some (0x10, fr) })) := by
  simp [miniFrame, hup, hnew, hfree, hseq, hserves]

/-! ### The client's abort and the timeout (R410, R412) -/

theorem clientAbort_heard (hserves : d.canServes l = true) : clientAbort l fr d = d.modCan l (fun x => { x with
    seg := x.seg.filter (fun s => !(s.owns fr))
    waiting := x.waiting.filter (fun w => !(w.2.1.txn == fr.txn && w.2.1.index == fr.index && w.2.1.sub == fr.sub))
    lastFrame := none }) := by
  simp [clientAbort, hserves]

theorem segTimeout_server {x : Seg} (hseg : (d.can l).seg = some x) :
    segTimeout l d = herobAbort l { txn := x.txn, index := x.index, sub := x.sub } cNotPermitted 9
      (d.modCan l (fun y => { y with seg := none })) := by
  simp [segTimeout, hseg]

theorem segTimeout_responder {x : Seg} (hseg : (d.can l).seg = none) (hmini : (d.can l).mini = some x) :
    segTimeout l d = miniAbort l { txn := x.txn, index := x.index, sub := x.sub } cNotPermitted 9
      (d.modCan l (fun y => { y with mini := none })) := by
  simp [segTimeout, hseg, hmini]

/-! ### Heartbeat, bus-off and event frames (R404, R419, R422) -/

theorem heartbeat_due (hsupply : d.gesso.vdd = true ∨ d.gesso.vsrv = true) (hclock : d.gesso.clock = true) (hlevel : d.gesso.level ≠ 3)
    (hperiod : d.cfg 0x1100 5 ≠ 0 ∨ d.start.st = 2) :
    heartbeat d = forEach [0, 1] (fun l d => if d.linkEnabled l then canSend l 2 (heartbeatBytes d) d else d) d := by
  have hsupply' : (d.gesso.vdd || d.gesso.vsrv) = true := by simpa using hsupply
  have hperiod' : (decide (d.cfg 0x1100 5 = 0) && d.start.st != 2) = false := by
    rcases hperiod with h | h <;> simp [h]
  simp only [heartbeat, hsupply', hclock, hlevel, hperiod']
  rfl

theorem canBusOff_first (hon : d.linkEnabled l = true) (hbus : (d.can l).busOff = false) :
    canBusOff l d = raise { c := 194, inst := l }
      ({ d with sys := { d.sys with busOff := d.sys.busOff + 1 } }.modCan l (fun x => { x with busOff := true })) := by
  simp [canBusOff, hon, hbus]

theorem busOffRecovery_off (hbus : (d.can l).busOff = true) :
    busOffRecovery l d = (d.can l).held.foldl (fun d f => emit (.can l f.1 f.2) d)
      (d.modCan l (fun x => { x with busOff := false, held := [] })) := by
  simp [busOffRecovery, hbus]

theorem foldl_emit_can {α : Type} (o : α → Output) (fs : List α) (d : Dev) (k : Nat) :
    (fs.foldl (fun d f => emit (o f) d) d).can k = d.can k :=
  fold_same (fun d => d.can k) fs _ d (fun _ _ => rfl)

/-- No cause was missed: the queue empties. -/
theorem drainEvents_complete (hbus : (d.can l).busOff = false) (hnone : (d.can l).overflow = []) :
    drainEvents l d = ((d.can l).evQueue.foldl (fun d f => emit (.can l 3 f) d) d).modCan l (fun x => { x with
      evQueue := [], overflow := [] }) := by
  simp [drainEvents, hbus, foldl_emit_can, hnone]

end

/-- Settles O29: each frame is the one its transfer expects, each line is in the state named, by the lemmas above. That the client's
abort clears the frame which a repeat is compared with is log entry 54. -/
theorem herobRowsComplete : Obligations.HerobRowsComplete := by
  refine ⟨?read, ?segGet, ?write, ?segStart, ?segPut, ?abort, ?timeout, ?miniTimeout, ?responder, ?heartbeat, ?busOff, ?recovery, ?drain⟩
  case read =>
    intro s l fr bs hhears hfree hseq hserved hread
    exact exec_next_of_run rfl ((herobFrame_hears hhears 0x10 []).trans
      ((herobTake_begins hfree hseq []).1.trans (frameRead_ok hserved hread)))
  case segGet =>
    intro s l fr x hhears hseg howns hisRead hseq
    exact exec_next_of_run rfl ((herobFrame_hears hhears 0x13 []).trans
      (frameSegGet_next ((noted_seg s 0x13).trans hseg) howns hisRead hseq))
  case write =>
    intro s l fr hhears hfree hseq hdata hlen
    exact exec_next_of_runP rfl ((herobFrame_hears hhears 0x20 []).trans
      ((herobTake_begins hfree hseq []).2.1.trans (frameWrite_fits hdata hlen)))
  case segStart =>
    intro s l fr hhears hfree hseq hlen hlo hhi
    exact exec_next_of_run rfl ((herobFrame_hears hhears 0x22 []).trans
      ((herobTake_begins hfree hseq []).2.2.trans (frameSegStart_fits hlen hlo hhi)))
  case segPut =>
    intro s l fr image x hhears hseg howns hisWrite hseq hlen
    exact exec_next_of_runP rfl ((herobFrame_hears hhears 0x23 image).trans
      (frameSegPut_next ((noted_seg s 0x23).trans hseg) howns hisWrite hseq hlen image))
  case abort => exact fun s l fr hserves => exec_next_of_run rfl (clientAbort_heard hserves)
  case timeout => exact fun s l x hseg => exec_next_of_run rfl (segTimeout_server hseg)
  case miniTimeout => exact fun s l x hseg hmini => exec_next_of_run rfl (segTimeout_responder hseg hmini)
  case responder =>
    exact fun s l fr hup hnew hfree hseq hserves => exec_next_of_runP rfl (miniFrame_read hup hnew hfree hseq hserves)
  case heartbeat =>
    exact fun s hsupply hclock hlevel hperiod => exec_next_of_run rfl (heartbeat_due hsupply hclock hlevel hperiod)
  case busOff => exact fun s l hon hbus => exec_next_of_run rfl (canBusOff_first hon hbus)
  case recovery => exact fun s l hbus => exec_next_of_run rfl (busOffRecovery_off hbus)
  case drain => exact fun s l hbus hnone => exec_next_of_run rfl (drainEvents_complete hbus hnone)

end Sys2Proof.Machine
end

section
/-! PROOFS. GO on the mailbox: a request that is taken at once and answered in the mailbox (R400, R401, R413, R415). -/
namespace Sys2Proof.Machine

/-! ### The request is taken (R415) -/

/-- The device once GO has made the mailbox busy with the request in its registers. -/
def Dev.mboxTaken (d : Dev) : Dev :=
  { d with mbox := { d.mbox with busy := true, done := false, overrun := false, rseq := d.mbox.seq } }

/-- The data of the mailbox's request, out of its buffer. -/
def State.mboxData (s : State) : List Byte := memRead s.mem.req 0 (min s.dev.mbox.length.toNat 4097)

/-- GO on function f begins a request that the dictionary server takes at once. -/
structure State.MboxFree (s : State) (f : FuncId) : Prop where
  manager : s.dev.isManager f = true
  level : s.dev.gesso.level = 0
  start : s.dev.start.st ≠ 2
  half : (s.dev.half 0).inReset = false
  busy : s.dev.mbox.busy = false
  server : s.dev.serverOut = false

section
variable {s : State} {f : FuncId} (h : s.MboxFree f)
include h

theorem mailboxGo_free (image : List Dword) :
    mailboxGo f image s.mem s.dev =
      adminTake s.dev.mbox.op.toNat s.dev.mbox.index.toNat s.dev.mbox.sub.toNat s.mboxData image s.dev.mboxTaken := by
  simp only [mailboxGo, h.manager, h.level, h.start, h.half, h.busy]
  exact if_neg (ne_true_of_eq_false h.server)

/-- The row whose operation stands in REQ.OP hands the request to the dictionary server. -/
theorem adminRow_free {op : Byte} (hop : s.dev.mbox.op = op) (image : List Dword) :
    adminRow op.toNat f image s =
      .next (s.afterPd (adminTake op.toNat s.dev.mbox.index.toNat s.dev.mbox.sub.toNat s.mboxData image s.dev.mboxTaken)) := by
  have hgo := mailboxGo_free h image
  rw [hop] at hgo
  rw [adminRow, State.on_eq, if_pos (congrArg _ hop), hgo]
  rfl

end

/-! ### The request is answered (R415) -/

section
variable {d : Dev}

theorem answer_mailbox (h : d.mbox.busy = true) (code reason : Nat) (data : List Byte) :
    answer .admin code reason data d = mboxAnswer code reason data d := by
  simp [answer, h]

/-- A write of a field that is stored, neither write-only nor a group's member nor a port's FIXED_MASK. -/
theorem dictWrite_stores {p : Path} {owned : Bool} {idx sub : Nat} {bs : List Byte} {o : Obj} (hok : d.writeBad owned idx sub bs = none)
    (hbuilder : isBuilderIdx idx = false) (ho : d.objOf idx sub = some o) (hcls : o.cls = .l ∨ o.cls = .q ∨ o.cls = .b)
    (hwo : o.acc ≠ .wo) (hgroup : ¬(0x2010 ≤ idx ∧ idx ≤ 0x2013)) (hmask : ¬(0x3100 ≤ idx ∧ idx < 0x31C0 ∧ sub = 4))
    (image : List Dword) : dictWrite p owned idx sub bs image d = accept p (storeObj o.cls idx sub (ofBytes bs) d) := by
  have hact : o.cls ≠ .act := by rcases hcls with h | h | h <;> simp [h]
  simp [dictWrite, hok, hbuilder, ho, hact, storeWrite_plain hwo hgroup hmask]

/-! ### A manager operation block (R413) -/

/-- The block's object is an action object, at every number of slices. -/
theorem objInfo_block (S : Nat) : ∃ o, objInfo S 0x2030 1 = some o ∧ o.cls = .act := by
  have hS : objInfo S 0x2030 1 = objInfo 192 0x2030 1 := by simp [objInfo]
  rw [hS]
  exact ⟨_, rfl, by decide⟩

theorem dictWrite_block {p : Path} {owned : Bool} {bs : List Byte} (hok : d.writeBad owned 0x2030 1 bs = none) (image : List Dword) :
    dictWrite p owned 0x2030 1 bs image d = blockWrite p bs image d := by
  obtain ⟨o, ho, hact⟩ := objInfo_block d.S
  have hbuilder : isBuilderIdx 0x2030 = false := rfl
  simp [dictWrite, hok, hbuilder, Dev.objOf, ho, hact, actWrite]

theorem blockWrite_runs {p : Path} {bs : List Byte} (hlo : 0x40 ≤ blockOp (bytesDw bs)) (hhi : blockOp (bytesDw bs) ≤ 0x4A)
    (hres : blockReserved (bytesDw bs) = false) (image : List Dword) :
    blockWrite p bs image d = managerOp p (blockOp (bytesDw bs)) (blockOf (bytesDw bs)) image d := by
  simp [blockWrite, hres, Nat.not_lt.2 hlo, Nat.not_lt.2 hhi]

end

/-! ### The rows -/

/-- Settles O49: the request is taken from the mailbox, and read, stored or carried out as on every path, and answered there. -/
theorem mailboxRequestsComplete : Obligations.MailboxRequestsComplete := by
  intro s f hmanager hlevel hstart hhalf hbusy hserver
  have hfree : s.MboxFree f := ⟨hmanager, hlevel, hstart, hhalf, hbusy, hserver⟩
  refine ⟨?read, ?write, ?operation⟩
  case read =>
    intro o hop hidx ho hwo
    have hanswer : dictAnswer .admin s.dev.mbox.index.toNat s.dev.mbox.sub.toNat s.dev.mboxTaken =
        mboxAnswer 1 0 (s.dev.mboxTaken.objRead s.dev.mbox.index.toNat s.dev.mbox.sub.toNat o) s.dev.mboxTaken :=
      (dictAnswer_readable hidx ho hwo).trans (answer_mailbox rfl ..)
    exact (adminRow_free hfree hop []).trans (congrArg (Host.Outcome.next ∘ s.afterPd) hanswer)
  case write =>
    intro o hop hok hbuilder ho hcls hwo hgroup hmask
    have hanswer : dictWrite .admin (s.dev.mboxTaken.isOwner .admin) s.dev.mbox.index.toNat s.dev.mbox.sub.toNat s.mboxData []
        s.dev.mboxTaken = mboxAnswer 1 0 []
          (storeObj o.cls s.dev.mbox.index.toNat s.dev.mbox.sub.toNat (ofBytes s.mboxData) s.dev.mboxTaken) :=
      (dictWrite_stores hok hbuilder ho hcls hwo hgroup hmask []).trans (answer_mailbox rfl ..)
    exact (adminRow_free hfree hop []).trans (congrArg (Host.Outcome.next ∘ s.afterPd) hanswer)
  case operation =>
    intro image hop hok hrange hres
    have hruns : dictWrite .admin (s.dev.mboxTaken.isOwner .admin) 0x2030 1 s.mboxData image s.dev.mboxTaken =
        managerOp .admin (blockOp (bytesDw s.mboxData)) (blockOf (bytesDw s.mboxData)) image s.dev.mboxTaken :=
      (dictWrite_block hok image).trans (blockWrite_runs hrange.1 hrange.2 hres image)
    exact (adminRow_free hfree hop image).trans (congrArg (Host.Outcome.next ∘ s.afterPd) hruns)

end Sys2Proof.Machine
end
